-- ==== Sys2Proof/Word.lean ====
section
/-!
DEFINITION. The word types of the controller and two plain containers of its state: a table indexed by
a small number (ports, trowels, instances, channels), and a sparse map keyed by a number.
-/
namespace Sys2Proof

/-- A byte of the hawk, of a packet or of host memory. -/
abbrev Byte := BitVec 8

/-- The 64-bit word of a register (R407), a stencil instruction (R267) or a host address. -/
abbrev Word := BitVec 64

/-- An event entry: 32 bytes (R106). -/
abbrev Event := BitVec 256

/-- A transfer entry: 32 bytes (R103). -/
abbrev TEntry := BitVec 256

/-- A command entry: 64 bytes (R105). -/
abbrev CEntry := BitVec 512

/-- Root port number (R12: 32 root ports). -/
abbrev PortNo := Fin 32

/-- Instance number: manager 0, tenants 1 to 63 (R3, R12). -/
abbrev InstNo := Fin 64

/-- Trowel number (R12: 48 trowels). -/
abbrev TrowelNo := Fin 48

/-- Event ring number within an instance (R90: 1 to 8 rings). -/
abbrev RingNo := Fin 8

/-- Stencil channel number (R262: channels 0 to 15). -/
abbrev ChanNo := Fin 16

/-- Dispatch queue number (R12: 64 queues). -/
abbrev QueueNo := Fin 64

/-- Dispatch group number (R12: 16 groups). -/
abbrev GroupNo := Fin 16

/-- A fixed number of like things. -/
abbrev Tab (α : Type) (n : Nat) := Vector α n

/-- A sparse map keyed by a number, kept with rising keys. -/
abbrev KMap (α : Type) := List (Nat × α)

end Sys2Proof
end

