-- ==== Sys2Proof/Syntax.lean ====
section
/-!
DEFINITION. The commands of the block: one constructor per row of the opcode table, with the operands the
model gives it: the object named, what the outside world answers (packet bytes, data of a host read,
sensor values), and a time or bus position where a rule needs one (log 1). The docstrings give the row.
-/
namespace Sys2Proof

/-- The classification of a released line (R60, R427). -/
inductive Line where
  | low | restP | restN | wake | both | unclassified
  deriving DecidableEq, Repr

/-- Which main rail has fallen (R375, R423). -/
inductive Rail where
  | core | sram | other
  deriving DecidableEq, Repr

/-- The readings the shedding ladder compares (R377): rails in mV, junction in °C, SUPPLY_WARN_N low,
and any other main rail below its valid threshold. -/
structure Sensors where
  coreMv : Nat
  sramMv : Nat
  phyMv : Nat
  aonMv : Nat
  tempC : Int
  warnLow : Bool
  otherLow : Bool
  deriving DecidableEq, Repr

/-- The ring slot of a command that orders a port, and whether an order of a higher rank that contradicts it comes in its cycle (R157,
R158) (log 122). -/
structure RankedSlot where
  slot : BitVec 16
  outranked : Bool
  deriving DecidableEq, Repr

/-- The ring slot of a GATE_CANCEL, and how many decrements reach its gate in the cycle in which it takes effect (R302) (log 122). -/
structure CancelSlot where
  slot : BitVec 16
  decs : Nat
  deriving DecidableEq, Repr

/-- A word written to a count register, and how many changes of the count fall in the cycle of the write: decrements of a stencil count
(R277), occurrences that a counter counts (R346) (log 122). -/
structure CountWrite where
  word : BitVec 64
  decs : Nat
  deriving DecidableEq, Repr

/-- A port, and the classification of its line at an instant. -/
structure PortLine where
  port : PortNo
  line : Line
  deriving DecidableEq, Repr

/-- A port, and whether its PPWR_FLT_N pin is low. -/
structure PortLevel where
  port : PortNo
  low : Bool
  deriving DecidableEq, Repr

/-- A port, and the time in µs from an instant of it to the next tick. -/
structure PortWait where
  port : PortNo
  usToTick : Nat
  deriving DecidableEq, Repr

/-- What a row of MOVE, FILL or CMP brings: the line of the program that its fetch reads, if it reads one (R276), and how many bursts it
carries out (R275). -/
structure StnRow where
  line : List (BitVec 8)
  bursts : Nat
  deriving DecidableEq, Repr

/-- What the check bits of the hawk words read in a step show (R224): no error, a corrected word, or an
uncorrectable word, at a physical byte address. -/
inductive Ecc where
  | ok
  | corrected (addr : BitVec 24)
  | uncorrectable (addr : BitVec 24)
  deriving DecidableEq, Repr

/-- The work on whose behalf a host access was made (R442). -/
inductive HostAccess where
  | command (i : InstNo) (slot : BitVec 16)
  | transfer (ep : Nat) (slot : BitVec 16)
  | event (i : InstNo) (e : RingNo) (slot : BitVec 16)
  | mirror (i : InstNo) (e : RingNo)
  | stencil (c : ChanNo) (param : Bool)
  | frameList (i : InstNo)
  | trace
  | dirtyLog
  | backing (off : Nat)
  deriving DecidableEq, Repr

/-- What carries out rounds: an endpoint context slot, a transfer of the controller's own (R241), or the
status endpoint of a hub (R240). -/
inductive Holder where
  | ep (slot : Nat)
  | own (id : Nat)
  | hub (zone : Nat)
  deriving DecidableEq, Repr

/-- A completed read of a frame list: a link word, or a run of descriptors (R181, R183). -/
inductive ListRead where
  | link (w : Word)
  | run (descs : List (BitVec 256))
  deriving DecidableEq, Repr

/-- A position of a tree: a root port (hub 0, hport 0) or a downstream port of a hub (Enumeration, 08). -/
structure Pos where
  port : PortNo
  hub : Nat
  hport : Nat
  deriving DecidableEq, Repr

/-- A set of programmable counters (R341). -/
inductive CtrSet where
  | device
  | inst (i : InstNo)
  deriving DecidableEq, Repr

/-- Instructions offered to the TAP (R389). -/
inductive TapInstr where
  | bypass | idcode | samplePreload | extest | debugCore | debugLath | other
  deriving DecidableEq, Repr

/-- Link power states of ASPM (R4, R124). -/
inductive L1State where
  | l1 | l11 | l12
  deriving DecidableEq, Repr

/-- The commands, in the order of the opcode table. -/
inductive Instr where
  /-- VDD_AON_RISE (R371): The always-on supply rises: power-on reset clears the retention registers and the snag-log buffer and leads toward PRIME. -/
  | vddAonRise
  /-- VDD_AON_LOSS (R14): VDD_AON falls below 0.70 V in any mode and the controller enters OFF. -/
  | vddAonLoss
  /-- PERST_N_ASSERT (R371): PERST_N is asserted: a reset through PRIME that waits before instant 1, or in STANDBY the link goes down. -/
  | perstNAssert
  /-- PERST_N_RELEASE (R366): PERST_N is released with all supplies valid, latching the reset cause and starting PRIME at instant 1. -/
  | perstNRelease
  /-- MAIN_SUPPLIES_REMOVED (R375): A main rail falls below its threshold for 4 µs (D3cold), and the controller writes retention and enters RETAIN. -/
  | mainSuppliesRemoved (rail : Rail)
  /-- PLL_LOCK (R366): REF and the core PLLs lock in PRIME and the first wipe begins. -/
  | pllLock
  /-- FIRST_WIPE_COMPLETE (R373): The first zeroing of the hawk and the other wiped memories completes in PRIME. -/
  | firstWipeComplete
  /-- PCIE_LINK_UP (R366): The PCI Express link trains in PRIME; physical function configuration space becomes readable while BARs answer Unsupported Request. -/
  | pcieLinkUp
  /-- SELF_TEST_COMPLETE (R366): Memory and lath self-test ends with the second wipe, and the boot directory is read. -/
  | selfTestComplete (failed : Option (BitVec 8)) (dir0 dir1 : List Byte)
  /-- FIRMWARE_SLOT_READ_DONE (R367): The firmware slot being tried has been read from SPI flash. -/
  | firmwareSlotReadDone (ok : Bool)
  /-- SIGNATURE_CHECK_DONE (R365): The firmware header, key digest, ECDSA signature and svn are checked; the slot is accepted, or the other slot is tried. -/
  | signatureCheckDone (image : List Byte)
  /-- CONFIG_IMAGE_READ_DONE (R368): The configuration image has been read; it is accepted or rejected, and its register writes and egress program are applied. -/
  | configImageReadDone (image : List Byte)
  /-- CONFIG_IMAGE_APPLIED (R369): PRIME ends: the controller enters SOLE or COMPAT and decodes its BARs. -/
  | configImageApplied
  /-- PCIE_HOT_RESET (R372): A PCI Express hot reset causes a warm reset of the host side. -/
  | pcieHotReset
  /-- PCIE_LINK_DOWN (R372): The PCI Express link goes down, causing a warm reset. -/
  | pcieLinkDown
  /-- PF_FUNCTION_LEVEL_RESET (R372): A Function Level Reset of the physical function causes a warm reset. -/
  | pfFunctionLevelReset
  /-- SEQUENCER_WATCHDOG (R371): Firmware has not served the sequencer watchdog for 100 ms, and the controller resets through PRIME. -/
  | sequencerWatchdog
  /-- LATH_PARITY_ERROR (R11): A lath receiver finds a flit parity error, discards the flit and requests a replay. -/
  | lathParityError (block : BitVec 8) (replays : Nat) (recovered : Bool)
  /-- VF_ENABLE_SET (R14): The manager sets VF Enable: virtual functions become instances, and SOLE becomes SHARED. -/
  | vfEnableSet
  /-- VF_ENABLE_CLEAR (R327): The manager clears VF Enable: every tenant is quiesced, wiped, has its shares returned and becomes DISABLED. -/
  | vfEnableClear
  /-- NUMVFS_WRITE (R402): A NumVFs write is taken, or ignored when above 63 or while VF Enable is 1. -/
  | numvfsWrite (v : Nat)
  /-- FUNCTION_D3HOT (R125): A function enters D3hot, so no memory writes or messages are issued for its instance. -/
  | functionD3hot (fn : InstNo)
  /-- FUNCTION_D0 (R125): A function returns to D0: waiting data and events are written, due messages are sent, and STANDBY is left for the PF. -/
  | functionD0 (fn : InstNo)
  /-- BUS_MASTER_ENABLE_WRITE (R125): Bus Master Enable is cleared or set, holding or releasing the instance's host writes and messages. -/
  | busMasterEnableWrite (fn : InstNo) (v : Bool)
  /-- VF_FUNCTION_LEVEL_RESET (R325): Tenant software initiates a Function Level Reset; host writes stop and INSTANCE_NOTICE reason 2 is posted. -/
  | vfFunctionLevelReset (i : InstNo)
  /-- FLR_WIPE (R325): After any running save or restore has completed, the tenant's work is stopped and its state is wiped with its shares kept. -/
  | flrWipe (i : InstNo)
  /-- SHEDDING_STEP_ENGAGE (R378): A shedding cause holds past its filter and the next ladder step engages with its action. -/
  | sheddingStepEngage (sens : Sensors)
  /-- SHEDDING_STEP_RETRACE (R377): A step's causes have been absent, with rails at their retrace levels, for 10 ms and the step retraces. -/
  | sheddingStepRetrace (sens : Sensors)
  /-- EGRESS_N_ASSERT (R380): EGRESS_N has been low for 1 ms and the egress override takes force. -/
  | egressNAssert
  /-- EGRESS_N_DEASSERT (R383): EGRESS_N has been high for 100 ms: power holds are released, and endpoints over threshold halt. -/
  | egressNDeassert
  /-- EGRESS_UNHALT_RETRY (R382): A failed egress clear-halt exchange is tried again 100 ms after it ended. -/
  | egressUnhaltRetry (ep : Nat)
  /-- RETAIN_WAKE (R376): In RETAIN a port's wake sense or EGRESS_N fires; WAKE_N is driven low and wake_cause is recorded. -/
  | retainWake (src : Option PortNo)
  /-- HOST_ACCESS_REFUSED (R114): A host memory access ends with Unsupported Request or Completer Abort: HOST_REFUSED malformed work of its owner. -/
  | hostAccessRefused (acc : HostAccess)
  /-- HOST_ACCESS_TIMEOUT (R114): A host memory access gets no completion within 50 ms: HOST_REFUSED malformed work. -/
  | hostAccessTimeout (acc : HostAccess)
  /-- CONTEXT_READ_COMPLETE (R102): A context cache miss read from the backing store completes; its ctx_crc is checked and an LRU victim is written back. -/
  | contextReadComplete (slot : Nat) (bytes : List Byte)
  /-- DOORBELL (R95): A 64-bit doorbell write is checked and records the target ring's tail, is discarded as stray, or is malformed. -/
  | doorbell (i : InstNo) (w : Word)
  /-- STRAY_DOORBELL_PAGE_WRITE (R93): Any other write to the doorbell page is discarded and counted in stray_writes. -/
  | strayDoorbellPageWrite (i : InstNo)
  /-- F_DOORBELL (R413): A 32-bit forerunner doorbell write in COMPAT is handled as the native doorbell. -/
  | fDoorbell (w : BitVec 32)
  /-- COMMAND_FETCH (R149): The ring engine fetches a command entry in ring order, reserves its event slot and checks it. -/
  | commandFetch (i : InstNo) (entry : CEntry)
  /-- TRANSFER_ENTRY_TAKE (R118): The controller takes a due transfer entry when ring credit and item quota allow, reserving its event slot. -/
  | transferEntryTake (ep : Nat) (entry : TEntry) (ecc : Ecc)
  /-- INDEX_MIRROR_WRITE (R113): The event ring's index mirror is written to host memory after the entries it covers, within 10 µs. -/
  | indexMirrorWrite (i : InstNo) (e : RingNo)
  /-- MODERATION_INTERVAL_EXPIRY (R123): mod_interval µs pass since the first counted event and the ring's MSI-X message is sent. -/
  | moderationIntervalExpiry (i : InstNo) (e : RingNo)
  /-- MSIX_VECTOR_UNMASK (R122): A masked vector is unmasked and its pending message is sent. -/
  | msixVectorUnmask (i : InstNo) (v : Fin 64)
  /-- L1_EXIT_COMPLETE (R124): The link reaches L0 after an L1 exit begun for a due message, and the message is sent. -/
  | l1ExitComplete
  /-- EVENT_RING_HEAD_WRITE (R130): Software writes RNG_EVT_HEAD, freeing slots; a write moving head past tail is ignored and counted. -/
  | eventRingHeadWrite (i : InstNo) (e : RingNo) (head : BitVec 16)
  /-- COMMAND_RING_ENABLE (R128): Setting enable in RNG_CMD_CFG starts the command ring with head and tail 0, if its conditions hold. -/
  | commandRingEnable (i : InstNo)
  /-- COMMAND_RING_DISABLE (R128): Clearing enable in RNG_CMD_CFG stops the command ring, ignored while head differs from tail. -/
  | commandRingDisable (i : InstNo)
  /-- EVENT_RING_ENABLE (R130): Setting enable in RNG_EVT_CFG zeroes the ring indices and writes the mirror. -/
  | eventRingEnable (i : InstNo) (e : RingNo)
  /-- EVENT_RING_DISABLE (R130): Clearing enable in RNG_EVT_CFG, ignored while an open endpoint or the command ring needs the ring. -/
  | eventRingDisable (i : InstNo) (e : RingNo)
  /-- BACKING_STORE_LOCK (R132): An RNG_BSTORE write sets base and lock, handing the backing store to the controller. -/
  | backingStoreLock (w : Word)
  /-- REGISTER_WRITE (R7): A write to a register that has no behaviour of its own applies its access types. -/
  | registerWrite (i : InstNo) (off : Nat) (w : Word)
  /-- NOP (R149): NOP completes once every earlier command of the ring has completed. -/
  | nop (i : InstNo) (slot : BitVec 16)
  /-- ADMIT_DEVICE (R139): Reads the identity of the one device at the default address into record 0. -/
  | admitDevice (i : InstNo) (slot : BitVec 16)
  /-- ASSIGN_ADDRESS (R139): With readdress 0, sends ADDR_SET and moves record 0 to the given zone address with route entries. -/
  | assignAddress (i : InstNo) (slot : BitVec 16)
  /-- ASSIGN_ADDRESS_READDRESS (R247): Checks the identity of a reset device and gives it back its recorded address, restarting its stopped endpoints. -/
  | assignAddressReaddress (i : InstNo) (slot : BitVec 16)
  /-- OPEN_ENDPOINT (R139): Writes a running endpoint context, books its periodic cost and phase, and returns svc_cost. -/
  | openEndpoint (i : InstNo) (slot : BitVec 16)
  /-- MODIFY_ENDPOINT (R139): Changes the endpoint fields selected by mask at a transaction or frame boundary. -/
  | modifyEndpoint (i : InstNo) (slot : BitVec 16)
  /-- CLOSE_ENDPOINT (R139): Ends the endpoint's transaction at a block boundary, completes the entry with STOPPED and closes the context. -/
  | closeEndpoint (i : InstNo) (slot : BitVec 16)
  /-- RESET_ENDPOINT (R139): Ends the entry in progress and resets both ends' sequence state by the clear-halt exchange. -/
  | resetEndpoint (i : InstNo) (slot : BitVec 16)
  /-- HALT_CLEAR (R54): Clears an endpoint halt by EP_UNHALT and resets its sequence state and counts. -/
  | haltClear (i : InstNo) (slot : BitVec 16)
  /-- SET_DEQUEUE (R139): Moves tr_head of a halted endpoint, skipping entries without events. -/
  | setDequeue (i : InstNo) (slot : BitVec 16)
  /-- RELEASE_DEVICE (R139): Closes a detached device's contexts, clears its map entry and frees its address and record. -/
  | releaseDevice (i : InstNo) (slot : BitVec 16)
  /-- PORT_CONTROL_POWER_ON (R141): Orders a root port powered on; completes when it leaves POWERING. -/
  | portControlPowerOn (i : InstNo) (slot : RankedSlot)
  /-- PORT_CONTROL_POWER_OFF (R221): Orders a root port powered off, aborting its entries, unless refused under R79. -/
  | portControlPowerOff (i : InstNo) (slot : RankedSlot)
  /-- PORT_CONTROL_RESET (R141): Orders a root port reset; completes when reset recovery ends or the port enters EMPTY. -/
  | portControlReset (i : InstNo) (slot : RankedSlot)
  /-- PORT_CONTROL_SUSPEND (R70): Orders an ENABLED root port to suspend at the end of the subframe. -/
  | portControlSuspend (i : InstNo) (slot : RankedSlot)
  /-- PORT_CONTROL_RESUME (R71): Orders a suspending or suspended root port to resume. -/
  | portControlResume (i : InstNo) (slot : RankedSlot) (idleUs : Nat)
  /-- PORT_CONTROL_DISABLE (R141): Disables an ENABLED root port with disable_cause ordered. -/
  | portControlDisable (i : InstNo) (slot : RankedSlot)
  /-- PORT_CONTROL_DEVICE_RESET (R142): With scope 1, resets the downstream port above a device, leaving it at address 0 awaiting re-addressing. -/
  | portControlDeviceReset (i : InstNo) (slot : RankedSlot)
  /-- TREE_POWER_SUSPEND (R254): Suspends the branch below hub ports with HPORT_ACT SUSPEND. -/
  | treePowerSuspend (i : InstNo) (slot : RankedSlot)
  /-- TREE_POWER_RESUME (R254): Resumes the branch below hub ports with HPORT_ACT RESUME. -/
  | treePowerResume (i : InstNo) (slot : RankedSlot)
  /-- TREE_POWER_POWER_OFF (R221): Powers off the branch below hub ports, aborting its entries and detaching its devices. -/
  | treePowerPowerOff (i : InstNo) (slot : RankedSlot)
  /-- TREE_POWER_POWER_ON (R254): Powers on hub ports, whose positions then enumerate as newly attached. -/
  | treePowerPowerOn (i : InstNo) (slot : RankedSlot)
  /-- STENCIL_LOAD (R145): Copies instructions from host memory into the issuer's stencil store allotment. -/
  | stencilLoad (i : InstNo) (slot : BitVec 16)
  /-- GATE_CREATE (R145): Takes the lowest free gate within quota, sets its count and reserves a task item if asked. -/
  | gateCreate (i : InstNo) (slot : BitVec 16)
  /-- GATE_CANCEL (R301): Frees a gate, withdrawing its task item and any armed commit as its state dictates. -/
  | gateCancel (i : InstNo) (slot : CancelSlot)
  /-- COMMIT_ARM (R145): Reads the slot list, binds the listed periodic OUT endpoints to a gate and arms a commit. -/
  | commitArm (i : InstNo) (slot : BitVec 16)
  /-- COUNTER_GRANT_MANAGER (R350): The manager sets which of an instance's counters its user code may read. -/
  | counterGrantManager (i : InstNo) (slot : BitVec 16)
  /-- COUNTER_GRANT_TENANT (R350): An instance enables or disables user-space reads of its own allowed counters. -/
  | counterGrantTenant (i : InstNo) (slot : BitVec 16)
  /-- SET_SHARE (R148): Sets an instance's weight, endpoint range, gate and flow quotas and stencil allotment at once. -/
  | setShare (i : InstNo) (slot : BitVec 16)
  /-- SET_RESERVATION (R172): Sets an instance's periodic reservation on a port. -/
  | setReservation (i : InstNo) (slot : BitVec 16)
  /-- ASSIGN_DEVICE (R148): Gives a device to an instance or takes it back, writing the map and posting ASSIGNED or WITHDRAWN. -/
  | assignDevice (i : InstNo) (slot : BitVec 16)
  /-- HAWK_QUOTA (R226): Sets an instance's hawk unit and region quota. -/
  | hawkQuota (i : InstNo) (slot : BitVec 16)
  /-- QUIESCE_INSTANCE (R319): Starts a quiesce of a tenant, with or without abort at a block boundary. -/
  | quiesceInstance (i : InstNo) (slot : BitVec 16)
  /-- QUIESCE_COMPLETE (R321): Every row of the quiesce has been carried out and the instance becomes QUIESCED. -/
  | quiesceComplete (i : InstNo)
  /-- RESUME_INSTANCE (R148): Returns a quiesced or restored instance to running. -/
  | resumeInstance (i : InstNo) (slot : BitVec 16)
  /-- RESET_INSTANCE (R322): Wipes everything the instance created once its trowel slots are freed, leaving it QUIESCED and fresh. -/
  | resetInstance (i : InstNo) (slot : BitVec 16)
  /-- SAVE_INSTANCE (R333): Writes the sealed image of a quiesced instance to the manager's memory. -/
  | saveInstance (i : InstNo) (slot : BitVec 16)
  /-- RESTORE_INSTANCE (R335): Proves the image seal twice and loads it into a fresh quiesced instance. -/
  | restoreInstance (i : InstNo) (slot : BitVec 16)
  /-- DIRTY_LOG_START (R329): Starts logging the instance's controller writes into a bitmap. -/
  | dirtyLogStart (i : InstNo) (slot : BitVec 16)
  /-- DIRTY_LOG_SYNC (R329): Completes the active bitmap up to the sync and switches to the named bitmap. -/
  | dirtyLogSync (i : InstNo) (slot : BitVec 16)
  /-- DIRTY_LOG_STOP (R329): Completes the active bitmap and ends logging. -/
  | dirtyLogStop (i : InstNo) (slot : BitVec 16)
  /-- SET_SPLIT (R20): Requests a hardware or host-assisted mode for a movable function, effective at the next frame boundary. -/
  | setSplit (i : InstNo) (slot : BitVec 16)
  /-- SET_SPLIT_TAKE_EFFECT (R258): At the frame boundary the new split mode takes over, with taken work finishing in the old mode. -/
  | setSplitTakeEffect
  /-- EGRESS_PROGRAM (R381): Loads the egress program, replacing the old one and setting egress_port. -/
  | egressProgram (i : InstNo) (slot : BitVec 16)
  /-- FIRMWARE_STAGE (R370): Checks a signed image and writes it to the inactive flash slot. -/
  | firmwareStage (i : InstNo) (slot : BitVec 16)
  /-- FIRMWARE_ACTIVATE (R370): Sets trial to the staged slot for the next PRIME. -/
  | firmwareActivate (i : InstNo) (slot : BitVec 16)
  /-- FIRMWARE_DISCARD (R370): Sets trial to none so the staged image is never booted. -/
  | firmwareDiscard (i : InstNo) (slot : BitVec 16)
  /-- LIFECYCLE (R385): Checks the authorisation record, posts the event, erases keys and state, and resets through PRIME into the new life-cycle state. -/
  | lifecycle (i : InstNo) (slot : BitVec 16)
  /-- SUBFRAME_TICK (R26): The frame timer ticks a subframe to all ports and blocks; skims start and list builds begin. -/
  | subframeTick
  /-- PLANNER_CUTOFF (R163): 20 µs before tick N the list is sorted, budgeted, pinned and fixed, and commits are evaluated. -/
  | plannerCutoff
  /-- COMMIT_MISSED (R192): At the release tick, a commit not released posts its COMMIT event with MISSED_SERVICE. -/
  | commitMissed (c : Fin 256)
  /-- FRAME_LIST_READ_COMPLETE (R183): A frame-list link word or descriptor run read completes and the walk lists its endpoints. -/
  | frameListReadComplete (i : InstNo) (rd : ListRead)
  /-- RESERVATION_CONVERSION (R175): At the first tick after a speed change, costs are recomputed and reservations and bookings converted. -/
  | reservationConversion (p : PortNo)
  /-- PERIODIC_IN_ROUND (R48): The holder starts a periodic IN service: a POLL awaiting one DATA block. -/
  | periodicInRound (p : PortNo) (now : Nat)
  /-- PERIODIC_OUT_ROUND (R50): The holder sends a periodic OUT block from the entry, commit slot or egress payload. -/
  | periodicOutRound (p : PortNo) (now : Nat) (ecc : Ecc)
  /-- BULK_PICK (R187): The port's deficit round-robin arbiter picks the next bulk or control round. -/
  | bulkPick (p : PortNo) (now : Nat)
  /-- TROWEL_TAKE_WORK (R210): A trowel with a free slot takes its port's queue head or levels. -/
  | trowelTakeWork (k : TrowelNo)
  /-- STAGING_COMPLETE (R204): OUT data has been read from host memory into the hawk. -/
  | stagingComplete (txn : Nat) (data : List Byte) (ecc : Ecc)
  /-- BULK_IN_ROUND (R40): A bulk or control IN round starts: a POLL sized by R40. -/
  | bulkInRound (p : PortNo) (now : Nat)
  /-- BULK_OUT_BURST (R41): A bulk OUT burst starts with PUSH and the blocks that fit. -/
  | bulkOutBurst (p : PortNo) (now : Nat)
  /-- OUT_SEGMENT_CONTINUE (R41): At a later service opportunity, the next segment of an open OUT burst is sent. -/
  | outSegmentContinue (p : PortNo) (now : Nat)
  /-- CONTROL_SETUP_STAGE (R52): A control transfer's SETUP and 8-byte setup block are sent. -/
  | controlSetupStage (p : PortNo) (now : Nat)
  /-- CONTROL_DATA_STAGE (R52): A round of a control transfer's data stage runs. -/
  | controlDataStage (p : PortNo) (now : Nat)
  /-- CONTROL_STATUS_STAGE (R52): A control transfer's status stage runs. -/
  | controlStatusStage (p : PortNo) (now : Nat)
  /-- DATA_BLOCK_RECEIVED (R37): A DATA block arrives whole and is checked, then accepted, discarded as a duplicate, or judged corrupt. -/
  | dataBlockReceived (p : PortNo) (pkt : List Byte) (now : Nat)
  /-- ACK_RECEIVED (R38): An ACK arrives and acknowledges blocks or makes the round CORRUPT. -/
  | ackReceived (p : PortNo) (pkt : List Byte) (now : Nat)
  /-- STALL_RECEIVED (R53): A valid STALL ends the round and halts the endpoint or ends the control transfer. -/
  | stallReceived (p : PortNo) (pkt : List Byte) (now : Nat)
  /-- TURNAROUND_TIMEOUT (R42): No response begins within the turnaround timeout and the round ends in SILENCE. -/
  | turnaroundTimeout (p : PortNo) (now : Nat)
  /-- BABBLE_DETECTED (R46): An oversized length or a packet in the post-burst gap ends the round in BABBLE and halts the endpoint. -/
  | babbleDetected (p : PortNo) (now : Nat)
  /-- LINE_ACTIVE_TOO_LONG (R46): A device keeps the line active for more than 541 byte-times and the root port is disabled. -/
  | lineActiveTooLong (p : PortNo)
  /-- STRAY_PACKET (R47): A packet arrives while no response is awaited and is discarded and counted. -/
  | strayPacket (p : PortNo)
  /-- SILENCE_BACKOFF_EXPIRY (R45): A silent bulk or control endpoint's backoff ends and it becomes ready again. -/
  | silenceBackoffExpiry (who : Holder)
  /-- RECOVERY_BACKOFF_EXPIRY (R19): In hardware error-recovery mode, recover_ms passes and the controller clears the halt by R54. -/
  | recoveryBackoffExpiry (ep : Nat)
  /-- TRANSACTION_DELIVERY_DONE (R204): IN data and the event have been written to the host and the trowel slot is released. -/
  | transactionDeliveryDone (d : Nat)
  /-- LINE_STATE_CHANGE (R60): The released line's classification changes, starting or abandoning attach debounce. -/
  | lineStateChange (p : PortNo) (line : Line)
  /-- ATTACH_DEBOUNCE_DONE (R62): REST-P or REST-N held for 100 ms: attach is declared and the port becomes ATTACHED. -/
  | attachDebounceDone (p : PortNo)
  /-- PRESENCE_WINDOW (R63): The 2 µs presence window before subframe 0 samples the line; two LOW windows declare detach. -/
  | presenceWindow (p : PortNo) (low : Bool)
  /-- DETACH_LOW_TIMEOUT (R64): A non-enabled port sees the released line LOW for 2 ms and declares detach. -/
  | detachLowTimeout (p : PortNo)
  /-- RESET_LOW_END (R65): After 10 ms of LOW the line is released and the speed is chosen from the pull-up. -/
  | resetLowEnd (p : PortLine)
  /-- CHIRP_REPLY_RECEIVED (R66): The device's chirp reply ends and both ends switch to Express and train. -/
  | chirpReplyReceived (p : PortNo)
  /-- CHIRP_REPLY_TIMEOUT (R67): No chirp reply by instant 5; the port becomes ENABLED at Standard. -/
  | chirpReplyTimeout (p : PortNo)
  /-- TRAINING_LOCK (R66): The controller locks on the device's training and sends TRAIN_DONE. -/
  | trainingLock (p : PortNo)
  /-- TRAINING_LOCK_FAIL (R67): No lock by the end of the device's training; the line is released for 1 ms and fallback follows. -/
  | trainingLockFail (p : PortNo)
  /-- TRAIN_DONE_ECHO (R66): The device echoes TRAIN_DONE and the port becomes ENABLED at Express. -/
  | trainDoneEcho (p : PortNo)
  /-- TRAIN_DONE_ECHO_TIMEOUT (R67): The echo is missing or corrupt after 2 µs; the line is released for 1 ms and fallback follows. -/
  | trainDoneEchoTimeout (p : PortNo)
  /-- FALLBACK_RELEASE_END (R67): The 1 ms fallback release ends and the port is ENABLED at Standard, counting train_fails. -/
  | fallbackReleaseEnd (p : PortNo)
  /-- RESET_RECOVERY_END (R66): 20 ms after reset start, recovery ends and the port becomes usable for tokens. -/
  | resetRecoveryEnd (p : PortNo)
  /-- DOWNSHIFT (R68): A port at Express sends DOWNSHIFT after its last round and runs at Standard from the next tick. -/
  | downshift (p : PortNo)
  /-- SUSPEND_ENTER (R70): At the end of the subframe of a pending suspend, the port enters SUSPENDING. -/
  | suspendEnter (p : PortNo)
  /-- SUSPEND_IDLE_DONE (R70): The line has been idle 3 ms and the port enters SUSPENDED. -/
  | suspendIdleDone (p : PortNo)
  /-- RESUME_WAKE_END (R71): After 20 ms of WAKE the controller drives LOW for 1 µs. -/
  | resumeWakeEnd (p : PortNo)
  /-- RESUME_LOW_END (R71): The end-of-resume LOW ends, the line is released and the port is ENABLED. -/
  | resumeLowEnd (p : PortWait)
  /-- REMOTE_WAKE_RECOGNISED (R73): WAKE held 200 µs on a suspended port with wake_en sets wake_chg. -/
  | remoteWakeRecognised (p : PortNo)
  /-- REMOTE_WAKE_RESUME_START (R73): 100 µs after the line returns to REST, or 2.5 ms after WAKE began, the host resume begins. -/
  | remoteWakeResumeStart (p : PortNo)
  /-- PORT_BLANKING_END (R76): After fault_blank ms the port enters EMPTY and watches for attach and faults. -/
  | portBlankingEnd (p : PortNo)
  /-- PORT_POWER_FAULT (R77): PPWR_FLT_N low for 10 µs: PPWR_EN drops, the port faults and its tree detaches. -/
  | portPowerFault (p : PortLevel)
  /-- PORT_POWER_RETRY (R78): After the retry gap (or 100 ms under egress), a faulted port powers on again by itself. -/
  | portPowerRetry (p : PortNo)
  /-- BABBLE_AUTO_RESET (R83): 100 ms after a babble disable in hardware enumeration, the controller resets the port. -/
  | babbleAutoReset (p : PortNo)
  /-- PRT_CHANGE_CLEAR (R87): The manager clears PRT_CHANGE bits by W1C, rearming the PORT_STATUS event. -/
  | prtChangeClear (p : PortNo) (w : Word)
  /-- TROWEL_OOS_REQUEST (R215): A write setting oos_req drains the trowel, or is refused if a port would lose its holder. -/
  | trowelOosRequest (k : TrowelNo)
  /-- TROWEL_RETURN_REQUEST (R219): A write clearing oos_req starts the trowel's oscillator and self-check. -/
  | trowelReturnRequest (k : TrowelNo)
  /-- TROWEL_DRAIN_COMPLETE (R215): A draining trowel's slots are free and the island is gated off. -/
  | trowelDrainComplete (k : TrowelNo)
  /-- TROWEL_SELF_CHECK_END (R219): The 10 µs self-check ends and the trowel takes work again, or stays faulted. -/
  | trowelSelfCheckEnd (k : TrowelNo) (pass : Bool)
  /-- TROWEL_FAULT (R218): Parity or the 100 µs watchdog fails in a trowel: it goes out of service, or the controller resets if it holds a skim. -/
  | trowelFault (k : TrowelNo) (watchdog : Bool)
  /-- SNAG_LOG_FLUSH (R392): Buffered snag-log entries are written to the flash log while the SPI pins are the controller's. -/
  | snagLogFlush
  /-- HAWK_SCRUB_READ (R225): The scrubber reads a hawk word, correcting single-bit errors and recording uncorrectable ones. -/
  | hawkScrubRead (ecc : Ecc)
  /-- HWK_REGION_WRITE (R228): A region descriptor write is applied or rejected and counted in carve_rejects. -/
  | hwkRegionWrite (i : InstNo) (d : Nat) (w : Word)
  /-- HUB_PORT_QUERY (R248): A hub status poll with bits set leads the controller to read HPORT_QUERY and act on the change bits. -/
  | hubPortQuery (hub hport : Nat)
  /-- CONTROLLER_CONTROL_TRANSFER_END (R444): One of the controller's own control transfers ends, advancing enumeration, hub management, power or clear-halt. -/
  | controllerControlTransferEnd (id : Nat)
  /-- ENUMERATION_START (R244): In hardware mode, the next waiting position with a free pool address is reset for enumeration. -/
  | enumerationStart
  /-- HUB_RESET_WAIT_END (R244): 20 ms after a hub port reset request, the controller reads HPORT_QUERY and continues enumeration. -/
  | hubResetWaitEnd
  /-- ENUM_RETRY (R245): 1 s after a first enumeration failure, the position is enumerated again. -/
  | enumRetry (pos : Pos)
  /-- READDRESS_TIMEOUT (R247): A device awaiting re-addressing shows no attach within 1 s and is detached with cause 6. -/
  | readdressTimeout (zone : Nat)
  /-- TREE_IDLE_EXPIRY (R256): In hardware tree-power mode, a branch idle for idle_ms is suspended. -/
  | treeIdleExpiry (pos : Pos)
  /-- STENCIL_START (R264): A write of start moves an IDLE channel to PENDING, or is counted as ignored. -/
  | stencilStart (i : InstNo) (c : ChanNo)
  /-- STENCIL_BEGIN (R264): A PENDING channel with ring credit, ungated and served, reserves its slot and begins. -/
  | stencilBegin (c : ChanNo)
  /-- PARAM_BLOCK_READ_DONE (R265): The channel's parameter block read completes, is checked, and execution starts at word 0. -/
  | paramBlockReadDone (c : ChanNo) (bytes : List Byte)
  /-- STENCIL_STOP (R281): The owner's stop ends a channel at the burst end and posts STOPPED_OWNER. -/
  | stencilStop (i : InstNo) (c : ChanNo)
  /-- STENCIL_MANAGER_STOP (R281): The manager's stop in STN_OWNER ends a channel and posts STOPPED_MANAGER. -/
  | stencilManagerStop (c : ChanNo)
  /-- STN_OWNER_WRITE (R262): The manager changes an IDLE channel's owner, resetting its registers. -/
  | stnOwnerWrite (c : ChanNo) (w : Word)
  /-- STN_COUNT_WRITE (R277): Software writes a count register, discarding any decrement in the same cycle. -/
  | stnCountWrite (i : InstNo) (c : ChanNo) (w : CountWrite)
  /-- STENCIL_MOVE (R268): MOVE copies len bytes between pointers in bursts. -/
  | stencilMove (c : ChanNo) (row : StnRow) (src : List Byte) (ecc : Ecc)
  /-- STENCIL_FILL (R269): FILL writes reps copies of a constant. -/
  | stencilFill (c : ChanNo) (row : StnRow)
  /-- STENCIL_CMP (R270): CMP compares two areas and sets or accumulates the flag. -/
  | stencilCmp (c : ChanNo) (row : StnRow) (a b : List Byte) (ecc : Ecc)
  /-- STENCIL_LOOP (R271): LOOP counts a loop counter and branches back. -/
  | stencilLoop (c : ChanNo) (line : List Byte)
  /-- STENCIL_WAIT (R272): WAIT puts the channel in WAITING on a tick, gate or channel. -/
  | stencilWait (c : ChanNo) (line : List Byte)
  /-- STENCIL_WAIT_SATISFIED (R272): The WAIT condition holds; the flag clears and execution continues. -/
  | stencilWaitSatisfied (c : ChanNo)
  /-- STENCIL_WAIT_TIMEOUT (R272): The WAIT timeout passes first; the flag sets and execution continues. -/
  | stencilWaitTimeout (c : ChanNo)
  /-- STENCIL_SIGNAL (R273): SIGNAL performs POST, COUNT, IRQ and GATE actions in one cycle after earlier writes complete. -/
  | stencilSignal (c : ChanNo) (line : List Byte)
  /-- STENCIL_JUMP (R274): JUMP branches always or on the flag. -/
  | stencilJump (c : ChanNo) (line : List Byte)
  /-- STENCIL_END (R274): END ends the program, posting END unless quiet, and the channel returns to IDLE. -/
  | stencilEnd (c : ChanNo) (line : List Byte)
  /-- DISPATCH_DELIVER (R294): In a DISPATCH cycle, one group's head item is placed on its least-loaded queue and a DISPATCH event is posted. -/
  | dispatchDeliver
  /-- DSP_RELEASE (R297): A core releases an item, reducing depth, freeing the entry and unparking the flow's next item. -/
  | dspRelease (i : InstNo) (w : Word)
  /-- DSP_GROUP_WRITE (R292): The manager sets a group's owner, ignored while it has work. -/
  | dspGroupWrite (g : GroupNo) (w : Word)
  /-- DSP_QMAP_WRITE (R292): The manager maps a queue to a group and owner, ignored if inconsistent or busy. -/
  | dspQmapWrite (q : QueueNo) (w : Word)
  /-- DSP_QCFG_WRITE (R293): The queue owner configures enable, weight, depth_max and event routing. -/
  | dspQcfgWrite (i : InstNo) (q : QueueNo) (w : Word)
  /-- DSP_TRACE_ENABLE (R303): Setting trace enable zeroes the trace indices and starts tracing. -/
  | dspTraceEnable (w : Word)
  /-- DSP_TRACE_HEAD_WRITE (R305): The manager consumes trace records; returning space writes a LOST record. -/
  | dspTraceHeadWrite (w : Word)
  /-- DSP_STATS_WINDOW_END (R306): At each statistics window end, every DSP_CORE's windowed fields are replaced at once. -/
  | dspStatsWindowEnd
  /-- CNT_VAL_WRITE (R346): A write sets a counter's count and ovf, discarding that cycle's increments. -/
  | cntValWrite (set : CtrSet) (j : Fin 8) (w : CountWrite)
  /-- CNT_SEL_WRITE (R346): A write changes a counter's selection from the next cycle. -/
  | cntSelWrite (set : CtrSet) (j : Fin 8) (w : Word)
  /-- COUNTER_SAMPLE_CLEAR (R356): Clearing valid in the sample register lets a new sample be taken. -/
  | counterSampleClear (set : CtrSet) (w : Word)
  /-- MTR_CFG_WRITE (R352): Enabling the meters discards the window in progress and starts a new one at the next frame. -/
  | mtrCfgWrite (w : Word)
  /-- MTR_WINDOW_END (R352): At the end of a meter window, every MTR_PORT is replaced and seq advances. -/
  | mtrWindowEnd
  /-- SNG_INDEX_WRITE (R399): Writing SNG_INDEX selects the snag-log entry that SNG_ENTRY reads. -/
  | sngIndexWrite (w : Word)
  /-- SMBUS_HEALTH (R394): The board management controller reads the HEALTH block. -/
  | smbusHealth
  /-- SMBUS_SNAG_RANGE (R394): Returns the oldest and newest snag-log sseq held. -/
  | smbusSnagRange
  /-- SMBUS_SNAG_ENTRY (R394): Returns the snag-log entry with the written sseq. -/
  | smbusSnagEntry (sseq : BitVec 32)
  /-- SMBUS_PORT_OFF (R395): A board management controller power-off request for a port, carried out or refused. -/
  | smbusPortOff (port : BitVec 8) (outranked : Bool)
  /-- SMBUS_REQ_RESULT (R395): Returns the result of the last PORT_OFF or RESET request. -/
  | smbusReqResult
  /-- SMBUS_RESET (R395): A RESET request resets through PRIME when permitted, otherwise it is invalid. -/
  | smbusReset (data : BitVec 8)
  /-- SMBUS_CLOCK_LOW_TIMEOUT (R433): SMB_CLK held low for 25 ms; the target releases the bus and discards the transaction. -/
  | smbusClockLowTimeout
  /-- TAP_INSTRUCTION (R389): A JTAG instruction is accepted according to the life-cycle state, or BYPASS is selected. -/
  | tapInstruction (ins : TapInstr)
  /-- TAP_RESET (R434): TRST_N low for 100 ns resets the TAP. -/
  | tapReset
  /-- MAIN_SUPPLIES_VALID (R423): Every main rail has stood at or above its valid threshold for 100 ms, so PRIME may begin again with PERST_N released. -/
  | mainSuppliesValid
  /-- FIRST_TOKEN_AFTER_RESUME (R71): 1 ms after the end of a resume the port may carry tokens other than SOSF and becomes usable for bulk and control picks. -/
  | firstTokenAfterResume (p : PortNo)
  /-- HUB_BRANCH_USABLE (R254): 1 ms after HPORT_QUERY shows a hub-port resume complete, the branch becomes usable and waiting transactions and commands to it may start. -/
  | hubBranchUsable (hub hport : Nat)
  /-- CORRUPT_PACKET_RECEIVED (R34): A packet whose PID check fails or whose type is reserved or not awaited arrives where a response is awaited and ends the wait as a CORRUPT response. -/
  | corruptPacketReceived (p : PortNo) (pkt : List Byte) (now : Nat)
  /-- FLASH_WRITE_COMPLETE (R370): The flash programming and read-back of a staged firmware image ends, and FIRMWARE_STAGE completes or is recorded as failed. -/
  | flashWriteComplete (ok : Bool)
  /-- COMMAND_HOST_READ_COMPLETE (R145): A host read made for a command, such as a slot list, stencil load, egress program, authorisation record or instance image, completes and the command continues. -/
  | commandHostReadComplete (i : InstNo) (slot : BitVec 16) (data : List Byte)
  /-- ASPM_L1_ENTRY (R124): The link enters ASPM L1 or an L1 substate when no message is queued, and CLKREQ_N may be deasserted in L1.1 and L1.2. -/
  | aspmL1Entry (sub : L1State)
  deriving DecidableEq, Repr

end Sys2Proof
end

