-- ==== Sys2Proof/Decode.lean ====
section
/-!
DEFINITION. The block has no encodings: its commands are events, bus accesses and register writes, and no
row of the opcode table gives a bit field. A word therefore spells no command.
-/
namespace Sys2Proof

/-- No row of the opcode table has bits, so no word spells a command. -/
def decodeTableWord (_nbits _w : Nat) : Option Instr := none

end Sys2Proof
end

