-- ==== Sys2Proof/Machine/Bits.lean ====
section
/-!
DEFINITION. Bit fields, little-endian bytes (R6), fixed tables, keyed maps, and a byte memory in canonical
form (addresses strictly rising, no byte listed that an unlisted address would read, which is 0).
-/
namespace Sys2Proof.Machine

/-! ### Fields and bytes -/

/-- The number in bits [hi:lo] of a word. -/
def fld {n : Nat} (x : BitVec n) (hi lo : Nat) : Nat := (x.toNat >>> lo) % 2 ^ (hi + 1 - lo)

/-- Bit k of a word. -/
def bitOf {n : Nat} (x : BitVec n) (k : Nat) : Bool := x.getLsbD k

/-- Fields (lowest bit, width, value) put together; each value is cut to its width. -/
def pack : List (Nat × Nat × Nat) → Nat
  | [] => 0
  | (lo, w, v) :: l => (v % 2 ^ w) <<< lo + pack l

/-- 1 or 0. -/
def b2n (b : Bool) : Nat := if b then 1 else 0

/-- The number that bytes hold, byte 0 lowest (R6). -/
def leNat : List Byte → Nat
  | [] => 0
  | b :: l => b.toNat + 256 * leNat l

/-- The `k` low bytes of a number, byte 0 first (R6). -/
def leBytes : (k n : Nat) → List Byte
  | 0, _ => []
  | k + 1, n => BitVec.ofNat 8 n :: leBytes k (n / 256)

/-- Bytes `off` to `off + len − 1` of a block. -/
def bytesAt (l : List Byte) (off len : Nat) : List Byte := (l.drop off).take len

/-- The number in bytes `off` to `off + len − 1` (R6). -/
def numAt (l : List Byte) (off len : Nat) : Nat := leNat (bytesAt l off len)

/-- Every byte is 0. -/
def allZero (l : List Byte) : Bool := l.all (· == 0)

/-- A count raised by 1 and held at its greatest value. -/
def satInc {n : Nat} (x : BitVec n) : BitVec n := if x = BitVec.allOnes n then x else x + 1

/-- A count raised by `k` and held at its greatest value. -/
def satAdd {n : Nat} (x : BitVec n) (k : Nat) : BitVec n :=
  if x.toNat + k < 2 ^ n then BitVec.ofNat n (x.toNat + k) else BitVec.allOnes n

/-! ### Tables and maps -/

/-- Entry `i` of a table. -/
def vget {α : Type} {n : Nat} (v : Tab α n) (i : Fin n) : α := v[i]

/-- A table with entry `i` replaced. -/
def vset {α : Type} {n : Nat} (v : Tab α n) (i : Fin n) (x : α) : Tab α n := v.set i.val x i.isLt

/-- The value at a key. -/
def kget {α : Type} : KMap α → Nat → Option α
  | [], _ => none
  | (j, y) :: m, k => if j = k then some y else kget m k

/-- A map with the value at a key set, keys rising. -/
def kset {α : Type} : KMap α → Nat → α → KMap α
  | [], k, x => [(k, x)]
  | (j, y) :: m, k, x =>
    if k < j then (k, x) :: (j, y) :: m
    else if k = j then (k, x) :: m
    else (j, y) :: kset m k x

/-- A map without a key. -/
def kdel {α : Type} (m : KMap α) (k : Nat) : KMap α := m.filter (fun e => e.1 != k)

/-- A map with the value at a key, if any, changed. -/
def kupd {α : Type} (m : KMap α) (k : Nat) (f : α → α) : KMap α :=
  m.map (fun e => if e.1 = k then (e.1, f e.2) else e)

/-- The smallest of `0 … n − 1` that is no key of the map. -/
def kfree {α : Type} (m : KMap α) (n : Nat) : Option Nat :=
  (List.range n).find? (fun k => (kget m k).isNone)

/-! ### Byte memories -/

/-- The byte at an address; an unlisted address reads 0 (R373) (DESIGN CHOICE, log 117). -/
def memRead (m : List Host.Cell) (a : Nat) : Byte := (kget m a).getD 0

/-- A byte written; writing 0 unlists the address. -/
def memWrite (m : List Host.Cell) (a : Nat) (b : Byte) : List Host.Cell :=
  if b = 0 then kdel m a else kset m a b

/-- Bytes written one after another: `addrs` and `bs` in step. -/
def memWriteAll : List Host.Cell → List (Nat × Byte) → List Host.Cell
  | m, [] => m
  | m, (a, b) :: l => memWriteAll (memWrite m a b) l

/-- The canonical form: addresses strictly rising, no listed byte 0. -/
def Memory.wf : List Host.Cell → Bool
  | [] => true
  | [(_, b)] => b != 0
  | (a, b) :: (a', b') :: m => b != 0 && decide (a < a') && Memory.wf ((a', b') :: m)

end Sys2Proof.Machine
end

