-- ==== Sys2Proof/Config.lean ====
section
/-!
DEFINITION. What an implementation fixes and the specification does not: constants of the part, the
cryptographic functions the specification names only by reference, and the free values. None of these
has a body, so nothing can be proved of their values.
-/
namespace Sys2Proof.Config

/-- DESIGN CHOICE (log 7). A value the specification leaves open, as a function of the model's counter. -/
opaque freeValue : Nat → Nat

/-- R339: the controller's serial number, fixed at manufacture (log 8). -/
opaque serial : BitVec 64

/-- R393, R420: the levels that the board gives SMB_ADDR1 and SMB_ADDR0 (log 8). -/
opaque smbStraps : BitVec 2

/-- R398: byte `k` of the device key's uncompressed public point (log 8). -/
opaque devPub : Nat → BitVec 8

/-- R365, R387: the four firmware key digests fused into the key store (log 8). -/
opaque fusedDigests : List (BitVec 384)

/-- R386, R387: the fused digest of Alarraut's authority key (log 8). -/
opaque authorityDigest : BitVec 384

/-- R365: SHA-384, named by reference (log 8). -/
opaque sha384 : List (BitVec 8) → BitVec 384

/-- R365: ECDSA P-384 verification of a signature (r then s) by an uncompressed public point over a digest. -/
opaque ecdsaVerify : List (BitVec 8) → BitVec 384 → List (BitVec 8) → Bool

/-- R386: the ECDSA check of an authorisation record's signature under Alarraut's authority key. -/
opaque authorityVerify : List (BitVec 8) → List (BitVec 8) → Bool

/-- R332: the image-sealing key that the key store derives from a site key. -/
opaque sealingKey : BitVec 256 → BitVec 256

/-- R332: AES-CMAC with AES-256 under a key. -/
opaque cmac : BitVec 256 → List (BitVec 8) → BitVec 128

/-- R386: unwraps the site key of a provisioning body with the device key; none when the unwrap fails. -/
opaque unwrapSiteKey : List (BitVec 8) → Option (BitVec 256)

/-- R400: Alarraut's vendor ID, which the specification does not give (log 83). -/
opaque vendorId : BitVec 16

/-- R401: a register of a function's configuration space that only the PCI Express Base Specification lays out (log 83). -/
opaque pciRegister : (function : Nat) → (off : Nat) → BitVec 32

/-- R330: the bytes of an image record, for a section type and the fields it holds, where the specification does
not give the record's layout. -/
opaque imageRecord : (type : Nat) → (fields : List Nat) → List (BitVec 8)

/-- R330: the fields that such a record holds, read back from its bytes. -/
opaque imageFields : (type : Nat) → (record : List (BitVec 8)) → List Nat

end Sys2Proof.Config
end

