-- ==== Sys2Proof/Machine/State.lean ====
section
/-!
DEFINITION. The state of the controller as plain data: every register, table, memory and working record
the specification gives it, the queue of waiting commands, and the state after reset.
-/
namespace Sys2Proof.Machine

/-- Why a step would stop the machine. No rule of the specification stops the block outright. -/
inductive Fault where
  /-- An access to a hawk address beyond the 16 MiB of R223. Raised by no meaning: every private offset is
  translated to one of the 32,768 physical units (R226). Safe. -/
  | hawkAddress (addr : Nat)
  deriving DecidableEq, Repr

/-- Why the model would give a command no meaning. -/
inductive Refusal where
  /-- The command has no meaning in the model yet. Raised only by an arm of exec that says so. Safe. -/
  | notModelled (mnemonic : String)
  deriving DecidableEq, Repr

/-! ### Modes and codes -/

/-- The operating modes (R13). -/
inductive Mode where
  | off | retain | prime | standby | sole | shared | compat | shed
  deriving DecidableEq, Repr

/-- The states of a root hub port (R81), in the order of their codes 0x0 to 0xC. -/
inductive PortState where
  | unpowered | powering | empty | attaching | attached | resetting | enabled
  | suspending | suspended | resuming | disabled | faulted | held
  deriving DecidableEq, Repr

/-- Line speed, coded as `speed` in PRT_STATUS (R86): 0b00, 0b01, 0b10, 0b11. -/
inductive Speed where
  | reach | standard | express | none
  deriving DecidableEq, Repr

/-- How far a port reset has come (R65 to R67). -/
inductive ResetPhase where
  | idle | low | chirp | training | echo | fallback
  deriving DecidableEq, Repr

/-- The first SOSF after a resume (R71): not awaited, at the next tick, the same with the Express training pattern before it, or at the
tick after the next. -/
inductive SosfHold where
  | none | plain | train | late
  deriving DecidableEq, Repr

/-- Instance states (R312), in the order of their codes 0x0 to 0x5. -/
inductive InstState where
  | disabled | running | quiescing | quiesced | frozen | halted
  deriving DecidableEq, Repr

/-- `op` of INS_STATE (R339), in the order of its codes 0x0 to 0x4. -/
inductive InstOp where
  | none | saving | restoring | resetting | flr
  deriving DecidableEq, Repr

/-- `ep_state` of an endpoint context (R101). -/
inductive EpState where
  | closed | running | halted | stopped | detached
  deriving DecidableEq, Repr

/-- `kind` of an endpoint context (R101). -/
inductive EpKind where
  | control | periodic | bulk
  deriving DecidableEq, Repr

/-- `dev_state` of a device record (R100). -/
inductive DevState where
  | free | atDefault | addressed | detached
  deriving DecidableEq, Repr

/-- The shared statuses (R137); the first thirteen belong to transfers, the rest to commands. -/
inductive Status where
  | success | short | silent | crcExhausted | stalled | babble | portReset | powerAbort | stopped
  | cancelled | quiesceAbort | detached | missedService
  | cmdOk | paramInvalid | notPermitted | notQuiesced | shareBelowReserved | busy | conflict
  | imageUnsealed | imageForeign | noResources | halted
  deriving DecidableEq, Repr

/-- `tstate` of a trowel (R232), in the order of its codes. -/
inductive TState where
  | inService | draining | outOfService | returning | gatedShed | faulted
  deriving DecidableEq, Repr

/-- Channel states (R263), in the order of their codes. -/
inductive CState where
  | idle | pending | running | waiting | paused
  deriving DecidableEq, Repr

/-- Life-cycle states (R384), in the order of their codes. -/
inductive LcState where
  | blank | provisioned | field | fieldOpen | return_ | scrapped
  deriving DecidableEq, Repr

/-- The movable functions (R19), in the order of SET_SPLIT's codes. -/
inductive SplitFn where
  | enumeration | hubManagement | schedule | recovery | treePower
  deriving DecidableEq, Repr

/-! ### What leaves the block -/

/-- What the controller drives on a port's line besides packets (R65 to R73). -/
inductive Drive where
  | low | release | chirp | training | trainDone | wake | downshift
  deriving DecidableEq, Repr

/-- An act of the block on its pins and buses. The list of them is the model's own record of what the
outside world sees, in order (log 6). -/
inductive Out where
  /-- A packet, in the framing of R59 for the speed. -/
  | packet (p : PortNo) (v : Speed) (bytes : List Byte)
  | drive (p : PortNo) (d : Drive)
  | ppwrEn (p : PortNo) (level : Bool)
  | hostWrite (i : InstNo) (addr : Nat) (bytes : List Byte)
  | hostRead (i : InstNo) (addr len : Nat)
  | msix (i : InstNo) (vector : Nat)
  | pme (i : InstNo)
  | wakeN (low : Bool)
  | clkreqN (low : Bool)
  | l1Exit
  | flash (off : Nat) (bytes : List Byte)
  | smbus (reply : List Byte)
  | smbusNack
  deriving DecidableEq, Repr

/-! ### Rings and instances -/

/-- An event ring of an instance (R118 to R123, R130). -/
structure EvtRing where
  /-- RNG_EVT_BASE: the ring base, bits [5:0] 0. -/
  base : Word := 0
  modInterval : BitVec 16 := 0
  modCount : BitVec 8 := 1
  vector : BitVec 6 := 0
  enable : Bool := false
  /-- 2^(size + 4) entries. -/
  size : BitVec 4 := 0
  head : BitVec 16 := 0
  tail : BitVec 16 := 0
  /-- RNG_EVT_MIRROR: bits [2:0] 0. -/
  mirror : Word := 0
  /-- Slots reserved by work taken (R118). -/
  reserved : Nat := 0
  /-- The ring is refusing new work (R113, R119). -/
  blocked : Bool := false
  blockedTicks : BitVec 32 := 0
  /-- Events posted since the ring's last message (R123). -/
  counted : Nat := 0
  /-- Entries have been written that no mirror covers yet (R112). -/
  mirrorDue : Bool := false
  deriving DecidableEq, Repr

/-- The source of an unsolicited event, for pending and merging (R121, R252, R278). -/
inductive UnsolSrc where
  | port (p : PortNo)
  | notice (i : InstNo) (reason : Nat)
  | recovered (e : RingNo)
  | device (pos : Pos) (dev : Nat)
  | stencil (c : ChanNo) (kind : Nat)
  deriving DecidableEq, Repr

/-- An unsolicited event that waits for a slot. -/
structure Unsol where
  ring : RingNo
  src : UnsolSrc
  ev : Event
  /-- More than one occurrence stands in it. -/
  merged : Bool := false
  deriving DecidableEq, Repr

/-- The head that passes an entry as its event is written (R92): none, a transfer ring's, or the command ring's past a slot. -/
inductive HeadOf where
  | none
  | transfer (ep : Nat)
  | command (slot : BitVec 16)
  deriving DecidableEq, Repr

/-- An event that waits on chip in its reserved slot (R125). -/
structure WaitEvt where
  ring : RingNo
  ev : Event
  irqNow : Bool
  vec : Option Nat
  /-- What its write brings about: the passing of a head (R92), a gate decrement (R299), and an item that becomes ready (R288). -/
  head : HeadOf
  gate : Option Nat
  item : Option Nat
  deriving DecidableEq, Repr

/-- How far a fetched command has come (R149). -/
inductive CmdPhase where
  | fetched
  | waiting
  | read (data : List Byte)
  deriving DecidableEq, Repr

/-- A command fetched and not complete. -/
structure Cmd where
  slot : BitVec 16
  entry : CEntry
  phase : CmdPhase
  deriving DecidableEq, Repr

/-- A region descriptor HWK_REGION[d] (R235). -/
structure Region where
  valid : Bool
  units : Nat
  base : Nat
  deriving DecidableEq, Repr

/-- One entry of a function's MSI-X table (R122, R405). -/
structure MsixEntry where
  addr : Word
  data : BitVec 32
  masked : Bool
  deriving DecidableEq, Repr

/-- A programmable counter (R354, R355). -/
structure Counter where
  enable : Bool := false
  irqEn : Bool := false
  cls : BitVec 8 := 0
  addrEn : Bool := false
  mtype : BitVec 3 := 0
  mid : BitVec 6 := 0
  priv : BitVec 3 := 7
  ovf : Bool := false
  count : BitVec 48 := 0
  lo : Word := 0
  hi : Word := 0
  /-- Occurrences still to come in the cycle of a write of the count (R346): they are not counted. -/
  discard : Nat := 0
  deriving DecidableEq, Repr

/-- One occurrence of an event class (R342, R343): its increment and the fields it carries. `inst` is none for
the controller's own work; a host address stands in both address fields. -/
structure Occ where
  cls : Nat
  inc : Nat := 1
  inst : Option InstNo
  port : Option Nat := none
  trowel : Option Nat := none
  chan : Option Nat := none
  addrDev : Option Nat := none
  addrInst : Option Nat := none
  deriving DecidableEq, Repr

/-- A sample being placed (R348): its counter, the occurrences still to pass, the skid that it has then, and the occurrence that it
describes as it stands. -/
structure Placing where
  ctr : Nat
  left : Nat
  skid : Nat
  occ : Occ
  deriving DecidableEq, Repr

/-- A sample register with its address (R356), and a sample still being placed (R348). -/
structure Sample where
  valid : Bool := false
  counter : BitVec 3 := 0
  priv : BitVec 2 := 0
  inst : BitVec 6 := 0
  port : BitVec 6 := 0
  trowel : BitVec 6 := 0
  channel : BitVec 5 := 0
  addrV : Bool := false
  skid : BitVec 4 := 0
  addr : Word := 0
  placing : Option Placing := none
  deriving DecidableEq, Repr

/-- Dirty logging of an instance (R328, R329). -/
structure DirtyLog where
  bitmap : Nat
  winBase : Nat
  winPages : Nat
  outside : Bool
  /-- Pages set in the active bitmap, rising. -/
  pages : List Nat
  deriving DecidableEq, Repr

/-- A walk of an instance's frame list for the coming subframe (R180 to R185). -/
structure Walk where
  /-- The link word or descriptor run to be read next; none when the walk has ended. -/
  next : Option Nat
  /-- The next read is of a link word (a frame-list slot). -/
  atLink : Bool
  /-- Descriptors read so far (R182). -/
  count : Nat
  /-- Endpoint slots walked and not passed over, in chain order. -/
  listed : List Nat
  /-- Every endpoint index that has appeared in the walk. -/
  seen : List Nat
  deriving DecidableEq, Repr

/-- One instance: its function, rings, share and registers (04, 06, 07, 10, 11, 12). -/
structure Inst where
  st : InstState := .disabled
  fresh : Bool := true
  op : InstOp := .none
  flrPending : Bool := false
  /-- A Function Level Reset has been requested and not yet carried out (R325). -/
  flrAsked : Bool := false
  /-- VF Enable has been cleared: after the wipe the shares return and the instance is DISABLED (R327). -/
  leaving : Bool := false
  /-- R313: served as decided at the last cut-off. -/
  served : Bool := false
  /-- The quiesce in progress aborts at a block boundary (R319). -/
  abort : Bool := false
  busMaster : Bool := false
  memSpace : Bool := false
  msixEn : Bool := false
  funcMask : Bool := false
  d3hot : Bool := false
  pmeEn : Bool := false
  msix : KMap MsixEntry := []
  pba : BitVec 64 := 0
  cmdBase : Word := 0
  cmdSize : BitVec 4 := 0
  cmdEn : Bool := false
  cmdHead : BitVec 16 := 0
  cmdTail : BitVec 16 := 0
  /-- The next slot to fetch. -/
  cmdFetch : BitVec 16 := 0
  cmds : List Cmd := []
  /-- Slots completed out of ring order, not yet passed by `head` (R92). -/
  cmdDone : List (BitVec 16) := []
  halted : Bool := false
  malCode : BitVec 8 := 0
  badKind : BitVec 2 := 0
  badTarget : BitVec 17 := 0
  badIndex : BitVec 16 := 0
  strayWrites : BitVec 16 := 0
  evt : Tab EvtRing 8 := Vector.replicate 8 {}
  waiting : List WaitEvt := []
  /-- Data that waits on chip for the function (R125): address and bytes, oldest first. -/
  waitData : List (Nat × List Byte) := []
  unsol : List Unsol := []
  epBase : Nat := 0
  epLimit : Nat := 0
  weight : Nat := 1
  gateQuota : Nat := 0
  flowQuota : Nat := 0
  stBase : Nat := 0
  stSize : Nat := 0
  /-- Private hawk unit u maps to physical unit `unitMap[u]` (R226); its length is the unit quota. -/
  unitMap : List Nat := []
  regionQuota : Nat := 0
  regions : KMap Region := []
  carveRejects : BitVec 16 := 0
  ueHits : BitVec 16 := 0
  flBase : Word := 0
  flEn : Bool := false
  flSize : BitVec 4 := 0
  badDesc : BitVec 16 := 0
  overlong : BitVec 16 := 0
  lateWalks : BitVec 16 := 0
  walk : Option Walk := none
  /-- Reservation on each port (R172). -/
  units : Tab Nat 32 := Vector.replicate 32 0
  /-- Deficit of the round robin on each port (R187). -/
  deficit : Tab Int 32 := Vector.replicate 32 0
  /-- On each port, the work served last, so that endpoints take turns (R188). -/
  turns : Tab Nat 32 := Vector.replicate 32 0
  /-- Instance-local device index to zone address (R97). -/
  devMap : KMap Nat := []
  ctrs : Tab Counter 4 := Vector.replicate 4 { priv := 0 }
  allowed : BitVec 4 := 0
  userRead : BitVec 4 := 0
  ctrVector : BitVec 6 := 0
  sample : Sample := {}
  ctrMsgDue : Bool := false
  badReleases : BitVec 16 := 0
  gateStrays : BitVec 16 := 0
  dirty : Option DirtyLog := none
  deriving DecidableEq, Repr

/-! ### Endpoints and devices -/

/-- The stage of a transfer entry in progress (R51, R52). -/
inductive Stage where
  | body | setup | dataIn | dataOut | status
  deriving DecidableEq, Repr

/-- The transfer entry an endpoint has in progress. -/
structure Xfer where
  slot : BitVec 16
  entry : TEntry
  /-- Payload bytes moved so far. -/
  bytes : Nat
  stage : Stage
  /-- The item reserved for its completion (R289). -/
  item : Option Nat
  /-- Number of the host read that stages its periodic OUT data, until it has come (R50, R229). -/
  staging : Option Nat
  /-- The data stage ended with `eot` before `length` bytes (R52). -/
  short : Bool
  deriving DecidableEq, Repr

/-- An endpoint context (R101) with its working state. -/
structure Ep where
  inst : InstNo
  zone : Nat
  epid : BitVec 5
  kind : EpKind
  interval : Nat
  phase : Nat
  evtRing : RingNo
  maxBlock : Nat
  errThreshold : Nat
  errCount : Nat
  retryLimit : Nat
  retryCount : Nat
  st : EpState
  nextSeq : BitVec 5
  expectSeq : BitVec 5
  silenceRun : Nat
  trBase : Word
  trSize : Nat
  trHead : BitVec 16
  trTail : BitVec 16
  region : Nat
  heldValid : Bool
  heldLen : Nat
  heldReplaced : Nat
  flowId : BitVec 20
  flowEn : Bool
  egressSafe : Bool
  svcCost : Nat
  commitRef : BitVec 32
  blocksDone : BitVec 32
  bytesDone : BitVec 64
  /-- The entry in progress. -/
  cur : Option Xfer
  /-- Bytes received beyond the buffer of the entry before, and whether their block carried `eot` (R51). -/
  carry : List Byte
  carryEot : Bool
  /-- In a silence backoff (R45), and the subframe index from which it may end. -/
  backoff : Bool
  backoffAt : Nat
  /-- A transaction of the endpoint is picked or in a trowel (R206). -/
  picked : Bool
  /-- A delivery of the endpoint is still to be made (R204). -/
  delivering : Bool
  /-- The last increment of `err_count` came from SILENCE (R383). -/
  lastSilence : Bool
  /-- A service has been missed since the last one given (R168). -/
  missRun : Bool
  /-- A hardware error-recovery back-off runs (R19). -/
  recovering : Bool
  /-- The status with which the next entry taken completes at once: a missed service (R168), or the halt
  after an egress override (R383). -/
  force : Option Status
  /-- Blocks of the bulk or control stream so far (R229). -/
  streamBlock : Nat
  /-- A change of schedule that waits for the frame boundary (R178): interval, phase. -/
  newSched : Option (Nat × Nat)
  /-- The slot of its OPEN_ENDPOINT while that command's event is not written (R152); no tick has come since it was (R178). -/
  opening : Option (BitVec 16)
  newlyOpen : Bool
  deriving DecidableEq, Repr

/-- What the controller keeps of a hub's downstream port (R239, R248, R249, R254). -/
structure HPort where
  /-- The status word read last. -/
  word : BitVec 32 := 0
  /-- The status word last posted in a HUB_CHANGE. -/
  posted : Option (BitVec 32) := none
  /-- A suspend, resume or power action is in progress. -/
  moving : Bool := false
  /-- The branch below is suspended. -/
  suspended : Bool := false
  /-- The branch below is neither suspended nor powered off (R254). -/
  usable : Bool := true
  /-- A resume has been seen complete, and the branch is usable 1 ms later (R254). -/
  waking : Bool := false
  /-- The port is out of service, as a DISABLED root port is (R83, R248). -/
  disabled : Bool := false
  /-- Subframe index at which the hub last took the port out of service (R83). -/
  babbleAt : Option Nat := none
  /-- SPEED_REFUSED has been posted for this attach. -/
  refusedPosted : Bool := false
  deriving DecidableEq, Repr

/-- A device record (R100) with its working state (R240, R330). -/
structure DevRec where
  port : PortNo
  tier : Nat
  /-- Zone address of the hub above, 0 at tier 1, and the downstream port of that hub. -/
  parent : Nat
  phport : Nat
  route : BitVec 28
  hub : Bool
  rev3 : Bool
  speed : Speed
  owner : InstNo
  hubPorts : Nat
  st : DevState
  ep0Max : Nat
  cls : BitVec 16
  admitFrame : BitVec 32
  /-- Port resets that have reached the device since its admission (R330). -/
  resetGen : Nat
  /-- Reset by a port and awaiting re-addressing (R57, R247). -/
  awaiting : Bool
  perPort : Bool
  /-- The hub status endpoint is open and booked (R240). -/
  statusOn : Bool
  statusPhase : Nat
  statusSeq : BitVec 5
  /-- Ports whose status bit a poll has shown and HPORT_QUERY has not yet read (R248). -/
  bits : BitVec 16
  hports : KMap HPort
  /-- Bits [511:128] of the record: working state of no stated layout, which a save and a restore carry unchanged (R100). -/
  work : BitVec 384
  deriving DecidableEq, Repr

/-! ### Rounds, transactions, deliveries -/

/-- What a round on the line is (R48 to R52, R240). -/
inductive RoundKind where
  | perIn | perOut | bulkIn | bulkOut | setup | ctlIn | ctlOut | stIn | stOut
  deriving DecidableEq, Repr

/-- Where the payload of a periodic OUT round comes from (R50, R193, R382). -/
inductive PayloadSrc where
  | entry | commit (c : Nat) | egress
  deriving DecidableEq, Repr

/-- The round on a port's line (R43). -/
structure Round where
  kind : RoundKind
  who : Holder
  trowel : TrowelNo
  /-- The transaction that the round belongs to; none in a skim. -/
  txn : Option Nat
  /-- Bus position at which it began (R169, R187). -/
  t0 : Nat
  /-- Blocks asked for or announced. -/
  n : Nat
  /-- First sequence number. -/
  s : BitVec 5
  /-- Blocks sent, and payload bytes of them. -/
  sent : Nat
  /-- Blocks received. -/
  got : Nat
  bad : Bool
  /-- Payload accepted in the round, in order. -/
  rx : List Byte
  eot : Bool
  src : PayloadSrc
  deriving DecidableEq, Repr

/-- The idle gap after an IN burst that has just ended, watched for babble (R46): whose it was, the bus
position at which it ends, the endpoint's counts before the round, and the delivery the round made. -/
structure Gap where
  who : Holder
  kind : RoundKind
  upto : Nat
  err : Nat
  retry : Nat
  delivery : Option Nat
  deriving DecidableEq, Repr

/-- Where a transaction stands (R203, R204, R208). -/
inductive TxnPhase where
  | queued | taken | staged | line | delivery
  deriving DecidableEq, Repr

/-- A bulk or control transaction (R203). -/
structure Txn where
  id : Nat
  port : PortNo
  inst : InstNo
  who : Holder
  kind : RoundKind
  n : Nat
  /-- First sequence number of the burst. -/
  s : BitVec 5
  /-- Blocks of an OUT burst already sent in earlier segments (R41). -/
  sent : Nat
  phase : TxnPhase
  /-- Picked under the deficit arbitration, which its rounds are charged to (R187). -/
  arb : Bool
  /-- OUT data staged in the hawk. -/
  data : List Byte
  /-- Its first token has been on the wire (R203). -/
  started : Bool
  /-- What it sends next has been sent before (R51). -/
  resent : Bool
  deriving DecidableEq, Repr

/-- Data and a completion still to be written to the host (R204, R170). -/
structure Delivery where
  id : Nat
  ep : Nat
  /-- Byte offset in the buffer of the entry in progress. -/
  off : Nat
  data : List Byte
  /-- The completion that ends the entry, if any. -/
  fin : Option Status
  /-- The trowel and transaction whose slot it frees. -/
  txn : Option (TrowelNo × Nat)
  /-- Stamp of the end of its work on the bus, when its function could not be written to then (R125). -/
  since : Option Nat := none
  deriving DecidableEq, Repr

/-- A control transfer of the controller's own (R241, R444). -/
structure OwnXfer where
  id : Nat
  port : PortNo
  /-- Zone address sent to; 0 for the default address. -/
  addr : Nat
  tier : Nat
  maxBlock : Nat
  /-- The setup block: req, tgt, sel, arg, xlen (R238). -/
  req : Nat
  tgt : Nat
  sel : Nat
  arg : Nat
  xlen : Nat
  /-- Number of the procedure that the transfer serves. -/
  proc : Nat
  stage : Stage
  data : List Byte
  err : Nat
  retry : Nat
  silenceRun : Nat
  backoff : Bool
  backoffAt : Nat
  picked : Bool
  inSeq : BitVec 5
  outSeq : BitVec 5
  result : Option Status
  deriving DecidableEq, Repr

/-- What a procedure of the controller's own transfers is for. -/
inductive Purpose where
  /-- ADMIT_DEVICE, ASSIGN_ADDRESS with `readdress` 0 and 1 (R139, R246, R247). -/
  | admission (i : InstNo) (slot : BitVec 16)
  | assign (i : InstNo) (slot : BitVec 16)
  | readdress (i : InstNo) (slot : BitVec 16)
  /-- Hardware enumeration of a new device, and re-addressing (R244, R247). -/
  | enum
  | reenum (zone : Nat)
  /-- The clear-halt of R54, by HALT_CLEAR or RESET_ENDPOINT, by error recovery, by the egress override. -/
  | unhaltCmd (i : InstNo) (slot : BitVec 16) (ep : Nat)
  | unhaltHw (ep : Nat)
  | unhaltEgress (ep : Nat)
  /-- PORT_CONTROL with `scope` 1 (R142). -/
  | devReset (i : InstNo) (slot : BitVec 16)
  /-- TREE_POWER, or the tree-power policy (none), with the HPORT_ACT action (R254, R256). -/
  | treePower (cmd : Option (InstNo × BitVec 16)) (action : Nat)
  /-- Acknowledging change bits, disabling a failed position, powering a new hub's ports. -/
  | fire
  /-- Reading HPORT_QUERY of a hub port whose bit a poll has shown (R248, R249), in the mode in which it was taken up (R258). -/
  | query (hub hport : Nat) (hw : Bool)
  deriving DecidableEq, Repr

/-- A procedure in progress: its purpose, position, step of R244 or own step, and address to give. -/
structure Proc where
  id : Nat
  purpose : Purpose
  pos : Pos
  step : Nat
  addr : Nat
  /-- Hubs (with the port to route to) or hub ports still to be handled. -/
  todo : List (Nat × Nat)
  /-- Its command went with a reset of its instance: its bus steps finish and nothing is posted (R319). -/
  orphan : Bool
  deriving DecidableEq, Repr

/-! ### Ports, trowels -/

/-- A root port (03, 06, 07, 08, 12). -/
structure Port where
  st : PortState := .unpowered
  speed : Speed := .none
  pullup : BitVec 2 := 0
  ppwrEn : Bool := false
  ppwrFlt : Bool := false
  egressHold : Bool := false
  bmcOffReq : Bool := false
  upshiftPending : Bool := false
  disableCause : BitVec 3 := 0
  pwrRetries : BitVec 8 := 0
  egressPort : Bool := false
  wakeEn : Bool := true
  maxSpeed : BitVec 2 := 2
  mgrHold : Bool := false
  faultBlank : BitVec 5 := 0x0A
  pwrRetryMax : BitVec 4 := 0
  pwrRetryGap : BitVec 4 := 0
  /-- PRT_CHANGE bits [7:0]. -/
  change : BitVec 8 := 0
  strayPkts : BitVec 16 := 0
  corruptPkts : BitVec 16 := 0
  trainFails : BitVec 16 := 0
  faultTrips : BitVec 16 := 0
  line : Line := .low
  /-- The leg on which the pull-up was last seen, coded as `pullup`: 0 none yet (R64). -/
  leg : BitVec 2 := 0
  phase : ResetPhase := .idle
  /-- Reset recovery has not ended (R66 instant 12). -/
  recovering : Bool := false
  /-- The first token after a resume is not yet allowed (R71 instant 5). -/
  tokenWait : Bool := false
  /-- What the first SOSF after a resume still waits for (R71). -/
  sosfHold : SosfHold := .none
  suspendPending : Bool := false
  /-- Subframe index at which the port last entered SUSPENDING (R70, R72). -/
  suspAt : Nat := 0
  /-- Consecutive presence windows that showed only LOW (R64). -/
  lowWindows : Nat := 0
  /-- Remote wake recognised and not yet answered (R73). -/
  wakeSeen : Bool := false
  /-- A resume ordered while SUSPENDING, to run once SUSPENDED (R72). -/
  resumeWanted : Bool := false
  /-- The manager has ordered the port powered since a request was last honoured (R79). -/
  mgrPowered : Bool := false
  /-- Subframe index of the last babble disable, and whether another had occurred in the 10 s before it (R83). -/
  babbleAt : Option Nat := none
  babbleAgain : Bool := false
  /-- DOWNSHIFT has been sent, and the speed changes at the next tick (R68). -/
  downshift : Bool := false
  /-- The port came back to ENABLED while it is to move down, so that no token precedes its downshift (R68). -/
  downHold : Bool := false
  /-- Step 1 of the ladder moved the port down or held it down (R69). -/
  shedDown : Bool := false
  /-- The speed at which costs and reservations stand: the one last converted to since PRIME (R172, R175). -/
  reckoned : Speed := .none
  /-- Candidates of the coming subframe, the fixed list, and what is left of the current skim (R177). -/
  cand : List Holder := []
  list : List Holder := []
  skim : List Holder := []
  excess : Int := 0
  ctrlUsed : Nat := 0
  round : Option Round := none
  gap : Option Gap := none
  /-- Bus position before which no packet may start: the last one's end and the idle gap (R27). -/
  lineAt : Nat := 0
  svcMissed : BitVec 32 := 0
  skimsLost : BitVec 16 := 0
  /-- The port carried listed services at the tick at which the coming list began (R217), and a due span of it has been counted as lost
  (R177, R182). -/
  building : Bool := false
  spanLost : Bool := false
  overrunMax : BitVec 16 := 0
  /-- Arbiter of R187: current instance and whether its turn is fresh; the control turn of R186. -/
  arbCur : InstNo := 0
  arbFresh : Bool := true
  ctrlTurn : InstNo := 0
  queue : List Txn := []
  enumHw : Bool := false
  hubHw : Bool := true
  treeHw : Bool := false
  poolFirst : Nat := 0
  poolLast : Nat := 0
  hubPollErrs : BitVec 8 := 0
  enumFails : BitVec 8 := 0
  inAcc : BitVec 32 := 0
  outAcc : BitVec 32 := 0
  inBytes : BitVec 32 := 0
  outBytes : BitVec 32 := 0
  deriving DecidableEq, Repr

/-- A trowel (R231 to R233). -/
structure Trowel where
  levelEn : Bool := true
  oosReq : Bool := false
  tstate : TState := .inService
  oosRefused : Bool := false
  /-- Held ports, at most two. -/
  holds : List PortNo := []
  slots : List Txn := []
  levelled : BitVec 32 := 0
  taken : BitVec 32 := 0
  deriving DecidableEq, Repr

/-! ### Commits, gates, items, stencils -/

/-- A slot of a commit (R190, R195). -/
structure CSlot where
  ep : Nat
  /-- Byte offset within the owner's private hawk space. -/
  addr : Nat
  /-- The slot was sent in the release subframe. -/
  sent : Bool
  answered : Bool
  /-- How the slot ended, once it has. -/
  ended : Option Status
  deriving DecidableEq, Repr

/-- Whether a commit is armed, released or missed (R192). -/
inductive CommitPhase where
  | armed | released | missed
  deriving DecidableEq, Repr

/-- A commit (R145, R189 to R197). -/
structure Commit where
  inst : InstNo
  gate : Nat
  ring : RingNo
  /-- Absolute index of the release subframe. -/
  subN : Nat
  slots : List CSlot
  phase : CommitPhase
  deriving DecidableEq, Repr

/-- The task of a gate (R145, R288). -/
structure Task where
  group : GroupNo
  flow : BitVec 20
  tag : Word
  /-- The item reserved for it. -/
  item : Nat
  deriving DecidableEq, Repr

/-- A gate that is not FREE (R299): COUNTING, or ZERO when the count is 0. -/
structure Gate where
  owner : InstNo
  count : BitVec 16
  task : Option Task
  deriving DecidableEq, Repr

/-- Where an item of the dispatcher stands (R289, R294). -/
inductive ItemState where
  | reserved | pending | parked | inService (q : QueueNo)
  deriving DecidableEq, Repr

/-- An item held in the store (R288, R296). -/
structure Item where
  owner : InstNo
  group : GroupNo
  flow : BitVec 20
  /-- 0b01 completion item, 0b10 task item. -/
  src : BitVec 2
  tag : Word
  bytes : BitVec 24
  status : BitVec 8
  ringIndex : BitVec 16
  ep : BitVec 17
  gate : BitVec 12
  st : ItemState
  /-- The stamp and the cycle count when it became ready. -/
  stamp : BitVec 32
  ready : BitVec 64
  /-- Order of becoming ready. -/
  seq : Nat
  deriving DecidableEq, Repr

/-- A dispatch group (R292, R294). -/
structure Group where
  owner : InstNo := 0
  fifo : List Nat := []
  /-- A STALL record has been written for the present stall. -/
  stalled : Bool := false
  deriving DecidableEq, Repr

/-- A dispatch queue (R293, R306, R309). -/
structure Queue where
  owner : InstNo := 0
  group : GroupNo := 0
  enable : Bool := false
  depthMax : BitVec 8 := 0x10
  weight : BitVec 4 := 1
  evtRing : RingNo := 0
  vecEn : Bool := false
  vector : BitVec 6 := 0
  depth : Nat := 0
  /-- Window totals so far: items delivered, their waits in LATH cycles, subframe ticks with depth at least 1. -/
  accN : Nat := 0
  accWait : Nat := 0
  accBusy : Nat := 0
  waitAvg : BitVec 32 := 0
  load : BitVec 10 := 0
  delivered : BitVec 14 := 0
  deriving DecidableEq, Repr

/-- The dispatcher's trace registers (R303, R311). -/
structure Trace where
  base : Word := 0
  kinds : BitVec 16 := 0xFFFF
  enable : Bool := false
  size : BitVec 4 := 0
  stopped : Bool := false
  head : BitVec 20 := 0
  tail : BitVec 20 := 0
  /-- Records lost since space last returned (R305). -/
  lost : Nat := 0
  deriving DecidableEq, Repr

/-- A WAIT in progress (R272). -/
inductive WaitOn where
  | tick (left : Nat)
  | gate (g : Nat)
  | chan (c : ChanNo) (value : BitVec 16)
  deriving DecidableEq, Repr

/-- A stencil channel (R263 to R287). -/
structure Chan where
  owner : InstNo := 0
  progWords : BitVec 16 := 0
  vecEn : Bool := false
  vector : BitVec 6 := 0
  evtRing : RingNo := 0
  progAddr : Word := 0
  store : Bool := false
  paramAddr : Word := 0
  tag : Word := 0
  count : BitVec 32 := 0
  pc : BitVec 16 := 0
  post : BitVec 16 := 0
  fault : BitVec 8 := 0
  startIgnored : BitVec 8 := 0
  flag : Bool := false
  cstate : CState := .idle
  /-- The parameter block has been read and checked since the channel began (R265). -/
  ready : Bool := false
  /-- The 64-byte line of a program in host memory read last; none after a taken branch (R276). -/
  line : Option Nat := none
  /-- The bytes of that line as its read returned them (R276). -/
  lineData : List Byte := []
  /-- Bytes that the bursts of the instruction at `pc` have carried out (R275), and whether a CMP has met a difference in them (R270). -/
  moved : Nat := 0
  hit : Bool := false
  /-- Decrements of the count register still to come in the cycle of a write to it, which discards them (R277). -/
  discard : Nat := 0
  loops : Tab (BitVec 24) 4 := Vector.replicate 4 0
  ptrs : Tab Word 8 := Vector.replicate 8 0
  strides : Tab (BitVec 32) 8 := Vector.replicate 8 0
  wait : Option WaitOn := none
  /-- Word and timeout of the WAIT; whether the WAIT was interrupted by a pause. -/
  timeout : BitVec 24 := 0
  tagBegin : Word := 0
  /-- Ring in which the end event's slot is reserved. -/
  resv : Option RingNo := none
  deriving DecidableEq, Repr

/-! ### Power, boot, log -/

/-- The retention registers (R375). -/
structure Retention where
  ppwr : Tab Bool 32
  pullup : Tab (BitVec 2) 32
  wakeEn : Tab Bool 32
  /-- 0xFF for EGRESS_N, a port number, or none (R376, R391). -/
  wakeCause : Option (BitVec 8)
  egressPort : Tab Bool 32
  modeBefore : Mode
  deepest : Nat
  resetCause : BitVec 4
  deriving DecidableEq, Repr

/-- A boot directory copy (R364). -/
structure BootDir where
  valid : Bool
  dseq : BitVec 32
  active : Bool
  /-- The slot to try; none for 0xFF. -/
  trial : Option Bool
  deriving DecidableEq, Repr

/-- Firmware boot and staging (R364 to R370, R398). -/
structure Boot where
  dir0 : BootDir := ⟨false, 0, false, none⟩
  dir1 : BootDir := ⟨false, 0, false, none⟩
  /-- The slot being tried (false A, true B), whether it is the trial slot, and why the other was refused. -/
  trying : Option Bool := none
  isTrial : Bool := false
  refused : Option (BitVec 8) := none
  accepted : Bool := false
  trialFailed : Bool := false
  slot : Bool := false
  svn : BitVec 6 := 0
  build : BitVec 64 := 0
  svnCommit : Bool := false
  /-- A staged image: its slot, its svn, and whether it is set for trial. -/
  staged : Option (Bool × BitVec 6 × Bool) := none
  /-- A stage is being written: the slot of its command, unless the command has been dropped; target; svn. -/
  staging : Option (Option (BitVec 16) × Bool × BitVec 6) := none
  forerunner : Bool := false
  cfgRead : Bool := false
  deriving DecidableEq, Repr

/-- A snag-log entry (R390) with the instant of its last occurrence. -/
structure Snag where
  sseq : BitVec 32
  frame : BitVec 64
  code : BitVec 8
  mode : BitVec 8
  merged : BitVec 16
  detail : List Byte
  /-- Subframe index of the last occurrence counted in it; none when the frame count did not run or has
  been set to 0 since, so that the elapsed time is not known to the model (log 12). -/
  last : Option Nat
  deriving DecidableEq, Repr

/-- An egress program entry (R381). -/
structure EgrEntry where
  ep : Nat
  port : PortNo
  /-- 0 for a blank entry. -/
  length : Nat
  payload : List Byte
  deriving DecidableEq, Repr

/-- Power, modes, pins, life cycle and the always-on island (13, 15). -/
structure Power where
  mode : Mode := .prime
  /-- The running mode held before SHED, and before STANDBY. -/
  beforeShed : Mode := .sole
  beforeStandby : Mode := .sole
  /-- The mode the controller last ran in was COMPAT (R400). -/
  lastCompat : Bool := false
  primeInstant : Nat := 0
  primeFailed : Bool := false
  halted : Bool := false
  aonValid : Bool := true
  mainValid : Bool := true
  perst : Bool := true
  perstPending : Bool := false
  wakeN : Bool := false
  linkUp : Bool := false
  /-- The link as it trained last (R4): Gen `linkGen + 1`, 2 ^ `linkLanes` lanes. -/
  linkGen : Fin 4 := 0
  linkLanes : Fin 4 := 0
  /-- BAR0 of the physical function, VF BAR0 and System Page Size of the SR-IOV capability (R402, R404). -/
  bar0 : Word := 0
  vfBar : Word := 0
  sysPage : BitVec 32 := 1
  l1 : Option L1State := none
  barsReady : Bool := false
  resetCause : BitVec 4 := 2
  /-- The source of the reset in progress, latched into `resetCause` at instant 1 (R366). -/
  nextCause : BitVec 4 := 2
  sens : Sensors := ⟨750, 800, 3300, 800, 25, false, false⟩
  shedStep : Nat := 0
  /-- The deepest step whose action is in force (R378). -/
  acted : Nat := 0
  /-- The temperature cause of steps 1 to 3 holds: from 115 °C until below 110 °C (R377). -/
  hot : Bool := false
  /-- The deepest engaged step that temperature was a cause of (R391). -/
  thermal : Nat := 0
  warnStep : BitVec 3 := 3
  bmcResetEn : Bool := false
  retention : Option Retention := none
  egress : Bool := false
  egressProg : List EgrEntry := []
  /-- From the first cut-off after recognition, services send payloads (R382). -/
  egressServing : Bool := false
  lcState : LcState := .blank
  siteKey : Option (BitVec 256) := none
  deviceKey : Bool := true
  minSvn : BitVec 6 := 0
  nonce : BitVec 256 := 0
  whsLeft : Nat := 4
  /-- VF Enable and NumVFs of the SR-IOV capability (R402). -/
  vfEnable : Bool := false
  numVfs : Nat := 0
  /-- Messages (instance, vector) that wait for the link to be in L0 (R124), oldest first. -/
  msgQueue : List (InstNo × Nat) := []
  /-- PME asserted for a function. -/
  pme : Bool := false
  reqResult : BitVec 8 := 5
  snagSel : BitVec 32 := 0
  strap : BitVec 2 := 0
  tap : TapInstr := .idcode
  deriving DecidableEq, Repr

/-- The snag log (R390, R392, R399). -/
structure SnagLog where
  /-- Entries in the always-on buffer, newest first. -/
  buffer : List Snag := []
  /-- Entries in the flash log, newest first. -/
  flash : List Snag := []
  next : BitVec 32 := 0
  index : BitVec 32 := 0
  deriving DecidableEq, Repr

/-- A change of split that waits for the frame boundary (R20). -/
structure Split where
  fn : SplitFn
  port : Option PortNo
  hw : Bool
  recoverMs : BitVec 8
  poolFirst : Nat
  poolLast : Nat
  /-- Its frame boundary has come. -/
  due : Bool
  deriving DecidableEq, Repr

/-- The planner and frame timer (06). -/
structure Planner where
  /-- Absolute index of the current subframe: 8 × frame count + subframe. -/
  subN : Nat := 0
  cycle : BitVec 64 := 0
  /-- The cut-off of the coming subframe has passed. -/
  cutDone : Bool := false
  periodicHw : Bool := true
  /-- The mode under which the list now being built was begun (R179). -/
  buildHw : Bool := true
  lateBuilds : BitVec 32 := 0
  splits : List Split := []
  recoverHw : Bool := false
  recoverMs : BitVec 8 := 1
  deriving DecidableEq, Repr

/-- A position awaiting enumeration (R242, R245). -/
structure EnumWait where
  pos : Pos
  /-- The recorded device to be re-addressed there; none for a new device. -/
  zone : Option Nat
  /-- ENUM_FAILED with NO_RESOURCES has been posted for this waiting period. -/
  told : Bool
  /-- Subframe index from which it may be reset (R83, R248). -/
  since : Nat
  deriving DecidableEq, Repr

/-- A DETACHED of the manager that goes after the TRANSFER events of a function that cannot be written to (R251). -/
structure Notice where
  after : InstNo
  src : UnsolSrc
  ev : Event
  deriving DecidableEq, Repr

/-- Enumeration and tree management (08). -/
structure Tree where
  idleMs : BitVec 16 := 0x1388
  waiting : List EnumWait := []
  /-- Positions at the default address (R441). -/
  marks : List Pos := []
  /-- Positions that failed once, and positions that failed for good (R245). -/
  failedOnce : List Pos := []
  failed : List Pos := []
  own : List OwnXfer := []
  procs : List Proc := []
  notices : List Notice := []
  deriving DecidableEq, Repr

/-- The dispatcher (10). -/
structure Disp where
  gates : KMap Gate := []
  items : KMap Item := []
  /-- Generation of each store entry that has been used (R296). -/
  gens : KMap (BitVec 2) := []
  groups : Tab Group 16 := Vector.replicate 16 {}
  queues : Tab Queue 64 := Vector.ofFn fun q => { group := ⟨q.val / 4, by omega⟩ }
  lastGroup : GroupNo := 15
  windowFrames : BitVec 10 := 0x3E7
  /-- The subframe in which the statistics window in progress began (R306). -/
  windowAt : Nat := 0
  trace : Trace := {}
  /-- Decrements still to come in the cycle in which their gate was cancelled (R302): the gate, as often as it is decremented. -/
  absorb : List Nat := []
  deriving DecidableEq, Repr

/-- Device-wide counters and the meters (12). -/
structure Cnt where
  ctrs : Tab Counter 8 := Vector.replicate 8 {}
  vector : BitVec 6 := 0
  sample : Sample := {}
  msgDue : Bool := false
  shedStopped : Bool := false
  mtrEnable : Bool := false
  mtrFrames : BitVec 10 := 0x3E7
  mtrValid : Bool := false
  mtrSeq : BitVec 8 := 0
  /-- A window is running (from the frame boundary after the meters were enabled). -/
  mtrRunning : Bool := false
  /-- The subframe in which the meter window in progress began (R352). -/
  mtrFrom : Nat := 0
  deriving DecidableEq, Repr

/-- The hawk and its registers, the stencil store and the context cache (04, 07, 09). -/
structure Mems where
  /-- The hawk by physical byte address; an unlisted byte reads 0 (R373). -/
  hawk : List Host.Cell := []
  /-- The stencil store by byte address; an unlisted byte reads 0. -/
  store : List Host.Cell := []
  ceCount : BitVec 32 := 0
  ueCount : BitVec 16 := 0
  eccValid : Bool := false
  eccAddr : BitVec 24 := 0
  passS : BitVec 8 := 1
  hiGated : Bool := false
  bsBase : Word := 0
  bsLock : Bool := false
  misses : BitVec 32 := 0
  /-- Cached context slots, most recently used first. -/
  cache : List Nat := []
  /-- Context slots whose read from the backing store is under way (R102). -/
  reading : List Nat := []
  /-- Pinned context slots, for the current and for the coming subframe (R102). -/
  pinNow : List Nat := []
  pinNext : List Nat := []
  /-- What has been written to the backing store of device records (bits [127:0], by zone address) and of device maps (zone
  address, by 4,096 × instance + index) (R98). -/
  recImage : KMap Nat := []
  mapImage : KMap Nat := []
  deriving DecidableEq, Repr

/-- The whole state. -/
structure State where
  /-- The commands that wait, first in, first out. -/
  pending : List Instr
  /-- What the block has issued, newest first (log 6). -/
  out : List Out
  /-- The counter that free values are applied to (log 7). -/
  freeIx : Nat
  /-- The number of the next transaction, delivery, transfer or procedure (log 11). -/
  nextId : Nat
  pw : Power
  snag : SnagLog
  boot : Boot
  pl : Planner
  ports : Tab Port 32
  trowels : Tab Trowel 48
  insts : Tab Inst 64
  /-- Open endpoint contexts by backing-store slot. -/
  eps : KMap Ep
  /-- Device records by zone address. -/
  devs : KMap DevRec
  deliveries : List Delivery
  commits : KMap Commit
  tree : Tree
  chans : Tab Chan 16
  disp : Disp
  cnt : Cnt
  mem : Mems
  saveCount : BitVec 32
  /-- The tenant whose command the sequencer served last (R156). -/
  seqLast : InstNo
  deriving DecidableEq, Repr

/-- Instance `i` after reset: the manager RUNNING and served, the tenants DISABLED (R312, R339). -/
def Inst.atReset (i : InstNo) : Inst :=
  if i = 0 then { st := .running, served := true } else {}

/-- The state right after reset: PRIME, waiting before instant 1 of R366 with PERST_N asserted and every
supply valid (log 5), every register at its reset value (R371) and every memory zero (R373). -/
def State.reset : State :=
  { pending := []
    out := []
    freeIx := 0
    nextId := 0
    pw := {}
    snag := {}
    boot := {}
    pl := {}
    ports := Vector.replicate 32 {}
    trowels := Vector.replicate 48 {}
    insts := Vector.ofFn Inst.atReset
    eps := []
    devs := []
    deliveries := []
    commits := []
    tree := {}
    chans := Vector.replicate 16 {}
    disp := {}
    cnt := {}
    mem := {}
    saveCount := 0
    seqLast := 0 }

end Sys2Proof.Machine
end

