-- ==== Sys2Proof/Machine/Ops.lean ====
section
/-!
DEFINITION. The named operations on the state: reading and changing one object, issuing what leaves the
block, free values, and the snag log (R390 to R392).
-/
namespace Sys2Proof.Machine

/-- What a meaning answers. -/
abbrev Answer := Host.Outcome State Fault Refusal

/-! ### Objects -/

def State.port (s : State) (p : PortNo) : Port := vget s.ports p
def State.setPort (s : State) (p : PortNo) (x : Port) : State := { s with ports := vset s.ports p x }
def State.modPort (s : State) (p : PortNo) (f : Port → Port) : State := s.setPort p (f (s.port p))

def State.trowel (s : State) (k : TrowelNo) : Trowel := vget s.trowels k
def State.setTrowel (s : State) (k : TrowelNo) (x : Trowel) : State :=
  { s with trowels := vset s.trowels k x }
def State.modTrowel (s : State) (k : TrowelNo) (f : Trowel → Trowel) : State := s.setTrowel k (f (s.trowel k))

def State.inst (s : State) (i : InstNo) : Inst := vget s.insts i
def State.setInst (s : State) (i : InstNo) (x : Inst) : State := { s with insts := vset s.insts i x }
def State.modInst (s : State) (i : InstNo) (f : Inst → Inst) : State := s.setInst i (f (s.inst i))

def State.chan (s : State) (c : ChanNo) : Chan := vget s.chans c
def State.setChan (s : State) (c : ChanNo) (x : Chan) : State := { s with chans := vset s.chans c x }
def State.modChan (s : State) (c : ChanNo) (f : Chan → Chan) : State := s.setChan c (f (s.chan c))

def State.ring (s : State) (i : InstNo) (e : RingNo) : EvtRing := vget (s.inst i).evt e
def State.setRing (s : State) (i : InstNo) (e : RingNo) (x : EvtRing) : State :=
  s.modInst i (fun n => { n with evt := vset n.evt e x })
def State.modRing (s : State) (i : InstNo) (e : RingNo) (f : EvtRing → EvtRing) : State :=
  s.setRing i e (f (s.ring i e))

def State.queue (s : State) (q : QueueNo) : Queue := vget s.disp.queues q
def State.setQueue (s : State) (q : QueueNo) (x : Queue) : State :=
  { s with disp := { s.disp with queues := vset s.disp.queues q x } }
def State.modQueue (s : State) (q : QueueNo) (f : Queue → Queue) : State := s.setQueue q (f (s.queue q))

def State.group (s : State) (g : GroupNo) : Group := vget s.disp.groups g
def State.setGroup (s : State) (g : GroupNo) (x : Group) : State :=
  { s with disp := { s.disp with groups := vset s.disp.groups g x } }
def State.modGroup (s : State) (g : GroupNo) (f : Group → Group) : State := s.setGroup g (f (s.group g))

def State.ep (s : State) (k : Nat) : Option Ep := kget s.eps k
def State.setEp (s : State) (k : Nat) (x : Ep) : State := { s with eps := kset s.eps k x }
def State.modEp (s : State) (k : Nat) (f : Ep → Ep) : State := { s with eps := kupd s.eps k f }

def State.dev (s : State) (z : Nat) : Option DevRec := kget s.devs z
def State.setDev (s : State) (z : Nat) (x : DevRec) : State := { s with devs := kset s.devs z x }
def State.modDev (s : State) (z : Nat) (f : DevRec → DevRec) : State := { s with devs := kupd s.devs z f }

def State.modPw (s : State) (f : Power → Power) : State := { s with pw := f s.pw }
def State.modPl (s : State) (f : Planner → Planner) : State := { s with pl := f s.pl }
def State.modMem (s : State) (f : Mems → Mems) : State := { s with mem := f s.mem }
def State.modTree (s : State) (f : Tree → Tree) : State := { s with tree := f s.tree }
def State.modDisp (s : State) (f : Disp → Disp) : State := { s with disp := f s.disp }
def State.modCnt (s : State) (f : Cnt → Cnt) : State := { s with cnt := f s.cnt }
def State.modBoot (s : State) (f : Boot → Boot) : State := { s with boot := f s.boot }

/-- Something leaves the block (log 6). -/
def State.emit (s : State) (o : Out) : State := { s with out := o :: s.out }

/-- `s` with a function applied for each element of a list, in order. -/
def State.each {α : Type} (s : State) (l : List α) (f : State → α → State) : State := l.foldl f s

/-- All ports, instances, and so on, in rising order. -/
def allPorts : List PortNo := List.finRange 32
def allInsts : List InstNo := List.finRange 64
def allTenants : List InstNo := allInsts.tail
def allRings : List RingNo := List.finRange 8
def allTrowels : List TrowelNo := List.finRange 48
def allChans : List ChanNo := List.finRange 16
def allQueues : List QueueNo := List.finRange 64
def allGroups : List GroupNo := List.finRange 16

/-! ### Free values and numbers (log 7, log 11) -/

/-- The free value that the next use takes, and the state after taking it. -/
def State.freeNat (s : State) : Nat := Config.freeValue s.freeIx
def State.takeFree (s : State) : State := { s with freeIx := s.freeIx + 1 }

/-- `k` bytes whose values the specification leaves open. -/
def State.freeBytes (s : State) (k : Nat) : List Byte :=
  (List.range k).map fun j => BitVec.ofNat 8 (Config.freeValue (s.freeIx + j))

/-- The counter moved past `k` free values. -/
def State.takeFrees (s : State) (k : Nat) : State := { s with freeIx := s.freeIx + k }

/-- The next number is used up. -/
def State.takeId (s : State) : State := { s with nextId := s.nextId + 1 }

/-! ### Modes -/

/-- Code of `mode` (R397); OFF is never read. -/
def Mode.code : Mode → Nat
  | .off => 0 | .retain => 1 | .prime => 2 | .standby => 3
  | .sole => 4 | .shared => 5 | .compat => 6 | .shed => 7

/-- A running mode: SOLE, SHARED, COMPAT or SHED (R13). -/
def Mode.isRunning : Mode → Bool
  | .sole | .shared | .compat | .shed => true
  | _ => false

/-- The controller runs: a running mode, not halted (R15). -/
def State.runs (s : State) : Bool := s.pw.mode.isRunning && !s.pw.halted

/-- The controller keeps time and its ports: a running mode or STANDBY, not halted. -/
def State.alive (s : State) : Bool := (s.pw.mode.isRunning || s.pw.mode == .standby) && !s.pw.halted

/-- COMPAT, or the mode to which SHED or STANDBY returns is COMPAT. -/
def State.inCompat (s : State) : Bool :=
  match s.pw.mode with
  | .compat => true
  | .shed => s.pw.beforeShed == .compat
  | .standby => s.pw.beforeStandby == .compat
  | _ => false

/-- The registers of instance `i` take writes (R15, R408): the block runs and is not halted, its BAR is decoded, and its
function is in D0 with Memory Space Enable set. -/
def State.regsOpen (s : State) (i : InstNo) : Bool :=
  s.alive && s.pw.barsReady && s.pw.linkUp && (s.inst i).memSpace && !(s.inst i).d3hot && (i == 0 || (s.inst i).st != .disabled)

/-- The native registers of instance `i` take writes (R404, R411). -/
def State.nativeRegs (s : State) (i : InstNo) : Bool := s.regsOpen i && !s.inCompat

/-- Software of instance `i` writes to its window, so that the instance is no longer fresh (R314). -/
def State.written (s : State) (i : InstNo) : State :=
  if s.regsOpen i && (s.inst i).fresh then s.modInst i fun n => { n with fresh := false } else s

/-- The frame count (R199). -/
def State.frame (s : State) : Nat := s.pl.subN / 8

/-- `stamp`: frame count bits [28:0], then the subframe (R106). -/
def State.stamp (s : State) : Nat := s.pl.subN % 2 ^ 32

/-! ### The snag log -/

/-- The instant as the 1 s test of R390 uses it; none where the frame count does not run. -/
def State.snagNow (s : State) : Option Nat :=
  if s.pw.mode == .retain || s.pw.mode == .prime || s.pw.mode == .off then none else some s.pl.subN

/-- Whether an occurrence now lies within 1 s of the last one counted (R390). Where the frame count does
not measure it the answer is free (log 12). -/
def State.within1s (s : State) (last : Option Nat) : Bool :=
  match last, s.snagNow with
  | some l, some n => n ≤ l + 8000
  | _, _ => s.freeNat % 2 == 1

/-- A new entry as R390 lays it out. -/
def State.snagEntry (s : State) (code : BitVec 8) (detail : List Byte) : Snag :=
  { sseq := s.snag.next
    frame := if s.snagNow.isNone then 0 else BitVec.ofNat 64 s.frame
    code := code
    mode := BitVec.ofNat 8 s.pw.mode.code
    merged := 0
    detail := detail ++ List.replicate (16 - detail.length) 0
    last := s.snagNow }

/-- The buffer and the flash log with a new occurrence: merged into the newest entry (R390), kept as a new
entry, or put in the newest unflushed place when the buffer is full (R392). -/
def SnagLog.add (l : SnagLog) (e : Snag) (within : Bool) : SnagLog :=
  let merge (x : Snag) : Snag := { x with merged := satInc x.merged, last := e.last }
  let same (x : Snag) : Bool := x.code == e.code && x.detail == e.detail && within
  match l.buffer, l.flash with
  | x :: b, _ =>
    if same x then { l with buffer := merge x :: b }
    else if 64 ≤ l.buffer.length then
      { l with buffer := { e with sseq := x.sseq, merged := satInc x.merged } :: b }
    else { l with buffer := e :: l.buffer, next := l.next + 1 }
  | [], x :: f =>
    if same x then { l with flash := merge x :: f }
    else { l with buffer := [e], next := l.next + 1 }
  | [], [] => { l with buffer := [e], next := l.next + 1 }

/-- The newest entry held. -/
def SnagLog.newest (l : SnagLog) : Option Snag := (l.buffer ++ l.flash).head?

/-- The oldest entry held. -/
def SnagLog.oldest (l : SnagLog) : Option Snag := (l.buffer ++ l.flash).getLast?

/-- An entry is recorded (R390, R392). -/
def State.record (s : State) (code : BitVec 8) (detail : List Byte) : State :=
  { s.takeFree with
    snag := s.snag.add (s.snagEntry code detail) (s.within1s (s.snag.newest.bind (·.last))) }

/-- The 32 bytes of an entry (R390). -/
def Snag.bytes (e : Snag) : List Byte :=
  leBytes 4 e.sseq.toNat ++ leBytes 8 e.frame.toNat ++ [e.code, e.mode] ++ leBytes 2 e.merged.toNat ++ e.detail

/-- The entry with a sequence number, if it is held. -/
def SnagLog.find (l : SnagLog) (q : BitVec 32) : Option Snag :=
  (l.buffer ++ l.flash).find? (fun e => e.sseq == q)

/-! ### The hawk and the stencil store (R223, R226, R266) -/

/-- Physical address of byte `off` of an instance's private hawk space: unit by unit through its map (R226);
none beyond its quota. -/
def State.hawkPhys (s : State) (i : InstNo) (off : Nat) : Option Nat :=
  ((s.inst i).unitMap[off / 512]?).map fun u => u * 512 + off % 512

/-- Byte `off` of an instance's private hawk space. -/
def State.hawkByte (s : State) (i : InstNo) (off : Nat) : Byte :=
  match s.hawkPhys i off with
  | some a => memRead s.mem.hawk a
  | none => 0

/-- `len` bytes of an instance's private hawk space. -/
def State.hawkRead (s : State) (i : InstNo) (off len : Nat) : List Byte :=
  (List.range len).map fun k => s.hawkByte i (off + k)

/-- The physical address and value of each byte of a write to an instance's private hawk space. -/
def State.hawkCells (s : State) (i : InstNo) (off : Nat) (bs : List Byte) : List (Nat × Byte) :=
  (bs.zipIdx).filterMap fun (b, k) => (s.hawkPhys i (off + k)).map fun a => (a, b)

/-- Bytes written to an instance's private hawk space. -/
def State.hawkWrite (s : State) (i : InstNo) (off : Nat) (bs : List Byte) : State :=
  s.modMem fun m => { m with hawk := memWriteAll m.hawk (s.hawkCells i off bs) }

/-- A private area lies within the quota (R114, R226). -/
def State.hawkInside (s : State) (i : InstNo) (off len : Nat) : Bool :=
  off + len ≤ 512 * (s.inst i).unitMap.length

/-- Bytes of the stencil store. -/
def State.storeRead (s : State) (off len : Nat) : List Byte :=
  (List.range len).map fun k => memRead s.mem.store (off + k)

/-- Bytes written to the stencil store. -/
def State.storeWrite (s : State) (off : Nat) (bs : List Byte) : State :=
  s.modMem fun m => { m with store := memWriteAll m.store (bs.zipIdx.map fun (b, k) => (off + k, b)) }

/-- The step read an uncorrectable word. -/
def eccBad : Ecc → Bool
  | .uncorrectable _ => true
  | _ => false

end Sys2Proof.Machine
end

