-- ==== Sys2Proof/Machine/Flags.lean ====
section
/-!
DEFINITION. Counts and their flags: the programmable counters with their filters, overflow, sampling and due
message (R341 to R348), and the port meters (R352).
-/
namespace Sys2Proof.Machine

/-- Number of the privilege of an event: 0 manager, 1 tenant, 2 controller's own (R342). -/
def Occ.privNo (o : Occ) : Nat :=
  match o.inst with
  | none => 2
  | some i => if i = 0 then 0 else 1

/-- The master filter (R344). -/
def Counter.masterOk (c : Counter) (o : Occ) : Bool :=
  match c.mtype.toNat with
  | 0 => true
  | 1 => o.port == some c.mid.toNat
  | 2 => o.trowel == some c.mid.toNat
  | 3 => o.chan == some c.mid.toNat
  | 4 => (o.inst.map (·.val)) == some c.mid.toNat
  | _ => false

/-- The address filter (R344). -/
def Counter.addrOk (c : Counter) (a : Option Nat) : Bool :=
  !c.addrEn || match a with
    | some a => decide (c.lo.toNat ≤ a) && decide (a ≤ c.hi.toNat)
    | none => false

/-- The counter counts the occurrence (R344); `dev` tells the device-wide set. -/
def Counter.passes (c : Counter) (o : Occ) (dev : Bool) : Bool :=
  c.enable && c.cls.toNat == o.cls && o.cls != 0 && c.masterOk o &&
  c.addrOk (if dev then o.addrDev else o.addrInst) && (!dev || bitOf c.priv o.privNo)

/-- A count after an increment, and whether it carried out of bit 47 (R345). -/
def Counter.add (c : Counter) (inc : Nat) : Counter × Bool :=
  let n := c.count.toNat + inc
  let carry := decide (2 ^ 48 ≤ n)
  ({ c with count := BitVec.ofNat 48 n, ovf := c.ovf || carry }, carry)

/-- The sample of an occurrence (R348, R356). -/
def Occ.sample (o : Occ) (j skid : Nat) (dev : Bool) : Sample :=
  let a := if dev then o.addrDev else o.addrInst
  { valid := true
    counter := BitVec.ofNat 3 j
    priv := BitVec.ofNat 2 o.privNo
    inst := BitVec.ofNat 6 ((o.inst.map (·.val)).getD 0x3F)
    port := BitVec.ofNat 6 (o.port.getD 0x3F)
    trowel := BitVec.ofNat 6 (o.trowel.getD 0x3F)
    channel := BitVec.ofNat 5 (o.chan.getD 0x1F)
    addrV := a.isSome
    skid := BitVec.ofNat 4 skid
    addr := BitVec.ofNat 64 (a.getD 0)
    placing := none }

/-- A set of counters with its sample register and whether its message is due. -/
structure CtrBank (n : Nat) where
  ctrs : Tab Counter n
  sample : Sample
  due : Bool
  deriving DecidableEq, Repr

/-- One counter of a set sees an occurrence (R344 to R348). `free` gives the skid, 0 to 8, where a
sample begins (log 14). -/
def CtrBank.count {n : Nat} (b : CtrBank n) (j : Fin n) (o : Occ) (dev : Bool) (free : Nat) : CtrBank n :=
  let c := vget b.ctrs j
  if !c.passes o dev then b
  else if c.discard != 0 then { b with ctrs := vset b.ctrs j { c with discard := c.discard - 1 } }
  else
    let (c', carry) := c.add o.inc
    let b := { b with ctrs := vset b.ctrs j c', due := b.due || (carry && c'.irqEn) }
    match b.sample.placing with
    | some x =>
      if x.ctr = j.val then
        if x.left ≤ 1 then { b with sample := o.sample x.ctr x.skid dev }
        else { b with sample := { b.sample with placing := some { x with left := x.left - 1, occ := o } } }
      else b
    | none =>
      if !(carry && c'.irqEn) || b.sample.valid then b
      else if free % 9 = 0 then { b with sample := o.sample j 0 dev }
      else { b with sample := { b.sample with placing := some ⟨j.val, free % 9, free % 9, o⟩ } }

/-- A sample still being placed is written as it stands (R347, R348): the latest occurrence counted. -/
def Sample.settled (x : Sample) (dev : Bool) : Sample :=
  match x.placing with
  | some y => y.occ.sample y.ctr (y.skid - y.left) dev
  | none => x

/-- All counters of a set see an occurrence, the lower-numbered first (R347). -/
def CtrBank.countAll {n : Nat} (b : CtrBank n) (o : Occ) (dev : Bool) (free : Nat) : CtrBank n :=
  (List.finRange n).foldl (fun b j => b.count j o dev free) b

/-- The device-wide set. -/
def State.devBank (s : State) : CtrBank 8 := ⟨s.cnt.ctrs, s.cnt.sample, s.cnt.msgDue⟩

/-- The set of instance `i`. -/
def State.instBank (s : State) (i : InstNo) : CtrBank 4 :=
  ⟨(s.inst i).ctrs, (s.inst i).sample, (s.inst i).ctrMsgDue⟩

/-- The device-wide set sees an occurrence. -/
def State.countDev (s : State) (o : Occ) : State :=
  let b := s.devBank.countAll o true s.freeNat
  s.takeFree.modCnt fun c => { c with ctrs := b.ctrs, sample := b.sample, msgDue := b.due }

/-- The set of the event's own instance sees an occurrence; class 0x17 is not its own (R344). -/
def State.countInst (s : State) (o : Occ) : State :=
  match o.inst with
  | none => s
  | some i =>
    let b := (s.instBank i).countAll o false s.freeNat
    s.takeFree.modInst i fun n => { n with ctrs := b.ctrs, sample := b.sample, ctrMsgDue := b.due }

/-- An occurrence is counted by both sets, unless shedding has stopped the counters (R351). -/
def State.count (s : State) (o : Occ) : State :=
  if s.cnt.shedStopped then s else (s.countDev o).countInst o

/-- Some enabled counter counts the class. -/
def State.watches (s : State) (cls : Nat) (i : Option InstNo) : Bool :=
  (s.cnt.ctrs.toList.any fun c => c.enable && c.cls.toNat == cls) ||
  match i with
  | some i => (s.inst i).ctrs.toList.any fun c => c.enable && c.cls.toNat == cls
  | none => false

/-- Hawk words of an area of an instance's private space are read or written by a trowel or a channel
(class HAWK_WORDS): one occurrence for each 8-byte word. -/
def State.countHawk (s : State) (i : InstNo) (off len : Nat) (trowel chan : Option Nat) : State :=
  if len = 0 || !s.watches 0x0C (some i) then s
  else
    s.each (List.range ((off + len - 1) / 8 - off / 8 + 1)) fun s k =>
      let a := (off / 8 + k) * 8
      s.count { cls := 0x0C, inst := some i, trowel := trowel, chan := chan
                addrDev := s.hawkPhys i a, addrInst := some a }

/-- Byte offset in the private space of instance `i` of a physical hawk byte (R226). -/
def State.hawkPrivate (s : State) (i : InstNo) (a : Nat) : Option Nat :=
  ((s.inst i).unitMap.idxOf? (a / 512)).map fun u => 512 * u + a % 512

/-- What the check bits show, recorded (R224): a corrected word is counted (also as HAWK_CE); an uncorrectable word is counted,
its address kept, recorded as HAWK_UE, and counted against the instance it was read for. -/
def State.noteEccBy (s : State) (i : Option InstNo) (x : Ecc) (trowel chan : Option Nat) : State :=
  match x with
  | .ok => s
  | .corrected a =>
    (s.modMem fun m => { m with ceCount := satInc m.ceCount }).count
      { cls := 0x0D, inst := i, trowel := trowel, chan := chan, addrDev := some a.toNat
        addrInst := i.bind fun i => s.hawkPrivate i a.toNat }
  | .uncorrectable a =>
    let s := s.modMem fun m => { m with ueCount := satInc m.ueCount, eccValid := true, eccAddr := a }
    let s := match i with
      | some i => s.modInst i fun n => { n with ueHits := satInc n.ueHits }
      | none => s
    s.record 0x07 (leBytes 4 a.toNat)

def State.noteEcc (s : State) (i : Option InstNo) (x : Ecc) : State := s.noteEccBy i x none none

/-! ### Port meters -/

/-- Payload bytes of a DATA block received on or sent from a port (class LINE_BYTES, R343, R352). -/
def State.lineBytes (s : State) (p : PortNo) (k : TrowelNo) (i : Option InstNo) (len : Nat) (inward : Bool) : State :=
  let s := s.count { cls := 0x09, inc := len, inst := i, port := some p.val, trowel := some k.val }
  if s.cnt.mtrRunning && !s.cnt.shedStopped then
    s.modPort p fun x =>
      if inward then { x with inAcc := x.inAcc + BitVec.ofNat 32 len }
      else { x with outAcc := x.outAcc + BitVec.ofNat 32 len }
  else s

end Sys2Proof.Machine
end

