-- ==== Sys2Proof/Machine/Events.lean ====
section
/-!
DEFINITION. Writes to host memory with dirty logging (R328), event rings: slots, credit and reservations
(R118 to R121), event entries (R106 to R111), the index mirror (R113), MSI-X messages and moderation (R122 to
R125), and malformed work (R114 to R117, R442).
-/
namespace Sys2Proof.Machine

/-! ### Writes to host memory -/

/-- The 4 KiB pages of a window that a write touches, and whether it touches anything outside (R328). -/
def DirtyLog.hit (d : DirtyLog) (addr len : Nat) : List Nat × Bool :=
  let ps := if len = 0 then [] else (List.range ((addr + len - 1) / 4096 - addr / 4096 + 1)).map (addr / 4096 + ·)
  let base := d.winBase / 4096
  let inside (q : Nat) : Bool := base ≤ q && q < base + d.winPages
  ((ps.filter inside).map (· - base), ps.any fun q => !inside q)

/-- A rising list of numbers with one inserted. -/
def insertNat (x : Nat) : List Nat → List Nat
  | [] => [x]
  | y :: l => if x < y then x :: y :: l else if x = y then y :: l else y :: insertNat x l

/-- The 8-byte word of the bitmap that holds page `p`, as its pages stand. -/
def DirtyLog.word (d : DirtyLog) (p : Nat) : Nat :=
  (d.pages.filter fun q => q / 64 == p / 64).foldl (fun a q => a + 2 ^ (q % 64)) 0

/-- The controller may write to the memory of instance `i` and send its messages: it runs (R15), the
function is in D0 with Bus Master Enable set (R125), the instance is enabled and not halted (R117), and no Function Level
Reset of it is under way (R325). -/
def State.canWrite (s : State) (i : InstNo) : Bool :=
  let n := s.inst i
  s.runs && !n.d3hot && n.busMaster && !n.halted && !n.flrAsked && n.st != .disabled

/-- A write of the controller's own with the physical function's requester ID (R329), counted for the manager (R343) (DESIGN CHOICE, log 151);
it waits on chip while the function is asleep (R125). -/
def State.ownWrite (s : State) (addr : Nat) (bytes : List Byte) : State :=
  if s.canWrite 0 then
    (s.emit (.hostWrite 0 addr bytes)).count { cls := 0x0B, inst := some 0, addrDev := some addr, addrInst := some addr }
  else if s.pw.halted then s
  else s.modInst 0 fun n => { n with waitData := n.waitData ++ [(addr, bytes)] }

/-- The bitmap writes and the log after a write of instance `i` (R328, R329). -/
def State.logDirty (s : State) (i : InstNo) (addr len : Nat) : State :=
  match (s.inst i).dirty with
  | none => s
  | some d =>
    let (ps, out) := d.hit addr len
    let s := s.modInst i fun n => { n with dirty := some { d with outside := d.outside || out } }
    s.each ps fun s p =>
      match (s.inst i).dirty with
      | none => s
      | some d =>
        if d.pages.contains p then s
        else
          let d := { d with pages := insertNat p d.pages }
          (s.modInst i fun n => { n with dirty := some d }).ownWrite (d.bitmap + 8 * (p / 64)) (leBytes 8 (d.word p))

/-- A memory write with the requester ID of instance `i`, by a trowel or a stencil channel if one does it. -/
def State.hostWriteBy (s : State) (i : InstNo) (addr : Nat) (bytes : List Byte) (trowel chan : Option Nat) : State :=
  ((s.emit (.hostWrite i addr bytes)).logDirty i addr bytes.length).count
    { cls := 0x0B, inst := some i, trowel := trowel, chan := chan, addrDev := some addr, addrInst := some addr }

def State.hostWrite (s : State) (i : InstNo) (addr : Nat) (bytes : List Byte) : State :=
  s.hostWriteBy i addr bytes none none

/-- A memory read request with the requester ID of instance `i`; the data comes with a later command. -/
def State.hostRead (s : State) (i : InstNo) (addr len : Nat) (trowel chan : Option Nat) : State :=
  (s.emit (.hostRead i addr len)).count
    { cls := 0x0A, inst := some i, trowel := trowel, chan := chan, addrDev := some addr, addrInst := some addr }

/-- Data for the memory of instance `i`: written, or kept on chip while the function is asleep (R125), or discarded with a halt
(R117, R15). -/
def State.putData (s : State) (i : InstNo) (addr : Nat) (bytes : List Byte) (trowel : Option Nat) : State :=
  if bytes.isEmpty then s
  else if s.canWrite i then s.hostWriteBy i addr bytes trowel none
  else if s.pw.halted || (s.inst i).halted || (s.inst i).flrAsked then s
  else s.modInst i fun n => { n with waitData := n.waitData ++ [(addr, bytes)] }

/-! ### MSI-X -/

/-- Vectors of a function (R122): 64 on the physical function, 16 on a virtual function. -/
def vectors (i : InstNo) : Nat := if i = 0 then 64 else 16

/-- The vector is masked, by its entry (masked after reset) or by the function mask. -/
def Inst.masked (n : Inst) (v : Nat) : Bool :=
  n.funcMask || (match kget n.msix v with
    | some e => e.masked
    | none => true)

/-- A message of instance `i` falls due on vector `v` (R122, R124): nothing without MSI-X enabled (log 13), the
pending bit when masked, and otherwise the message at once in L0, or in the queue until the link is in L0,
its L1 exit begun. -/
def State.sendMsg (s : State) (i : InstNo) (v : Nat) : State :=
  let n := s.inst i
  if !n.msixEn then s
  else if n.masked v then s.modInst i fun n => { n with pba := n.pba ||| BitVec.ofNat 64 (2 ^ v) }
  else match s.pw.l1 with
    | none => (s.emit (.msix i v)).count { cls := 0x11, inst := some i }
    | some _ =>
      let s' := s.modPw fun w => { w with msgQueue := w.msgQueue ++ [(i, v)] }
      if s.pw.msgQueue.any fun m => s.canWrite m.1 then s' else s'.emit .l1Exit

/-- Pending messages of vectors that are masked no longer are sent (R122), where the function may send them (R125) (DEDUCED, log 86). -/
def State.sendPending (s : State) (i : InstNo) : State :=
  if (s.inst i).pba = 0 || !s.canWrite i then s
  else
    s.each (List.range (vectors i)) fun s v =>
      let n := s.inst i
      if bitOf n.pba v && n.msixEn && !n.masked v then
        (s.modInst i fun n => { n with pba := n.pba &&& ~~~(BitVec.ofNat 64 (2 ^ v)) }).sendMsg i v
      else s

/-! ### Slots and credit -/

/-- Entries of a ring: 2^(size + 4) (R130). -/
def EvtRing.entries (r : EvtRing) : Nat := 2 ^ (r.size.toNat + 4)

/-- Occupied slots: (`tail` − `head`) mod size (R118). -/
def EvtRing.used (r : EvtRing) : Nat := (r.tail.toNat + r.entries - r.head.toNat % r.entries) % r.entries

/-- Free slots (R118). -/
def EvtRing.free (r : EvtRing) : Nat := r.entries - 1 - r.used

/-- Credit (R118). -/
def EvtRing.credit (r : EvtRing) : Int := (r.free : Int) - r.reserved - 1

/-- Work for the ring may be taken (R118): it is enabled and its credit is at least 1. -/
def EvtRing.hasCredit (r : EvtRing) : Bool := r.enable && decide (1 ≤ r.credit)

/-- The ring's index mirror is written (R113). -/
def State.writeMirror (s : State) (i : InstNo) (e : RingNo) : State :=
  let r := s.ring i e
  (s.hostWrite i r.mirror.toNat (leBytes 8 (r.tail.toNat + b2n r.blocked * 2 ^ 16))).modRing i e
    fun r => { r with mirrorDue := false }

/-- The mirror if it is due, then the ring's message, its count to 0 and its timer stopped (R112, R123) (DESIGN CHOICE, log 119). -/
def State.fireRing (s : State) (i : InstNo) (e : RingNo) : State :=
  let s := if (s.ring i e).mirrorDue then s.writeMirror i e else s
  (s.sendMsg i (s.ring i e).vector.toNat).modRing i e fun r => { r with counted := 0 }

/-- A DISPATCH event with a message of its own does not count toward its ring's moderation (R295). -/
def ownMessage (ev : Event) (vec : Option Nat) : Bool := vec.isSome && fld ev 7 0 == 9

/-- An event entry is written at `tail` (R112), and counted toward moderation (R123) unless it has a message of
its own (R295). -/
def State.storeEvent (s : State) (i : InstNo) (e : RingNo) (ev : Event) (own : Bool) : State :=
  let r := s.ring i e
  ((s.hostWrite i (r.base.toNat + 32 * r.tail.toNat) (leBytes 32 ev.toNat)).modRing i e fun r =>
    { r with tail := BitVec.ofNat 16 ((r.tail.toNat + 1) % r.entries), counted := if own then r.counted else r.counted + 1
             mirrorDue := true }).count
    { cls := 0x10, inst := some i }

/-- The message falls due at the write of an event (R123): by the count, by `irq_now`, or by an interval of 0. -/
def EvtRing.fires (r : EvtRing) (irqNow : Bool) : Bool :=
  irqNow || r.modInterval == 0 || decide (r.modCount.toNat ≤ r.counted)

/-- An event entry is written, with the ring's message if it falls due, and a message on a vector of its
own, if it has one (R278, R298). -/
def State.putEvent (s : State) (i : InstNo) (e : RingNo) (ev : Event) (irqNow : Bool) (vec : Option Nat) : State :=
  let s := s.storeEvent i e ev (ownMessage ev vec)
  let s := match vec with
    | some v => (if (s.ring i e).mirrorDue then s.writeMirror i e else s).sendMsg i v
    | none => s
  if !ownMessage ev vec && (s.ring i e).fires irqNow then s.fireRing i e else s

/-! ### Unsolicited events -/

/-- A PORT_STATUS event of port `p` as it stands (R109). -/
def State.portStatusEvent (s : State) (p : PortNo) : Event :=
  let x := s.port p
  BitVec.ofNat 256 (pack
    [(0, 8, 0x03), (16, 5, p.val), (32, 8, x.change.toNat), (40, 4, x.st.ctorIdx),
     (44, 2, x.speed.ctorIdx), (46, 2, x.pullup.toNat), (96, 32, s.stamp)])

/-- A STENCIL event of channel `c` as the channel stands (R279). -/
def State.stencilEvent (s : State) (c : ChanNo) (kind mark fault stamp : Nat) : Event :=
  let x := s.chan c
  BitVec.ofNat 256 (pack
    [(0, 8, 0x08), (8, 8, b2n (kind == 1)), (32, 4, c.val), (36, 4, kind), (40, 1, b2n x.flag), (48, 16, x.pc.toNat),
     (64, 8, fault), (72, 24, (vget x.loops 0).toNat), (96, 32, stamp), (128, 16, mark), (144, 16, x.post.toNat),
     (160, 32, x.count.toNat), (192, 64, x.tagBegin.toNat)])

/-- The event as it is written: a PORT_STATUS, and a merged STENCIL event, carry the values current then (R109, R121, R278). -/
def State.unsolEvent (s : State) (u : Unsol) : Event :=
  match u.src with
  | .port p => s.portStatusEvent p
  | .stencil c kind => if u.merged then s.stencilEvent c kind (fld u.ev 143 128) 0 (fld u.ev 127 96) else u.ev
  | _ => u.ev

/-- How an unsolicited event interrupts (R278): a stencil's, with its own vector or as one with `irq_now`. -/
def State.unsolIrq (s : State) (u : Unsol) : Bool × Option Nat :=
  match u.src with
  | .stencil c _ => if (s.chan c).vecEn then (false, some (s.chan c).vector.toNat) else (true, none)
  | _ => (false, none)

/-- Pending events of ring `e` are posted, oldest first, while a slot that is not reserved is free (R121). -/
def drainRing : Nat → State → InstNo → RingNo → State
  | 0, s, _, _ => s
  | k + 1, s, i, e =>
    match (s.inst i).unsol.find? (fun u => u.ring == e) with
    | none => s
    | some u =>
      let r := s.ring i e
      if s.canWrite i && r.enable && decide (r.reserved + 1 ≤ r.free) then
        drainRing k
          ((s.modInst i fun n => { n with unsol := n.unsol.erase u }).putEvent i e (s.unsolEvent u) (s.unsolIrq u).1 (s.unsolIrq u).2) i e
      else s

def State.drain (s : State) (i : InstNo) (e : RingNo) : State := drainRing (s.inst i).unsol.length s i e

/-- A RING_RECOVERED event (R111). -/
def State.recoveredEvent (s : State) (e : RingNo) (ticks : BitVec 32) : Event :=
  BitVec.ofNat 256 (pack [(0, 8, 0x05), (16, 3, e.val), (32, 32, ticks.toNat), (96, 32, s.stamp)])

/-- The ring begins or ends refusing new work as its credit stands (R119, R120): when credit has returned,
RING_RECOVERED goes before the other pending events, and `blocked` clears in the mirror after it. -/
def State.settle (s : State) (i : InstNo) (e : RingNo) : State :=
  let r := s.ring i e
  let s :=
    if r.blocked && r.hasCredit then
      let u : Unsol := ⟨e, .recovered e, s.recoveredEvent e r.blockedTicks, false⟩
      ((s.modInst i fun n => { n with unsol := u :: n.unsol.filter fun x => x.src != .recovered e }).modRing i e
        fun r => { r with blocked := false, blockedTicks := 0, mirrorDue := true })
    else s
  let s := s.drain i e
  let r := s.ring i e
  if r.enable && !r.blocked && decide (r.credit < 1) then
    s.modRing i e fun r => { r with blocked := true, blockedTicks := 0, mirrorDue := true }
  else s

/-- An unsolicited event of a source: merged into the one pending, or pending anew, and posted if it can be. -/
def State.unsolicited (s : State) (i : InstNo) (e : RingNo) (src : UnsolSrc) (ev : Event) : State :=
  let s := s.modInst i fun n =>
    { n with unsol :=
        if n.unsol.any (fun u => u.src == src) then
          n.unsol.map fun u => if u.src == src then { u with ev := ev, merged := true } else u
        else n.unsol ++ [⟨e, src, ev, false⟩] }
  s.settle i e

/-- The events of instance `i` have been written, or will never be: the DETACHED events that waited for them go (R251). -/
def State.releaseNotices (s : State) (i : InstNo) : State :=
  let l := s.tree.notices.filter (·.after == i)
  let s := s.modTree fun t => { t with notices := t.notices.filter (·.after != i) }
  s.each l fun s n => s.unsolicited 0 0 n.src n.ev

/-- A PORT_STATUS event to the manager's ring 0 (R84, R109). -/
def State.postPort (s : State) (p : PortNo) : State := s.unsolicited 0 0 (.port p) (s.portStatusEvent p)

/-! ### Reserved slots -/

/-- One slot of the ring is reserved for work taken (R118). -/
def State.reserve (s : State) (i : InstNo) (e : RingNo) : State :=
  (s.modRing i e fun r => { r with reserved := r.reserved + 1 }).settle i e

/-- Work ended without an event: its slot is released (R118). -/
def State.unreserve (s : State) (i : InstNo) (e : RingNo) : State :=
  (s.modRing i e fun r => { r with reserved := r.reserved - 1 }).settle i e

/-- An event is posted into its reserved slot. With the function asleep it waits on chip in that slot (R125);
with the instance or the controller halted it is discarded (R117, R15). -/
def State.postWait (s : State) (i : InstNo) (w : WaitEvt) : State :=
  if s.canWrite i then
    (s.modRing i w.ring fun r => { r with reserved := r.reserved - 1 }).putEvent i w.ring w.ev w.irqNow w.vec
      |>.settle i w.ring
  else if s.pw.halted || (s.inst i).halted then
    s.modRing i w.ring fun r => { r with reserved := r.reserved - 1 }
  else
    let n := s.inst i
    let s := s.modInst i fun n => { n with waiting := n.waiting ++ [w] }
    if n.d3hot && n.pmeEn && n.waiting.isEmpty then (s.modPw fun w => { w with pme := true }).emit (.pme i) else s

def State.postVec (s : State) (i : InstNo) (e : RingNo) (ev : Event) (irqNow : Bool) (vec : Option Nat) : State :=
  s.postWait i ⟨e, ev, irqNow, vec, .none, none, none⟩

def State.post (s : State) (i : InstNo) (e : RingNo) (ev : Event) (irqNow : Bool) : State :=
  s.postVec i e ev irqNow none

/-- The message of instance `i`'s own counters is sent, where it is due and its sample is written (R347). -/
def State.sendInstCtr (s : State) (i : InstNo) : State :=
  if (s.inst i).ctrMsgDue && (s.inst i).sample.placing.isNone && s.canWrite i then
    (s.modInst i fun n => { n with ctrMsgDue := false }).sendMsg i (s.inst i).ctrVector.toNat
  else s

/-- The message of the device-wide counters is sent, where it is due and its sample is written (R347). -/
def State.sendDevCtr (s : State) : State :=
  if s.cnt.msgDue && s.cnt.sample.placing.isNone && s.canWrite 0 then
    (s.modCnt fun c => { c with msgDue := false }).sendMsg 0 s.cnt.vector.toNat
  else s

/-- The counter messages that are due are sent. -/
def State.sendCtr (s : State) : State := s.sendDevCtr.each allInsts State.sendInstCtr

/-! ### Device records and maps in the backing store (R97, R98, R100) -/

/-- Bits [127:0] of a device record (R100). -/
def DevRec.low (d : DevRec) (z : Nat) : Nat :=
  pack
    [(0, 12, z), (12, 3, d.tier), (15, 1, b2n d.hub), (16, 5, d.port.val), (21, 2, d.speed.ctorIdx), (23, 1, b2n d.rev3),
     (24, 6, d.owner.val), (32, 28, d.route.toNat), (60, 4, d.hubPorts), (64, 3, d.st.ctorIdx), (72, 8, d.ep0Max), (80, 16, d.cls.toNat),
     (96, 32, d.admitFrame.toNat)]

/-- The device records as the store is to hold them, by zone address. -/
def State.records (s : State) : KMap Nat := s.devs.map fun (z, d) => (z, d.low z)

/-- The device maps as the store is to hold them, by 4,096 × instance + index. -/
def State.maps (s : State) : KMap Nat := allInsts.flatMap fun i => (s.inst i).devMap.map fun (x, z) => (4096 * i.val + x, z)

/-- Keys whose values differ between two maps. -/
def changedKeys (a b : KMap Nat) : List Nat :=
  ((a.filter fun e => kget b e.1 != some e.2).map (·.1)) ++ ((b.filter fun e => (kget a e.1).isNone).map (·.1))

/-- A device record written to the store: its defined bits, then its working state; zeros for a free record. -/
def State.writeRecord (s : State) (z : Nat) : State :=
  let at' := s.mem.bsBase.toNat + 0x800000 + 64 * z
  match kget s.records z with
  | some w => s.hostWrite 0 at' (leBytes 16 w ++ leBytes 48 (((s.dev z).map (·.work.toNat)).getD 0))
  | none => s.hostWrite 0 at' (List.replicate 64 0)

/-- An entry of a device map written to the store (R97): `valid` in bit [15], the zone address in bits [11:0]. -/
def State.writeMapEntry (s : State) (k : Nat) : State :=
  s.hostWrite 0 (s.mem.bsBase.toNat + 0x840000 + 2 * k) (leBytes 2 (match kget s.maps k with
    | some z => 2 ^ 15 + z
    | none => 0))

/-- The records and map entries that have changed are written to the store, where it is locked and the manager's memory can be
written (DESIGN CHOICE, log 23: at the end of the command that changed them). -/
def State.syncStore (s : State) : State :=
  if !s.mem.bsLock || !s.canWrite 0 then s
  else
    let rs := changedKeys s.records s.mem.recImage
    let ms := changedKeys s.maps s.mem.mapImage
    let s := (s.each rs State.writeRecord).each ms State.writeMapEntry
    if rs.isEmpty && ms.isEmpty then s else s.modMem fun m => { m with recImage := s.records, mapImage := s.maps }

/-- The answer of a command: the counter messages that fell due in it are sent at its end. -/
def done (s : State) : Answer := .next s.syncStore.sendCtr

end Sys2Proof.Machine
end

