-- ==== Sys2Proof/Machine/Packets.lean ====
section
/-!
DEFINITION. The packets of the line (R28 to R35): both CRCs, the packets the controller sends, the checks of
the packets it receives, and the byte-times each occupies (R33).
-/
namespace Sys2Proof.Machine

/-- One bit step of CRC-8 (R35). -/
def crc8Bit (c : BitVec 8) : BitVec 8 := if c.getLsbD 0 then (c >>> 1) ^^^ 0xE0 else c >>> 1

def crc8Byte (c b : BitVec 8) : BitVec 8 :=
  crc8Bit (crc8Bit (crc8Bit (crc8Bit (crc8Bit (crc8Bit (crc8Bit (crc8Bit (c ^^^ b))))))))

/-- CRC-8 of R35. -/
def crc8 (bs : List Byte) : BitVec 8 := bs.foldl crc8Byte 0xFF

/-- One bit step of CRC-32C (R35). -/
def crc32Bit (c : BitVec 32) : BitVec 32 := if c.getLsbD 0 then (c >>> 1) ^^^ 0x82F63B78 else c >>> 1

def crc32Byte (c : BitVec 32) (b : BitVec 8) : BitVec 32 :=
  crc32Bit (crc32Bit (crc32Bit (crc32Bit (crc32Bit (crc32Bit (crc32Bit (crc32Bit (c ^^^ b.setWidth 32))))))))

/-- CRC-32C of R35. -/
def crc32c (bs : List Byte) : BitVec 32 := bs.foldl crc32Byte 0xFFFFFFFF ^^^ 0xFFFFFFFF

/-! ### Packets sent -/

def pidPoll : Byte := 0xE1
def pidPush : Byte := 0xD2
def pidSetup : Byte := 0xC3
def pidSosf : Byte := 0xB4
def pidData : Byte := 0xA5
def pidAck : Byte := 0x96
def pidStall : Byte := 0x87

/-- A POLL, PUSH or SETUP (R29); `count` is the number of blocks minus 1. -/
def tokenPacket (pid : Byte) (addr : Nat) (epid seq : BitVec 5) (count : Nat) : List Byte :=
  let body := leBytes 4 (pack [(0, 12, addr), (12, 5, epid.toNat), (17, 5, seq.toNat), (22, 4, count)])
  pid :: body ++ [crc8 body]

/-- An SOSF (R30). -/
def sosfPacket (frame subframe : Nat) : List Byte :=
  let body := leBytes 2 (pack [(0, 11, frame), (11, 3, subframe)])
  pidSosf :: body ++ [crc8 body]

/-- A DATA block (R31). -/
def dataPacket (seq : BitVec 5) (last eot : Bool) (payload : List Byte) : List Byte :=
  let body := leBytes 3 (pack [(0, 10, payload.length), (10, 5, seq.toNat), (15, 1, b2n last), (16, 1, b2n eot)])
  pidData :: body ++ [crc8 body] ++
    (if payload.isEmpty then [] else payload ++ leBytes 4 (crc32c payload).toNat)

/-- An ACK (R32). -/
def ackPacket (next : BitVec 5) : List Byte :=
  let body := [BitVec.ofNat 8 next.toNat]
  pidAck :: body ++ [crc8 body]

/-! ### Packets received -/

/-- A DATA block as received: its header fields and payload. -/
structure DataBlock where
  length : Nat
  seq : BitVec 5
  last : Bool
  eot : Bool
  payload : List Byte
  deriving DecidableEq, Repr

/-- What a received packet is (R28, R34). A DATA header with a `length` above the maximum block size is told apart, since R46 decides it. -/
inductive Received where
  | data (d : DataBlock)
  | tooLong (length : Nat)
  | ack (next : BitVec 5)
  | stall
  | corrupt
  deriving DecidableEq, Repr

/-- The DATA block of a packet (R31, R34). A `length` above `mb` is told from the header alone (R46). -/
def readData (mb : Nat) (pkt : List Byte) : Received :=
  let hdr := bytesAt pkt 1 3
  let h := leNat hdr
  let len := h % 2 ^ 10
  if pkt.length < 5 || crc8 hdr != pkt.getD 4 0 || h / 2 ^ 17 != 0 then .corrupt
  else if mb < len then .tooLong len
  else
    let pay := bytesAt pkt 5 len
    let want := if len = 0 then 5 else 9 + len
    if pkt.length != want then .corrupt
    else if len != 0 && leBytes 4 (crc32c pay).toNat != bytesAt pkt (5 + len) 4 then .corrupt
    else .data ⟨len, BitVec.ofNat 5 (h / 2 ^ 10), (h / 2 ^ 15) % 2 == 1, (h / 2 ^ 16) % 2 == 1, pay⟩

/-- What a received packet is where blocks of at most `mb` bytes are awaited: only DATA, ACK and STALL ever are (R28, R34). -/
def receive (mb : Nat) (pkt : List Byte) : Received :=
  match pkt.head? with
  | none => .corrupt
  | some pid =>
    if pid = pidData then readData mb pkt
    else if pid = pidAck then
      let b := pkt.getD 1 0
      if pkt.length = 3 && crc8 [b] == pkt.getD 2 0 && decide (b.toNat < 32) then .ack (BitVec.ofNat 5 b.toNat)
      else .corrupt
    else if pid = pidStall then if pkt = [0x87, 0x00, 0xCF] then .stall else .corrupt
    else .corrupt

/-! ### Framing (R59) -/

/-- What stands on the line: a byte of a packet or of Reach's start framing, a level held for bit-times, or a code group. -/
inductive Symbol where
  | byte (b : Byte)
  | level (high : Bool) (bits : Nat)
  | group (c : Char)
  | special (x y : Nat)
  deriving DecidableEq, Repr

/-- The framing before the first byte of a packet, 3 byte-times. -/
def startFrame : Speed → List Symbol
  | .express => [.special 28 5, .special 28 5, .special 27 7]
  | .standard => [.group 'I', .group 'I', .group 'I', .group 'I', .group 'J', .group 'K']
  | _ => [.byte 0x55, .byte 0x55, .byte 0xB3]

/-- The framing after its last byte, 1 byte-time: at Reach 4 bit-times of the P level, then 4 of the N level. -/
def endFrame : Speed → List Symbol
  | .express => [.special 29 7]
  | .standard => [.group 'T', .group 'R']
  | _ => [.level true 4, .level false 4]

/-- A packet as it stands on the line. -/
def framed (v : Speed) (pkt : List Byte) : List Symbol := startFrame v ++ pkt.map .byte ++ endFrame v

/-! ### Byte-times (R33) -/

def tokenTime : Nat := 10
def sosfTime : Nat := 8
def ackTime : Nat := 7
def dataTime (len : Nat) : Nat := if len = 0 then 9 else 13 + len
/-- The idle gap of R27. -/
def gapTime : Nat := 4

end Sys2Proof.Machine
end

