-- ==== Sys2Proof/Machine/Prime.lean ====
section
/-!
DEFINITION. Resets through PRIME, start-up, RETAIN, the snag log's flush, SMBus reads and JTAG (01, 13, 15):
the meanings of those rows that touch nothing of the bus.
-/
namespace Sys2Proof.Machine

/-! ### Resets through PRIME -/

/-- PPWR_EN of every port driven low (R80, R419). -/
def State.allPowerLow (s : State) : State :=
  s.each allPorts fun s p => if (s.port p).ppwrEn then s.emit (.ppwrEn p false) else s

/-- No elapsed time since the newest snag entry is known once the frame count restarts (log 12). -/
def SnagLog.restart (l : SnagLog) : SnagLog :=
  { l with
    buffer := l.buffer.map fun e => { e with last := none }
    flash := l.flash.map fun e => { e with last := none } }

/-- A reset through PRIME (R371): every register at its reset value; kept are the pins, the always-on
island's registers, the snag log, the life cycle and its keys, the boot directory in flash, and, until they
are wiped (R373), the memories. PRIME waits before instant 1. -/
def State.toPrime (s : State) (cause : BitVec 4) : State :=
  let s := s.allPowerLow
  let r := State.reset
  { r with
    pending := s.pending
    out := s.out
    freeIx := s.freeIx
    nextId := s.nextId
    pw := { r.pw with
      mode := .prime
      primeInstant := 0
      aonValid := s.pw.aonValid
      mainValid := s.pw.mainValid
      perst := s.pw.perst
      wakeN := s.pw.wakeN
      resetCause := s.pw.resetCause
      nextCause := cause
      sens := s.pw.sens
      retention := s.pw.retention
      egress := s.pw.egress
      egressProg := s.pw.egressProg
      lastCompat := s.pw.lastCompat
      lcState := s.pw.lcState
      siteKey := s.pw.siteKey
      deviceKey := s.pw.deviceKey
      minSvn := s.pw.minSvn
      nonce := s.pw.nonce
      reqResult := s.pw.reqResult
      snagSel := s.pw.snagSel
      strap := s.pw.strap
      tap := s.pw.tap }
    snag := { s.snag.restart with index := 0 }
    boot := { r.boot with dir0 := s.boot.dir0, dir1 := s.boot.dir1 }
    disp := { r.disp with gates := s.disp.gates, items := s.disp.items, gens := s.disp.gens }
    mem := { r.mem with hawk := s.mem.hawk, store := s.mem.store, cache := s.mem.cache } }

/-- The wipe of R373: the hawk, the context cache, the stencil store, the gate and item tables, and the egress
store. -/
def State.wipe (s : State) : State :=
  { s with
    pw := { s.pw with egressProg := [] }
    disp := { s.disp with gates := [], items := [], gens := [] }
    mem := { s.mem with hawk := [], store := [], cache := [] } }

/-- Instant 1 of R366: the reset cause is latched and recorded, the frame and cycle counts are 0 (R340, R361), the nonce
is renewed (R388), WAKE_N is released and the wake cause reported (R376). -/
def State.latch (s : State) : State :=
  let nonce := BitVec.ofNat 256 s.freeNat
  let s := if s.pw.wakeN then s.emit (.wakeN false) else s
  let s := s.takeFree.modPw fun w =>
    { w with mode := .prime, primeInstant := 1, resetCause := w.nextCause, nonce := nonce, whsLeft := 4, wakeN := false }
  let s := s.modPl fun l => { l with subN := 0, cycle := 0 }
  let s := s.record 0x01 [BitVec.ofNat 8 s.pw.resetCause.toNat]
  match s.pw.retention with
  | some r =>
    match r.wakeCause with
    | some c =>
      (s.record 0x12 [c]).modPw fun w => { w with retention := some { r with wakeCause := none } }
    | none => s
  | none => s

/-- PRIME begins, when every supply is valid and PERST_N is released (R14, R366): from OFF, from RETAIN, or from
the wait before instant 1. -/
def State.tryStart (s : State) : State :=
  if s.pw.aonValid && s.pw.mainValid && !s.pw.perst then
    match s.pw.mode with
    | .off => (s.toPrime 1).latch
    | .retain => (s.toPrime 3).latch
    | .prime => if s.pw.primeInstant = 0 then s.latch else s
    | _ => s
  else s

/-- A reset through PRIME from a source inside: PRIME starts at once unless it must wait. -/
def State.resetPrime (s : State) (cause : BitVec 4) : State := (s.toPrime cause).tryStart

/-- VDD_AON is lost (R14, R400): OFF, with everything lost but the flash, the keys and the life cycle. -/
def State.toOff (s : State) : State :=
  let s := s.allPowerLow
  let s := if s.pw.wakeN then s.emit (.wakeN false) else s
  let t := s.toPrime 1
  { t with
    pw := { t.pw with
      mode := .off, aonValid := false, wakeN := false, egress := false, retention := none, reqResult := 5, snagSel := 0, lastCompat := false }
    snag := { t.snag with buffer := [] }
    ports := Vector.replicate 32 {}
    pl := {} }

/-- VDD_AON_RISE (R371, R420): the power-on reset, after which the SMBus address straps are sampled; OFF is left once PERST_N is released with all supplies valid. -/
def execVddAonRise (s : State) : Answer :=
  if s.pw.mode == .off then
    .next ((s.modPw fun w => { w with aonValid := true, nextCause := 1, retention := none, reqResult := 5, strap := Config.smbStraps }).tryStart)
  else .next s

/-- VDD_AON_LOSS (R14, R423). -/
def execVddAonLoss (s : State) : Answer := if s.pw.mode == .off then .next s else .next s.toOff

/-- PERST_N_ASSERT (R14, R371): a reset through PRIME that waits before instant 1; in STANDBY the link goes down
and the reset waits for the release; in OFF only the pin changes (DEDUCED, log 150). -/
def execPerstNAssert (s : State) : Answer :=
  if s.pw.perst then .next s
  else
    let s := s.modPw fun w => { w with perst := true }
    match s.pw.mode with
    | .off => .next s
    | .standby => .next (s.modPw fun w => { w with perstPending := true, linkUp := false, l1 := none })
    | _ => .next (s.toPrime 2)

/-- PERST_N_RELEASE (R14, R366): with every supply valid PRIME starts at instant 1; the reset that waited in STANDBY
takes effect. -/
def execPerstNRelease (s : State) : Answer :=
  if !s.pw.perst then .next s
  else
    let s := s.modPw fun w => { w with perst := false }
    if s.pw.mode == .standby && s.pw.perstPending then .next (s.resetPrime 2) else .next s.tryStart

/-- MAIN_SUPPLIES_VALID (R14, R423): every main rail has been valid for 100 ms. -/
def execMainSuppliesValid (s : State) : Answer :=
  .next ((s.modPw fun w => { w with mainValid := true }).tryStart)

/-- PLL_LOCK (R366 instant 2): the first wipe begins. -/
def execPllLock (s : State) : Answer :=
  if s.pw.mode == .prime && s.pw.primeInstant = 1 then .next (s.modPw fun w => { w with primeInstant := 2 }) else .next s

/-- FIRST_WIPE_COMPLETE (R366 instant 3, R373). -/
def execFirstWipeComplete (s : State) : Answer :=
  if s.pw.mode == .prime && s.pw.primeInstant = 2 then
    .next (s.wipe.modPw fun w => { w with primeInstant := 3 })
  else .next s

/-- PCIE_LINK_UP (R4, R366): the link trains, in PRIME after the first wipe, and again after a warm reset. The speed and width to which it
trains are its partner's, and free (log 7). -/
def execPcieLinkUp (s : State) : Answer :=
  let ok := match s.pw.mode with
    | .off | .retain => false
    | .prime => decide (3 ≤ s.pw.primeInstant)
    | _ => !s.pw.perst
  if ok then
    let gen : Fin 4 := ⟨s.freeNat % 4, by omega⟩
    let lanes : Fin 4 := ⟨s.takeFree.freeNat % 4, by omega⟩
    .next (s.takeFree.takeFree.modPw fun w => { w with linkUp := true, linkGen := gen, linkLanes := lanes, l1 := none })
  else .next s

/-- SEQUENCER_WATCHDOG (R371): a reset through PRIME, wherever the sequencer runs (R359). -/
def execSequencerWatchdog (s : State) : Answer :=
  match s.pw.mode with
  | .off | .retain | .standby => .next s
  | _ => .next (s.resetPrime 5)

/-- One replay of a flit, counted in the snag log and by class 0x17 (R11, R343). -/
def State.lathReplay (s : State) (block : BitVec 8) : State :=
  (s.record 0x04 [block]).count { cls := 0x17, inst := none }

/-- LATH_PARITY_ERROR (R11): up to four replays, each counted; four failed replays are a fatal internal error. -/
def execLathParityError (block : BitVec 8) (replays : Nat) (recovered : Bool) (s : State) : Answer :=
  match s.pw.mode with
  | .off | .retain => .next s
  | _ =>
    let n := min replays 4
    let s := s.each (List.range n) fun s _ => s.lathReplay block
    if !recovered && n = 4 then .next ((s.record 0x05 [block, 1]).resetPrime 4) else done s

/-! ### Boot -/

/-- The 64 bytes of a boot directory copy (R364). -/
def BootDir.bytes (d : BootDir) : List Byte :=
  let body := leBytes 4 0x44494C55 ++ leBytes 4 d.dseq.toNat ++
    [BitVec.ofNat 8 (b2n d.active), match d.trial with | none => 0xFF | some t => BitVec.ofNat 8 (b2n t)] ++
    List.replicate 50 0
  body ++ leBytes 4 (crc32c body).toNat

/-- A boot directory copy read from flash (R364): valid when `magic` and its CRC are right. -/
def BootDir.read (bs : List Byte) : BootDir :=
  { valid := numAt bs 0 4 == 0x44494C55 && numAt bs 60 4 == (crc32c (bytesAt bs 0 60)).toNat
    dseq := BitVec.ofNat 32 (numAt bs 4 4)
    active := numAt bs 8 1 != 0
    trial := if numAt bs 9 1 = 0xFF then none else some (numAt bs 9 1 != 0) }

/-- Copy 1 governs: the valid copy, or of two the one with the higher `dseq` modulo 2^32 (R364). -/
def Boot.governs1 (b : Boot) : Bool :=
  if b.dir0.valid && b.dir1.valid then decide (0 < (b.dir1.dseq - b.dir0.dseq).toInt) else b.dir1.valid

/-- The governing copy. -/
def Boot.dir (b : Boot) : BootDir := if b.governs1 then b.dir1 else b.dir0

/-- The directory is changed by rewriting the copy that does not govern, with `dseq` plus 1 (R364). -/
def State.writeDir (s : State) (active : Bool) (trial : Option Bool) : State :=
  let d : BootDir := ⟨true, s.boot.dir.dseq + 1, active, trial⟩
  if s.boot.governs1 then (s.modBoot fun b => { b with dir0 := d }).emit (.flash 0 d.bytes)
  else (s.modBoot fun b => { b with dir1 := d }).emit (.flash 0x1000 d.bytes)

/-- PRIME fails: the controller stays in PRIME until the next reset (R14, R367). -/
def State.failPrime (s : State) : State := s.modPw fun w => { w with primeFailed := true }

/-- SELF_TEST_COMPLETE (R366 instant 5): a failure is recorded and PRIME stays; otherwise the second wipe ends, the
directory is read (R364), and a trial slot is cleared from it before it is read (R367). Without a valid directory the slot tried first is
free (DESIGN CHOICE, log 16). -/
def execSelfTestComplete (failed : Option (BitVec 8)) (dir0 dir1 : List Byte) (s : State) : Answer :=
  if !(s.pw.mode == .prime && s.pw.primeInstant = 3 && !s.pw.primeFailed) then .next s
  else match failed with
    | some code => .next (s.record 0x02 [1, 0, code]).failPrime
    | none =>
      let s := (s.wipe.modPw fun w => { w with primeInstant := 5 }).modBoot fun b =>
        { b with dir0 := BootDir.read dir0, dir1 := BootDir.read dir1 }
      let d := s.boot.dir
      if !d.valid then
        -- no valid copy names a slot: which one is tried first is free (log 16)
        let slot := s.freeNat % 2 == 1
        .next (s.takeFree.modBoot fun b => { b with trying := some slot, isTrial := false, refused := none })
      else match d.trial with
        | some t =>
          .next ((s.writeDir d.active none).modBoot fun b => { b with trying := some t, isTrial := true, refused := none })
        | none => .next (s.modBoot fun b => { b with trying := some d.active, isTrial := false, refused := none })

/-- Code of PRIME_FAIL for a slot (R391). -/
def slotCode (slot : Bool) : BitVec 8 := if slot then 3 else 2

/-- The slot being tried is refused for a reason of R391 (R367): the other is tried, or PRIME fails. -/
def State.refuseSlot (s : State) (reason : BitVec 8) : State :=
  match s.boot.trying with
  | none => s
  | some slot =>
    match s.boot.refused with
    | none =>
      (s.modBoot fun b =>
        { b with refused := some reason, trying := some (!slot), isTrial := false
                 trialFailed := b.trialFailed || b.isTrial }).modPw fun w => { w with primeInstant := 5 }
    | some first => ((s.record 0x02 [slotCode (!slot), first]).record 0x02 [slotCode slot, reason]).failPrime

/-- FIRMWARE_SLOT_READ_DONE (R366 instant 6, R367): the slot was read, or the flash read failed. -/
def execFirmwareSlotReadDone (ok : Bool) (s : State) : Answer :=
  if !(s.pw.mode == .prime && s.pw.primeInstant = 5 && !s.pw.primeFailed) then .next s
  else if ok then .next (s.modPw fun w => { w with primeInstant := 6 })
  else .next (s.refuseSlot 5)

/-- The firmware header is well formed (R365). -/
def fwHeaderOk (img : List Byte) : Bool :=
  let len := numAt img 8 4
  numAt img 0 4 == 0x57464C55 && numAt img 4 2 == 1 && numAt img 6 2 == 0x200 &&
  decide (0x200 ≤ len) && decide (len ≤ 0x200000) && decide (len ≤ img.length) &&
  decide (1 ≤ numAt img 0xC 2) && decide (numAt img 0xC 2 ≤ 63) && decide (numAt img 0xE 2 ≤ 1) &&
  allZero (bytesAt img 0x18 0x68) && numAt img 0x80 1 == 4 && allZero (bytesAt img 0xE1 31) &&
  allZero (bytesAt img 0x160 0xA0)

/-- Why an image is refused under R365, as R391 codes it; none when it is accepted. -/
def fwRefusal (img : List Byte) (minSvn : BitVec 6) : Option (BitVec 8) :=
  let pub := bytesAt img 0x80 128
  let len := numAt img 8 4
  if !fwHeaderOk img then some 1
  else if !Config.fusedDigests.contains (Config.sha384 pub) then some 2
  else if !Config.ecdsaVerify (bytesAt img 0x80 97)
      (Config.sha384 (bytesAt img 0 0x100 ++ bytesAt img 0x200 (len - 0x200))) (bytesAt img 0x100 96) then some 3
  else if numAt img 0xC 2 < minSvn.toNat then some 4
  else none

/-- SIGNATURE_CHECK_DONE (R365, R367): the slot is accepted and boots, a trial slot becoming active, or it is refused. -/
def execSignatureCheckDone (image : List Byte) (s : State) : Answer :=
  if !(s.pw.mode == .prime && s.pw.primeInstant = 6 && !s.pw.primeFailed) then .next s
  else match fwRefusal image s.pw.minSvn with
    | some r => .next (s.refuseSlot r)
    | none =>
      let slot := s.boot.trying.getD false
      let s := if s.boot.isTrial then s.writeDir slot none else s
      .next ((s.modBoot fun b =>
        { b with accepted := true, slot := slot, svn := BitVec.ofNat 6 (numAt image 0xC 2)
                 build := BitVec.ofNat 64 (numAt image 0x10 8)
                 svnCommit := numAt image 0xE 2 % 2 == 1 }).modPw fun w => { w with primeInstant := 7 })

/-! ### RETAIN -/

/-- Entry into RETAIN (R375, R379): the retention registers are written the main domains gated and
the main rails removed (R422); waiting events and due messages are lost (R126). -/
def State.enterRetain (s : State) : State :=
  let r : Retention :=
    { ppwr := Vector.ofFn fun p => (s.port p).ppwrEn
      pullup := Vector.ofFn fun p => (s.port p).pullup
      wakeEn := Vector.ofFn fun p => (s.port p).wakeEn
      wakeCause := none
      egressPort := Vector.ofFn fun p => (s.port p).egressPort
      modeBefore := s.pw.mode
      deepest := 7
      resetCause := s.pw.resetCause }
  let s := s.each allInsts fun s i => s.modInst i fun n => { n with waiting := [], waitData := [], ctrMsgDue := false }
  s.modPw fun w =>
    { w with mode := .retain, mainValid := false, retention := some r, linkUp := false, l1 := none, barsReady := false
             msgQueue := [], perstPending := false, shedStep := 0, acted := 0, hot := false, thermal := 0 }

/-- RETAIN_WAKE (R376): a remote wake on a port that is powered and was enabled to wake, or EGRESS_N (none), drives
WAKE_N low at the first such event. -/
def execRetainWake (src : Option PortNo) (s : State) : Answer :=
  match s.pw.mode, s.pw.retention with
  | .retain, some r =>
    let ok := match src with
      | none => s.pw.egress
      | some p => (s.port p).ppwrEn && vget r.wakeEn p
    if ok && !s.pw.wakeN then
      .next ((s.modPw fun w =>
        { w with wakeN := true
                 retention := some { r with wakeCause := some (match src with | none => 0xFF | some p => BitVec.ofNat 8 p.val) } }).emit
        (.wakeN true))
    else .next s
  | _, _ => .next s

/-! ### The snag log -/

/-- The SPI pins are the controller's (R362). -/
def State.spiOurs (s : State) : Bool := s.pw.mode != .off && s.pw.mode != .retain && !s.pw.perst

/-- SNAG_LOG_FLUSH (R392): the buffer goes to the flash log; when the log wraps its oldest 4 KiB sector goes (DEDUCED, log 120). -/
def execSnagLogFlush (s : State) : Answer :=
  if !s.spiOurs then .next s
  else
    let s' := s.each s.snag.buffer.reverse fun s e =>
      s.emit (.flash (0x450000 + 32 * (e.sseq.toNat % 8192)) e.bytes)
    let all := s.snag.buffer ++ s.snag.flash
    let kept := if all.length ≤ 8192 then all else all.take (all.length - 128)
    .next { s' with snag := { s.snag with buffer := [], flash := kept } }

/-- SNG_INDEX takes writes (R399, R404, R408, R409): halted or not, wherever the native PWR block is decoded. -/
def State.sngOpen (s : State) : Bool :=
  (s.pw.mode.isRunning || s.pw.mode == .standby) && s.pw.barsReady && s.pw.linkUp && (s.inst 0).memSpace && !(s.inst 0).d3hot &&
  !s.inCompat

/-- SNG_INDEX_WRITE (R399, R409): the entry that SNG_ENTRY shows. -/
def execSngIndexWrite (w : Word) (s : State) : Answer :=
  if s.sngOpen then .next { s with snag := { s.snag with index := w.setWidth 32 } } else .next s

/-! ### SMBus reads and RESET -/

/-- The 24 bytes of HEALTH (R394). -/
def State.health (s : State) : List Byte :=
  let v := s.pw.sens
  [BitVec.ofNat 8 s.pw.mode.code, BitVec.ofNat 8 s.pw.shedStep,
   BitVec.ofNat 8 (b2n s.pw.egress + 2 * b2n s.pw.halted + 4 * b2n v.warnLow),
   BitVec.ofNat 8 s.pw.lcState.ctorIdx, BitVec.ofNat 8 s.pw.resetCause.toNat, BitVec.ofInt 8 v.tempC] ++
  leBytes 2 v.coreMv ++ leBytes 2 v.sramMv ++ leBytes 2 v.phyMv ++ leBytes 2 v.aonMv ++
  [BitVec.ofNat 8 s.boot.svn.toNat, 0] ++ leBytes 8 Config.serial.toNat

/-- SMBUS_HEALTH (R393, R394): answered in every mode but OFF. -/
def execSmbusHealth (s : State) : Answer :=
  if s.pw.mode == .off then .next s else .next (s.emit (.smbus s.health))

/-- The answer to a read other than HEALTH and SNAG_ENTRY: NACK in RETAIN, result 0x03 in PRIME (R393). -/
def State.smbusRead (s : State) (reply : List Byte) : State :=
  match s.pw.mode with
  | .off => s
  | .retain => s.emit .smbusNack
  | .prime => s.emit (.smbus [3])
  | _ => s.emit (.smbus reply)

/-- SMBUS_SNAG_RANGE (R394): the oldest and the newest `sseq` held. -/
def execSmbusSnagRange (s : State) : Answer :=
  let q (e : Option Snag) : Nat := (e.map (·.sseq.toNat)).getD 0
  .next (s.smbusRead (leBytes 4 (q s.snag.oldest) ++ leBytes 4 (q s.snag.newest)))

/-- SMBUS_SNAG_ENTRY (R394): the entry named, or zeros when it is not held. -/
def execSmbusSnagEntry (sseq : BitVec 32) (s : State) : Answer :=
  if s.pw.mode == .off then .next s
  else
    let bs := match s.snag.find sseq with
      | some e => e.bytes
      | none => List.replicate 32 0
    .next ((s.modPw fun w => { w with snagSel := sseq }).emit (.smbus bs))

/-- SMBUS_REQ_RESULT (R394, R395). -/
def execSmbusReqResult (s : State) : Answer := .next (s.smbusRead [s.pw.reqResult])

/-- An SMBus order is refused (R395): the result is kept and the refusal recorded (R391). -/
def State.smbusRefuse (s : State) (code port result : BitVec 8) : State :=
  (s.record 0x0F [code, port, result]).modPw fun w => { w with reqResult := result }

/-- SMBUS_RESET (R395): a reset through PRIME when the controller is halted or `bmc_reset_en` is 1. -/
def execSmbusReset (data : BitVec 8) (s : State) : Answer :=
  match s.pw.mode with
  | .off => .next s
  | .retain => .next (s.emit .smbusNack)
  | .prime => .next (s.smbusRefuse 0x30 0xFF 3)
  | _ =>
    if data = 0xA5 && (s.pw.halted || s.pw.bmcResetEn) then
      .next ((s.modPw fun w => { w with reqResult := 0 }).resetPrime 7)
    else .next (s.smbusRefuse 0x30 0xFF 3)

/-- SMBUS_CLOCK_LOW_TIMEOUT (R433): the bus is released and the transaction discarded, so nothing comes of it. -/
def execSmbusClockLowTimeout (s : State) : Answer := .next s

/-! ### JTAG -/

/-- The life-cycle states in which the TAP accepts an instruction (R389). -/
def tapAccepts (lc : LcState) (ins : TapInstr) : Bool :=
  match ins with
  | .bypass | .idcode => true
  | .samplePreload | .extest => lc == .blank || lc == .fieldOpen || lc == .return_
  | .debugCore | .debugLath => lc == .fieldOpen || lc == .return_
  | .other => false

/-- TAP_INSTRUCTION (R389): an instruction that is not accepted selects BYPASS. -/
def execTapInstruction (ins : TapInstr) (s : State) : Answer :=
  .next (s.modPw fun w => { w with tap := if tapAccepts w.lcState ins then ins else .bypass })

/-- TAP_RESET (R434): TRST_N resets the TAP, which selects IDCODE (log 9). -/
def execTapReset (s : State) : Answer := .next (s.modPw fun w => { w with tap := .idcode })

end Sys2Proof.Machine
end

