-- ==== Sys2Proof/Machine/Gates.lean ====
section
/-!
DEFINITION. Gates, dispatcher items and the dispatch trace (10): becoming ready, parking, delivery, release, and
the decrement of a gate, as operations that several commands share.
-/
namespace Sys2Proof.Machine

/-! ### The trace (R303 to R305) -/

/-- What a trace record says (R304). -/
structure TraceRec where
  kind : Nat
  detail : Nat := 0
  item : Nat := 0
  flow : Nat := 0
  gate : Nat := 0
  queue : Nat := 0
  inst : Nat := 0
  group : Nat := 0
  deriving DecidableEq, Repr

/-- Records that the trace ring can hold: 2^(size + 8) (R303). -/
def Trace.entries (t : Trace) : Nat := 2 ^ (t.size.toNat + 8)

/-- The ring is full (R91). -/
def Trace.full (t : Trace) : Bool := (t.tail.toNat + 1) % t.entries == t.head.toNat % t.entries

/-- The 16 bytes of a record (R304). -/
def TraceRec.bytes (r : TraceRec) (time : Nat) : List Byte :=
  leBytes 16 (pack [(0, 8, r.kind), (8, 8, r.detail), (16, 4, r.group), (20, 6, r.inst), (26, 6, r.queue),
    (32, 12, r.gate), (44, 20, r.flow), (64, 16, r.item), (80, 48, time)])

/-- A record is written at `tail` with the physical function's requester ID. -/
def State.traceWrite (s : State) (r : TraceRec) : State :=
  let t := s.disp.trace
  (s.hostWrite 0 (t.base.toNat + 16 * t.tail.toNat) (r.bytes s.pl.cycle.toNat)).modDisp fun d =>
    { d with trace := { d.trace with tail := BitVec.ofNat 20 ((d.trace.tail.toNat + 1) % d.trace.entries) } }

/-- A record that cannot be written is counted (R305). -/
def State.traceLose (s : State) : State :=
  s.modDisp fun d => { d with trace := { d.trace with lost := d.trace.lost + 1 } }

/-- Space and the function's state let the trace be written. -/
def State.traceRoom (s : State) : Bool := !s.disp.trace.full && s.canWrite 0

/-- The LOST record that goes before any later record once space has returned (R305) (DEDUCED, log 116). -/
def State.traceLost (s : State) : State :=
  let n := s.disp.trace.lost
  if n = 0 || !s.traceRoom then s
  else (s.traceWrite { kind := 0x0A, item := min n 0xFFFF }).modDisp fun d => { d with trace := { d.trace with lost := 0 } }

/-- A decision is recorded, if the trace runs and its kind is enabled (R303, R305). -/
def State.trace (s : State) (r : TraceRec) : State :=
  let t := s.disp.trace
  if !t.enable || t.stopped then s
  else if r.kind < 10 && !bitOf t.kinds r.kind then s
  else
    let s := s.traceLost
    if s.disp.trace.lost = 0 && s.traceRoom then s.traceWrite r else s.traceLose

/-! ### Items (R288 to R298) -/

/-- The handle of an item: store index, then generation (R296). -/
def State.handle (s : State) (k : Nat) : Nat := k + ((kget s.disp.gens k).getD 0).toNat * 2 ^ 14

/-- Items that an instance holds (R289). -/
def State.itemsHeld (s : State) (i : InstNo) : Nat := (s.disp.items.filter fun e => e.2.owner == i).length

/-- The instance may reserve one more item (R289). -/
def State.itemRoom (s : State) (i : InstNo) : Bool :=
  decide (s.itemsHeld i < (s.inst i).flowQuota) && decide (s.disp.items.length < 16384)

/-- The store index the next reservation takes: the lowest that is free (log 17). -/
def State.freeItem (s : State) : Nat := (kfree s.disp.items 16384).getD 0

/-- An item is reserved; its entry's generation advances if the entry was used before (R296). -/
def State.reserveItem (s : State) (x : Item) : State :=
  let k := s.freeItem
  s.modDisp fun d =>
    { d with
      items := kset d.items k x
      gens := kset d.gens k (match kget d.gens k with | none => 0 | some g => g + 1) }

/-- An item, and its place in its group's FIFO, goes. -/
def State.dropItem (s : State) (k : Nat) : State :=
  s.modDisp fun d =>
    { d with
      items := kdel d.items k
      groups := match kget d.items k with
        | some x => vset d.groups x.group
            { vget d.groups x.group with fifo := (vget d.groups x.group).fifo.filter (· != k) }
        | none => d.groups }

/-- Two items are of the same flow (R298). -/
def Item.sameFlow (x y : Item) : Bool := x.flow != 0 && x.owner == y.owner && x.flow == y.flow

/-- Items parked on the flow of `x`. -/
def State.parkedOn (s : State) (x : Item) : List (Nat × Item) :=
  s.disp.items.filter fun e => e.2.st == .parked && e.2.sameFlow x

/-- The flow of `x` has an item in service or parked, so that a further one waits behind it (R294, R298). -/
def State.flowBusy (s : State) (x : Item) : Bool :=
  s.disp.items.any fun e => e.2.sameFlow x &&
    (match e.2.st with
     | .inService _ => true
     | .parked => true
     | _ => false)

/-- Trace fields of an item. -/
def State.itemRec (s : State) (k : Nat) (x : Item) (kind detail : Nat) : TraceRec :=
  { kind := kind, detail := detail, item := s.handle k, flow := x.flow.toNat, gate := x.gate.toNat
    inst := x.owner.val, group := x.group.val }

/-- An item joins the tail of its group's FIFO. -/
def State.pushItem (s : State) (k : Nat) (x : Item) : State :=
  (s.modDisp fun d => { d with items := kset d.items k { x with st := .pending } }).modGroup x.group fun g =>
    { g with fifo := g.fifo ++ [k] }

/-- An item is parked behind its flow, with a HOLD record (R294, R304). -/
def State.parkItem (s : State) (k : Nat) (x : Item) : State :=
  let s := s.modDisp fun d => { d with items := kset d.items k { x with st := .parked } }
  s.trace (s.itemRec k x 0x02 (min (s.parkedOn x).length 255))

/-- Item `k` becomes ready (R288, R294): its stamp is taken, READY is traced, and it joins its group's FIFO or is
parked behind its flow. -/
def State.itemReady (s : State) (k : Nat) : State :=
  match kget s.disp.items k with
  | none => s
  | some x =>
    let x := { x with stamp := BitVec.ofNat 32 s.stamp, ready := s.pl.cycle, seq := s.nextId }
    let s := s.takeId.trace (s.itemRec k x 0x01 x.src.toNat)
    if s.flowBusy x then s.parkItem k x else s.pushItem k x

/-- The oldest item parked on the flow of `x` joins the tail of its group's FIFO, with its own ready time (R297) (DEDUCED, log 58). -/
def State.unpark (s : State) (x : Item) : State :=
  let oldest := (s.parkedOn x).foldl (fun (a : Option (Nat × Item)) e => match a with
    | none => some e
    | some b => if e.2.seq < b.2.seq then some e else some b) none
  match oldest with
  | some (k, y) => s.pushItem k y
  | none => s

/-- The flow of `x` has an item pending or in service. -/
def State.flowMoves (s : State) (x : Item) : Bool :=
  s.disp.items.any fun e => e.2.sameFlow x &&
    (match e.2.st with
     | .inService _ => true
     | .pending => true
     | _ => false)

/-- An item is withdrawn before delivery, with a WITHDRAWN record (R301, R304). Items parked behind it go on. -/
def State.withdrawItem (s : State) (k : Nat) : State :=
  match kget s.disp.items k with
  | none => s
  | some x =>
    let s := (s.trace (s.itemRec k x 0x08 0)).dropItem k
    if s.flowMoves x then s else s.unpark x

/-! ### Gates (R299, R300) -/

/-- A gate enters ZERO (R300): GATE_ZERO is traced and its task item becomes ready. -/
def State.gateZero (s : State) (g : Nat) (x : Gate) : State :=
  let s := s.trace { kind := 0x06, detail := b2n x.task.isSome, gate := g, inst := x.owner.val
                     group := (x.task.map (·.group.val)).getD 0, flow := (x.task.map (·.flow.toNat)).getD 0 }
  match x.task with
  | some t => s.itemReady t.item
  | none => s

/-- Instance `i` holds gate `g`, and it is COUNTING. -/
def State.gateCounts (s : State) (i : InstNo) (g : Nat) : Bool :=
  match kget s.disp.gates g with
  | some x => x.owner == i && x.count != 0
  | none => false

/-- A decrement of gate `g` for instance `i`, from a channel or a completion (R299). One of the cycle in which the gate was cancelled has no
further effect (R302). One that finds the gate not
held, ZERO or FREE counts as stray. -/
def State.gateDec (s : State) (i : InstNo) (g : Nat) (chan : Option Nat) : State :=
  if s.disp.absorb.contains g then
    (s.modDisp fun d => { d with absorb := d.absorb.erase g }).count { cls := 0x13, inst := some i, chan := chan }
  else match kget s.disp.gates g with
  | some x =>
    if x.owner = i && x.count != 0 then
      let x := { x with count := x.count - 1 }
      let s := (s.modDisp fun d => { d with gates := kset d.gates g x }).count
        { cls := 0x13, inst := some i, chan := chan }
      if x.count = 0 then s.gateZero g x else s
    else s.modInst i fun n => { n with gateStrays := satInc n.gateStrays }
  | none => s.modInst i fun n => { n with gateStrays := satInc n.gateStrays }

/-! ### Heads (R92) -/

/-- Entries of a transfer ring (R101). -/
def Ep.ringSize (e : Ep) : Nat := 2 ^ (e.trSize + 4)

/-- `head` moved past the entry in progress (R92). -/
def Ep.advance (e : Ep) : Ep := { e with trHead := BitVec.ofNat 16 ((e.trHead.toNat + 1) % e.ringSize) }

/-- `head` passes every slot that has completed in order (R92). -/
def passDone : Nat → Nat → BitVec 16 → List (BitVec 16) → BitVec 16 × List (BitVec 16)
  | 0, _, h, l => (h, l)
  | k + 1, size, h, l =>
    if l.contains h then passDone k size (BitVec.ofNat 16 ((h.toNat + 1) % size)) (l.erase h) else (h, l)

/-- Entries of the command ring (R128). -/
def Inst.cmdEntries (n : Inst) : Nat := 2 ^ (n.cmdSize.toNat + 4)

/-- A command has completed, and `head` advances as far as it can (DEDUCED, log 31). -/
def Inst.retire (n : Inst) (slot : BitVec 16) : Inst :=
  let (h, l) := passDone (n.cmdDone.length + 1) n.cmdEntries n.cmdHead (slot :: n.cmdDone)
  { n with cmdHead := h, cmdDone := l }

/-- An endpoint is open from the write of its OPEN_ENDPOINT's event on (R152, R178). -/
def Ep.opened (e : Ep) (i : InstNo) (slot : BitVec 16) : Ep :=
  if e.inst = i && e.opening == some slot then { e with opening := none, newlyOpen := true } else e

/-- The head of the ring passes what has completed (R92). -/
def State.passHead (s : State) (i : InstNo) (h : HeadOf) : State :=
  match h with
  | .none => s
  | .transfer k => s.modEp k (·.advance)
  | .command slot =>
    let s := s.modInst i (·.retire slot)
    if s.eps.any fun x => x.2.opening.isSome then
      { s with eps := s.eps.map fun (k, e) => (k, e.opened i slot) }
    else s

/-- Messages that waited for the link to be in L0 are sent in order (R124), those of some instances. -/
def State.sendQueued (s : State) (which : InstNo × Nat → Bool) : State :=
  let q := s.pw.msgQueue.filter which
  let s := s.modPw fun w => { w with msgQueue := w.msgQueue.filter fun m => !which m }
  s.each q fun s m => (s.emit (.msix m.1 m.2)).count { cls := 0x11, inst := some m.1 }

/-! ### The return of a function (R125) -/

/-- What the write of an event brings about (R92, R288, R299). -/
def State.after (s : State) (i : InstNo) (w : WaitEvt) : State :=
  let s := s.passHead i w.head
  let s := match w.gate with
    | some g => s.gateDec i g none
    | none => s
  match w.item with
  | some k => s.itemReady k
  | none => s

/-- The function can write again (R125): the waiting data, the waiting events in order, the pending ones, then the message of
every ring with counted events, whatever its moderation state, and the messages that stayed due. -/
def State.hostBack (s : State) (i : InstNo) : State :=
  if !s.canWrite i then s
  else
    let w := (s.inst i).waiting
    let data := (s.inst i).waitData
    let s := s.modInst i fun n => { n with waiting := [], waitData := [] }
    let s := s.each data fun s x => s.hostWrite i x.1 x.2
    let s := s.each w fun s x =>
      ((s.modRing i x.ring fun r => { r with reserved := r.reserved - 1 }).storeEvent i x.ring x.ev (ownMessage x.ev x.vec)).after i x
    let s := s.each allRings fun s e => s.settle i e
    let s := s.each allRings fun s e =>
      if 0 < (s.ring i e).counted then s.fireRing i e
      else if (s.ring i e).mirrorDue && (s.ring i e).enable then s.writeMirror i e else s
    let s := s.each (w.filterMap (·.vec)) fun s v => s.sendMsg i v
    let s := s.sendInstCtr i
    let s := if i = 0 then s.sendDevCtr else s
    let s := if s.pw.l1.isNone then s.sendQueued (·.1 == i)
      else if s.pw.msgQueue.any (·.1 == i) then s.emit .l1Exit else s
    (s.sendPending i).releaseNotices i

end Sys2Proof.Machine
end

