-- ==== Sys2Proof/Machine/Sched.lean ====
section
/-!
DEFINITION. Bus time and the schedule's arithmetic (06): spans, turnaround, costs, dueness, booking and phase
choice, and which work is served.
-/
namespace Sys2Proof.Machine

/-! ### Bus time (R161, R164, R165) -/

/-- Byte-times in a skim span (R161). -/
def spanTime : Speed → Nat
  | .express => 12500
  | _ => 1562

/-- The periodic limit, 80 % (R161). -/
def periodicLimit : Speed → Nat
  | .express => 10000
  | _ => 1250

/-- The control share, 5 % (R161). -/
def controlShare : Speed → Nat
  | .express => 625
  | _ => 78

/-- The end margin of the span of subframe `n` (R27, R63, R161). -/
def endMargin (v : Speed) (n : Nat) : Nat :=
  match v with
  | .express => if n % 8 = 7 then 200 else 4
  | .standard => if n % 8 = 7 then 25 else 4
  | _ => 4

/-- The turnaround charge T(t) (R164). -/
def turnCharge (v : Speed) (t : Nat) : Nat :=
  match v with
  | .express => 5 + 4 * t
  | .standard => 2 + t
  | _ => 1 + t

/-- The turnaround timeout in whole byte-times (R42, R164). -/
def timeout (v : Speed) (t : Nat) : Nat :=
  match v with
  | .express => 80 + 20 * t
  | .standard => 20 + 5 * t
  | _ => (10000 + 2000 * t + 639) / 640

/-- `tmo_base_ns` of PRT_TIMING (R88): the turnaround base of R42 in ns, 0 with no speed. -/
def tmoBaseNs : Speed → Nat
  | .express => 800 | .standard => 1600 | .reach => 10000 | .none => 0

/-- `tmo_tier_ns` of PRT_TIMING (R88): the allowance of R42 for each tier in ns, 0 with no speed. -/
def tmoTierNs : Speed → Nat
  | .express => 200 | .standard => 400 | .reach => 2000 | .none => 0

/-- `svc_cost` of a periodic endpoint (R165). -/
def svcCost (v : Speed) (t mb : Nat) (inward : Bool) : Nat := (if inward then 27 else 38) + mb + turnCharge v t

/-- The longest answered periodic round (R165). -/
def longestService (v : Speed) (t mb : Nat) (inward : Bool) : Nat := (if inward then 27 else 38) + mb + timeout v t

/-- The longest IN round of `n` blocks (R27, R187): the POLL, a timeout and a block each time, the ACK and the gaps (DEDUCED, log 99). -/
def longestIn (v : Speed) (t mb n : Nat) : Nat :=
  tokenTime + n * (timeout v t + dataTime mb) + gapTime + ackTime + gapTime

/-- `m` blocks after their PUSH with the gaps (R41). -/
def segmentTime (mb m : Nat) : Nat := tokenTime + m * (gapTime + dataTime mb)

/-- The longest OUT round of `n` blocks in one segment (R27, R187). -/
def longestOut (v : Speed) (t mb n : Nat) : Nat := segmentTime mb n + timeout v t + ackTime + gapTime

/-- A setup round (R187): SETUP, the 8-byte block, one timeout and the ACK, with their gaps. -/
def longestSetup (v : Speed) (t : Nat) : Nat := longestOut v t 8 1

/-- The bus position before which every round of a span ends (R27, R63, R177). -/
def spanLimit (v : Speed) (n : Nat) : Nat := spanTime v - endMargin v n

/-! ### Devices, endpoints, ports -/

def Ep.inward (e : Ep) : Bool := bitOf e.epid 4

/-- The device record of an endpoint. -/
def State.epDev (s : State) (e : Ep) : Option DevRec := s.dev e.zone

/-- The root port of an endpoint. -/
def State.epPort (s : State) (e : Ep) : Option PortNo := (s.epDev e).map (·.port)

/-- The tier of an endpoint's device. -/
def State.epTier (s : State) (e : Ep) : Nat := ((s.epDev e).map (·.tier)).getD 1

/-- Instance-local endpoint index of a slot (R96). -/
def State.localIx (s : State) (e : Ep) (k : Nat) : Nat := k - (s.inst e.inst).epBase

/-- The branch below a hub port can be sent tokens (R83, R248, R254, R255). -/
def HPort.up (x : HPort) : Bool := x.usable && !x.moving && !x.disabled

/-- The device at `z` can be sent tokens: addressed, not awaiting, its branch usable (R57, R221, R254, R255). -/
def State.reachable (s : State) (z : Nat) : Bool :=
  match s.dev z with
  | none => false
  | some d =>
    d.st == .addressed && !d.awaiting &&
      -- every hub port on the way down
      (go 7 d)
where
  go : Nat → DevRec → Bool
    | 0, _ => true
    | k + 1, d =>
      if d.tier ≤ 1 then true
      else match s.dev d.parent with
        | none => false
        | some h => ((kget h.hports d.phport).map (·.up)).getD true && go k h

/-- A token to address 0 may go on port `p`: exactly one position of its tree is at the default address (R22, R441), and its hub can be
reached. -/
def State.zeroGoes (s : State) (p : PortNo) : Bool :=
  match s.tree.marks.filter fun q => q.port == p with
  | [q] => q.hub == 0 || s.reachable q.hub
  | _ => false

/-- A port is usable (R217). -/
def State.usable (s : State) (p : PortNo) : Bool :=
  let x := s.port p
  x.st == .enabled && !x.recovering && !x.tokenWait && s.runs

/-- A port is in service: ENABLED, while the controller keeps time (R26). -/
def State.inService (s : State) (p : PortNo) : Bool := (s.port p).st == .enabled && s.alive

/-- Speed that `max_speed` allows (R172, R85). -/
def Port.topSpeed (x : Port) : Speed :=
  match x.maxSpeed.toNat with
  | 0 => .reach
  | 1 => .standard
  | _ => .express

/-- A port running at Express is to move to Standard (R68): for `max_speed`, or for step 1 of the ladder once its action is in force
(R378). -/
def State.wantsDown (s : State) (p : PortNo) : Bool :=
  let x := s.port p
  x.st == .enabled && x.speed == .express && (x.topSpeed != .express || s.pw.acted != 0)

/-- The bus position before which a control or bulk round of a port ends (R27): 20 µs before the tick where the port is to move down
(R68; for control rounds DEDUCED, log 147). -/
def State.workLimit (s : State) (p : PortNo) : Nat :=
  let v := (s.port p).speed
  let n := spanLimit v s.pl.subN
  if s.wantsDown p then min n (spanTime v - 2000) else n

/-! ### Use of a context (R102) -/

/-- The context of a holder is in the cache; what has no endpoint context needs none, and without a backing store nothing leaves it. -/
def State.cachedOf (s : State) (h : Holder) : Bool :=
  match h with
  | .ep k => !s.mem.bsLock || s.mem.cache.contains k
  | _ => true

/-- The context of slot `k` is used (R102): it becomes the most recently used, or, on a miss, it is read from the store; the miss is counted
once. -/
def State.touch (s : State) (k : Nat) : State :=
  if !s.mem.bsLock then s
  else if s.mem.cache.contains k then s.modMem fun m => { m with cache := k :: m.cache.filter (· != k) }
  else if s.mem.reading.contains k then s
  else
    let s := s.modMem fun m => { m with misses := satInc m.misses, reading := k :: m.reading }
    let s := s.count { cls := 0x16, inst := (s.ep k).map (·.inst), port := ((s.ep k).bind s.epPort).map (·.val) }
    s.hostRead 0 (s.mem.bsBase.toNat + 64 * k) 64 none none

/-- The context of a holder is used. -/
def State.touchOf (s : State) : Holder → State
  | .ep k => s.touch k
  | _ => s

/-- What needs a holder's context goes on with it, or waits for the read of it (R102). -/
def State.withContext (s : State) (h : Holder) (f : State → Answer) : Answer :=
  if s.cachedOf h then f (s.touchOf h) else done (s.touchOf h)

/-- The speed at which costs and reservations are reckoned (R172). -/
def Port.reckon (x : Port) : Speed := if x.reckoned == .none then x.topSpeed else x.reckoned

/-- A change of speed whose conversion has not yet run (R175). -/
def Port.converting (x : Port) : Bool := x.speed != .none && x.speed != x.reckoned

/-- The speed by which a port's spans are reckoned. -/
def Port.spanSpeed (x : Port) : Speed := if x.speed == .none then x.reckon else x.speed

/-- The instance does work: the controller runs, and the instance is RUNNING (R313, R315) and can write. -/
def State.takesWork (s : State) (i : InstNo) : Bool := s.canWrite i && (s.inst i).st == .running

/-- The instance is served as decided at the last cut-off (R313), and not halted since. -/
def State.servedNow (s : State) (i : InstNo) : Bool := s.runs && (s.inst i).served && !(s.inst i).halted

/-- An operation of the instance other than its Function Level Reset runs (R325). -/
def Inst.operating (n : Inst) : Bool :=
  match n.op with
  | .saving | .restoring => true
  | _ => false

/-- The instance's work is being cut at its block boundaries (R319): a quiesce with `abort`, a freeze, or a Function Level Reset
or cleared VF Enable that has reached it. -/
def State.cutting (s : State) (i : InstNo) : Bool :=
  let n := s.inst i
  n.st == .frozen || (n.st == .quiescing && n.abort) || (n.flrAsked && !n.operating)

/-- Services in lists fixed before a quiesce with `abort` 0 began are still given (R319). -/
def State.finishing (s : State) (i : InstNo) : Bool :=
  let n := s.inst i
  s.runs && n.st == .quiescing && !n.abort && !n.flrAsked

/-- Shedding step 6 has taken the endpoint's service (R167, R378). -/
def State.shedOut (s : State) (e : Ep) : Bool := decide (6 ≤ s.pw.acted) && !e.egressSafe

/-- `served(e.instance)` of R177 with the row of shedding (R167). -/
def State.servedEp (s : State) (e : Ep) : Bool := s.servedNow e.inst && !s.shedOut e

/-! ### Dueness and booking (R173, R174, R177) -/

/-- `due(e, N)` of R177. -/
def dueAt (v : Speed) (n phase sub : Nat) : Bool :=
  if v == .reach then
    sub % 8 == 0 && (decide (n < 3) || sub % 2 ^ n == phase - phase % 8)
  else sub % 2 ^ n == phase

/-- The endpoint is booked in entry `k` of the table (R173). -/
def bookedAt (v : Speed) (n phase k : Nat) : Bool :=
  let m := min n 8
  if v == .reach then
    k % 8 == 0 && (decide (n < 3) || k % 2 ^ m == (phase - phase % 8) % 2 ^ m)
  else k % 2 ^ m == phase % 2 ^ m

/-- What is booked: instance, port, cost, interval and phase. -/
structure Booking where
  slot : Nat
  inst : InstNo
  port : PortNo
  cost : Nat
  interval : Nat
  phase : Nat
  deriving DecidableEq, Repr

/-- The bookings of open periodic endpoints and, for the manager, of hub status endpoints (R173, R240). A changed schedule is
booked as it will be (R139). Hubs are numbered after the endpoint slots. -/
def State.bookings (s : State) : List Booking :=
  (s.eps.filterMap fun (k, e) =>
    if e.kind == .periodic then
      let (n, q) := e.newSched.getD (e.interval, e.phase)
      (s.epPort e).map fun p => ⟨k, e.inst, p, e.svcCost, n, q⟩
    else none) ++
  s.devs.filterMap fun (z, d) =>
    if d.statusOn then some ⟨131072 + z, 0, d.port, svcCost (s.port d.port).reckon d.tier 2 true, 3, d.statusPhase⟩
    else none

/-- Booked load of an instance on a port in entry `k` (R173). -/
def loadAt (bs : List Booking) (i : InstNo) (p : PortNo) (v : Speed) (k : Nat) : Nat :=
  bs.foldl (fun a b => if b.inst == i && b.port == p && bookedAt v b.interval b.phase k then a + b.cost else a) 0

/-- Largest load over the entries in which an endpoint of this interval and phase would be booked. -/
def peakAt (bs : List Booking) (i : InstNo) (p : PortNo) (v : Speed) (n q : Nat) : Nat :=
  (List.range 256).foldl (fun a k => if bookedAt v n q k then max a (loadAt bs i p v k) else a) 0

/-- Booked peak of an instance on a port (R201). -/
def State.bookedPeak (s : State) (i : InstNo) (p : PortNo) : Nat :=
  (List.range 256).foldl (fun a k => max a (loadAt s.bookings i p (s.port p).reckon k)) 0

/-- `choose_phase` of R174; none for NO_RESOURCES. -/
def choosePhase (bs : List Booking) (i : InstNo) (p : PortNo) (v : Speed) (n cost units : Nat) : Option Nat :=
  let period := 2 ^ min n 8
  let step := if v == .reach then 8 else 1
  let qs := (List.range ((period + step - 1) / step)).map (· * step)
  (qs.foldl (fun (best : Option (Nat × Nat)) q =>
    let peak := peakAt bs i p v n q
    if units < peak + cost then best
    else match best with
      | none => some (q, peak)
      | some (_, b) => if peak < b then some (q, peak) else best) none).map (·.1)

/-- The endpoint is counted in entry `k` for the pinning limit (R173): on a Reach port also in the seven
entries that follow each of its own. -/
def countedAt (v : Speed) (n q k : Nat) : Bool :=
  if v == .reach then bookedAt v n q (k - k % 8) else bookedAt v n q k

/-- Every pair of neighbouring entries counts at most 6,144 distinct endpoints (R173). -/
def State.pinsFit (s : State) (bs : List Booking) : Bool :=
  (List.range 256).all fun k =>
    decide ((bs.filter fun b =>
      let v := (s.port b.port).reckon
      countedAt v b.interval b.phase k || countedAt v b.interval b.phase ((k + 1) % 256)).length ≤ 6144)

end Sys2Proof.Machine
end

