-- ==== Sys2Proof/Machine/Operands.lean ====
section
/-!
DEFINITION. The operand forms: the fields of transfer entries (R103, R104), the codes of statuses (R137), TRANSFER
and COMMAND events (R107, R108).
-/
namespace Sys2Proof.Machine

/-- Code of a status (R137). -/
def Status.code : Status → Nat
  | .success => 0x01 | .short => 0x02 | .silent => 0x03 | .crcExhausted => 0x04 | .stalled => 0x05 | .babble => 0x06
  | .portReset => 0x07 | .powerAbort => 0x08 | .stopped => 0x09 | .cancelled => 0x0A | .quiesceAbort => 0x0B
  | .detached => 0x0C | .missedService => 0x0D
  | .cmdOk => 0x20 | .paramInvalid => 0x21 | .notPermitted => 0x22 | .notQuiesced => 0x23
  | .shareBelowReserved => 0x24 | .busy => 0x25 | .conflict => 0x26 | .imageUnsealed => 0x27 | .imageForeign => 0x28
  | .noResources => 0x29 | .halted => 0x2A

/-! ### Transfer entries (R103) -/

def teTag (t : TEntry) : Nat := fld t 255 192
def teSetup (t : TEntry) : Nat := fld t 191 128
def teGate (t : TEntry) : Nat := fld t 127 116
def teGateEn (t : TEntry) : Bool := bitOf t 115
def teSuppress (t : TEntry) : Bool := bitOf t 114
def teIrqNow (t : TEntry) : Bool := bitOf t 113
def teDirIn (t : TEntry) : Bool := bitOf t 112
def teType (t : TEntry) : Nat := fld t 111 108
def teLength (t : TEntry) : Nat := fld t 87 64
def teBuf (t : TEntry) : Nat := fld t 63 0

/-! ### Codes of malformed work -/

/-- Codes of R114. -/
def mUnknownOpcode : Nat := 0x01
def mReservedSet : Nat := 0x02
def mLengthRange : Nat := 0x03
def mMisaligned : Nat := 0x04
def mOutsideHawk : Nat := 0x05
def mTailInvalid : Nat := 0x06
def mDbReserved : Nat := 0x07
def mTargetRange : Nat := 0x08
def mTypeMismatch : Nat := 0x09
def mHostRefused : Nat := 0x0A
def mContextCheck : Nat := 0x0B

/-- The least and greatest `length` of a transfer entry of an endpoint (R104). -/
def Ep.lengthRange (e : Ep) : Nat × Nat :=
  match e.kind with
  | .control => (0, 4096)
  | .periodic => if e.inward then (e.maxBlock, 256) else (0, e.maxBlock)
  | .bulk => (0, 4194304)

/-- The code of a malformed transfer entry, in the order of the table of R114; none when it is well formed. -/
def teMalformed (e : Ep) (t : TEntry) : Option Nat :=
  let r := e.lengthRange
  if teType t != 1 && teType t != 2 then some mUnknownOpcode
  else if fld t 107 88 != 0 || (teType t == 1 && (teSetup t != 0 || teDirIn t)) then some mReservedSet
  else if teLength t < r.1 || r.2 < teLength t then some mLengthRange
  else if teBuf t % 4 != 0 then some mMisaligned
  else if (teType t == 2) != (e.kind == .control) then some mTypeMismatch
  else none

/-! ### Rings of an endpoint -/

/-- The ring holds an entry that has not been taken (R91). -/
def Ep.hasEntry (e : Ep) : Bool := e.cur.isNone && e.trHead != e.trTail

/-- The slot of the next entry to take: `head`, as one entry is in progress at a time (log 18). -/
def Ep.nextSlot (e : Ep) : BitVec 16 := e.trHead

/-! ### Events of completions -/

/-- A TRANSFER event (R107). -/
def transferEvent (tag stamp bytes local' slot status : Nat) : Event :=
  BitVec.ofNat 256 (pack [(0, 8, 0x01), (8, 8, status), (16, 16, slot), (32, 17, local'), (64, 24, bytes),
    (96, 32, stamp), (192, 64, tag)])

/-- A COMMAND event (R108); `result` stands in bits [127:32]. -/
def commandEvent (tag result slot status : Nat) : Event :=
  BitVec.ofNat 256 (pack [(0, 8, 0x02), (8, 8, status), (16, 16, slot), (32, 96, result), (192, 32, tag)])

/-- A COMMIT event (R196). -/
def commitEvent (frame subframe slots sent answered stamp gate commit status : Nat) : Event :=
  BitVec.ofNat 256 (pack [(0, 8, 0x07), (8, 8, status), (16, 8, commit), (32, 12, gate), (96, 32, stamp),
    (144, 16, answered), (160, 16, sent), (176, 16, slots), (192, 32, frame), (224, 3, subframe)])

end Sys2Proof.Machine
end

