-- ==== Sys2Proof/Machine/Transfers.lean ====
section
/-!
DEFINITION. Completing work: transfer entries with their events, gates and items (R92, R103, R107, R288, R299),
commits and their slots (R189 to R197), deliveries to the host (R16, R204), and ending the work of an endpoint
at a halt, a reset, a detach, a close or a quiesce.
-/
namespace Sys2Proof.Machine

/-! ### Transfer entries -/

/-- The item of a completion with its values (R288, R296). -/
def Item.completed (x : Item) (t : TEntry) (bytes : Nat) (status : Status) (slot : BitVec 16) (loc : Nat) : Item :=
  { x with
    tag := BitVec.ofNat 64 (teTag t), bytes := BitVec.ofNat 24 bytes, status := BitVec.ofNat 8 status.code
    ringIndex := slot, ep := BitVec.ofNat 17 loc }

/-- The entry in progress of endpoint `k` completes (R92, R103, R104, R107): its event is posted into the slot reserved for
it, or suppressed on SUCCESS; `head` passes it, its gate is decremented and its item becomes ready as the event's write is
issued. A halted instance posts nothing, passes nothing, decrements nothing and makes no item (R117, R288). -/
def State.completeAt (s : State) (k : Nat) (st : Status) (stamp : Nat) : State :=
  match s.ep k with
  | none => s
  | some e =>
    match e.cur with
    | none => s
    | some x =>
      let i := e.inst
      let loc := s.localIx e k
      let t := x.entry
      let gate := if teGateEn t then some (teGate t) else none
      let w : WaitEvt :=
        ⟨e.evtRing, transferEvent (teTag t) stamp x.bytes loc x.slot.toNat st.code, teIrqNow t, none, .transfer k, gate, x.item⟩
      let halted : Bool := (s.inst i).halted || s.pw.halted
      let s := s.setEp k { e with cur := none, bytesDone := if halted then e.bytesDone else e.bytesDone + BitVec.ofNat 64 x.bytes }
      if halted then
        let s := s.modRing i e.evtRing fun r => { r with reserved := r.reserved - 1 }
        match x.item with
        | some a => s.dropItem a
        | none => s
      else
        let s := match x.item with
          | some a => s.modDisp fun d => { d with items := kupd d.items a (·.completed t x.bytes st x.slot loc) }
          | none => s
        if teSuppress t && st == .success then (s.unreserve i e.evtRing).after i w
        else if s.canWrite i then (s.postWait i w).after i w
        else s.postWait i w

/-- The entry in progress of endpoint `k` completes now. -/
def State.complete (s : State) (k : Nat) (st : Status) : State := s.completeAt k st s.stamp

/-- An entry as it is taken (R118, R289). -/
def Xfer.fresh (slot : BitVec 16) (t : TEntry) (ctl : Bool) (item : Option Nat) : Xfer :=
  { slot := slot, entry := t, bytes := 0, stage := if ctl then .setup else .body, item := item, staging := none
    short := false }

/-! ### Commits -/

/-- The released commit that endpoint `k` still has a slot to send for (R195), with its number. -/
def State.commitOf (s : State) (k : Nat) : Option (Nat × Commit) :=
  s.commits.find? fun (_, c) => c.phase == .released && c.slots.any fun x => x.ep == k && x.ended.isNone

/-- The slot of that commit that a service in the present subframe sends: from the release subframe on (R193, R195). -/
def State.slotOf (s : State) (k : Nat) : Option CSlot :=
  (s.commitOf k).bind fun (_, c) => if c.subN ≤ s.pl.subN then c.slots.find? fun x => x.ep == k && x.ended.isNone else none

/-- Status of a finished commit (R195): SUCCESS, or that of the first slot that did not end answered. -/
def Commit.status (c : Commit) : Status :=
  match c.slots.find? fun x => x.ended != some .success with
  | some x => x.ended.getD .missedService
  | none => .success

/-- A commit ends: its endpoints are unbound and its COMMIT event is posted (R195, R196). -/
def State.endCommit (s : State) (n : Nat) (c : Commit) (st : Status) : State :=
  let ev := commitEvent (c.subN / 8) (c.subN % 8) c.slots.length (c.slots.filter (·.sent)).length
    (c.slots.filter (·.answered)).length s.stamp c.gate n st.code
  let s := s.each c.slots fun s x => s.modEp x.ep fun e => { e with commitRef := if fld e.commitRef 30 23 = n then 0 else e.commitRef }
  State.post { s with commits := kdel s.commits n } c.inst c.ring ev false

/-- A commit with a slot changed; it ends once every slot has ended (R195). -/
def State.putCommit (s : State) (n : Nat) (c : Commit) : State :=
  let s := { s with commits := kset s.commits n c }
  if c.phase == .released && c.slots.all (·.ended.isSome) then s.endCommit n c c.status else s

/-- The released slot of endpoint `k` ends with a status (R195). -/
def State.endSlot (s : State) (k : Nat) (st : Status) : State :=
  match s.commitOf k with
  | none => s
  | some (n, c) =>
    s.putCommit n { c with slots := c.slots.map fun x =>
      if x.ep == k && x.ended.isNone then { x with ended := some st, answered := st == .success } else x }

/-- The slot of endpoint `k` is sent; it counts in `sent` when its release subframe carries it (R196). -/
def State.markSent (s : State) (k : Nat) : State :=
  match s.commitOf k with
  | none => s
  | some (n, c) =>
    let reach : Bool := match (s.ep k).bind s.epPort with
      | some p => (s.port p).speed == .reach
      | none => false
    let now : Bool := if reach then s.pl.subN / 8 == c.subN / 8 else s.pl.subN == c.subN
    let c := { c with slots := c.slots.map fun x => if x.ep == k && x.ended.isNone && now then { x with sent := true } else x }
    { s with commits := kset s.commits n c }

/-- A commit that the planner found not released ends (R192). -/
def State.missCommit (s : State) (n : Nat) (c : Commit) : State := s.endCommit n c .missedService

/-! ### Deliveries -/

/-- A delivery is made ready for TRANSACTION_DELIVERY_DONE (R204). -/
def State.addDelivery (s : State) (k off : Nat) (data : List Byte) (fin : Option Status) (txn : Option (TrowelNo × Nat)) : State :=
  let late := !s.canWrite (((s.ep k).map (·.inst)).getD 0)
  let d : Delivery :=
    { id := s.nextId, ep := k, off := off, data := data, fin := fin, txn := txn, since := if late then some s.stamp else none }
  ({ s.takeId with deliveries := s.deliveries ++ [d] }).modEp k fun e => { e with delivering := true }

/-- A trowel's slot is released when delivery ends (R204). -/
def State.freeSlot (s : State) (t : Option (TrowelNo × Nat)) : State :=
  match t with
  | none => s
  | some (k, id) => s.modTrowel k fun w => { w with slots := w.slots.filter fun x => x.id != id }

/-- Data of a delivery written to the buffer of the entry in progress (R16, R112). -/
def State.writeDelivery (s : State) (d : Delivery) : State :=
  match (s.ep d.ep).bind fun e => e.cur.map fun x => (e.inst, x.entry) with
  | some (i, t) =>
    s.putData i (teBuf t + d.off) d.data (d.txn.map (·.1.val))
  | none => s

/-- A delivery is made (R16, R112, R204): data, then the entry's completion, then the slot is free. -/
def State.deliver (s : State) (d : Delivery) : State :=
  let s := { s with deliveries := s.deliveries.filter fun x => x.id != d.id }
  let s := s.writeDelivery d
  let s := match d.fin with
    | some st => s.completeAt d.ep st (d.since.getD s.stamp)
    | none => s
  let s := s.freeSlot d.txn
  let more := s.deliveries.any fun x => x.ep == d.ep
  s.modEp d.ep fun e => { e with delivering := more, picked := e.picked && d.txn.isNone }

/-! ### Ending an endpoint's work -/

/-- Transactions of a holder leave their queue or trowel (R206, R209). -/
def State.dropTxns (s : State) (h : Holder) : State :=
  let s := s.each allPorts fun s p =>
    if (s.port p).queue.any (fun t => t.who == h) then
      s.modPort p fun x => { x with queue := x.queue.filter fun t => t.who != h }
    else s
  s.each allTrowels fun s k =>
    if (s.trowel k).slots.any (fun t => t.who == h) then
      s.modTrowel k fun w => { w with slots := w.slots.filter fun t => t.who != h }
    else s

/-- The round of a holder on its line ends with no outcome (R55, R222, R251). -/
def State.dropRound (s : State) (h : Holder) : State :=
  s.each allPorts fun s p =>
    match (s.port p).round with
    | some r => if r.who == h then s.modPort p fun x => { x with round := none, gap := none } else s
    | none => s

/-- Data accepted for the entry in progress and not yet in its buffer: from deliveries, and from a round cut short. -/
def State.roundData (s : State) (k : Nat) : List Byte :=
  (allPorts.filterMap fun p => (s.port p).round.bind fun r =>
    if r.who == .ep k && r.kind != .perIn then some r.rx else none).flatten

/-- The entry in progress takes `bs` more bytes, at most to its `length`. -/
def Xfer.take (x : Xfer) (bs : List Byte) : Xfer := { x with bytes := x.bytes + min bs.length (teLength x.entry - x.bytes) }

/-- The work of endpoint `k` stops where it stands (R56, R57, R207, R222, R251): accepted data is written to the
buffer, its transactions and round go, and its entry in progress, if any, completes with a status. -/
def State.stopEp (s : State) (k : Nat) (st : Status) : State :=
  let tail := s.roundData k
  let s := (s.deliveries.filter fun d => d.ep == k).foldl State.writeDelivery s
  let s := match (s.ep k).bind fun e => e.cur.map fun x => (e, x) with
    | some (e, x) =>
      let n := min tail.length (teLength x.entry - x.bytes)
      let s := s.putData e.inst (teBuf x.entry + x.bytes) (tail.take n) none
      s.modEp k fun e => { e with cur := some (x.take tail) }
    | none => s
  let s := { s with deliveries := s.deliveries.filter fun d => d.ep != k }
  let s := (s.dropTxns (.ep k)).dropRound (.ep k)
  let s := s.modEp k fun e => { e with picked := false, delivering := false, backoff := false, carry := [], carryEot := false }
  s.complete k st

/-- Transactions of a holder leave their queue or trowel, but for one whose delivery is still to be made (R209, R323). -/
def State.cutTxns (s : State) (h : Holder) : State :=
  let gone (t : Txn) : Bool := t.who == h && t.phase != .delivery
  let s := s.each allPorts fun s p =>
    if (s.port p).queue.any gone then s.modPort p fun x => { x with queue := x.queue.filter fun t => !gone t } else s
  s.each allTrowels fun s k =>
    if (s.trowel k).slots.any gone then s.modTrowel k fun w => { w with slots := w.slots.filter fun t => !gone t } else s

/-- A delivery of endpoint `k` that ends its entry is still to be made. -/
def State.ending (s : State) (k : Nat) : Bool := s.deliveries.any fun d => d.ep == k && d.fin.isSome

/-- The last delivery of endpoint `k` also ends its entry. -/
def endLast (k : Nat) (st : Status) (l : List Delivery) : List Delivery :=
  match (l.filter fun d => d.ep == k).getLast? with
  | some d => l.map fun x => if x.id = d.id then { x with fin := some st } else x
  | none => l

/-- The entry in progress of endpoint `k` completes with a status and the bytes moved, after the deliveries that it still has
(R16, R44); one of them that ends the entry already stands. -/
def State.completeAfter (s : State) (k : Nat) (st : Status) : State :=
  if s.ending k || ((s.ep k).bind (·.cur)).isNone then s
  else if s.deliveries.any fun d => d.ep == k then { s with deliveries := endLast k st s.deliveries }
  else s.complete k st

/-- The entry in progress of endpoint `k` ends with QUIESCE_ABORT and the bytes moved (R319). -/
def State.abortEntry (s : State) (k : Nat) : State := s.completeAfter k .quiesceAbort


/-- The work of endpoint `k` is dropped without an event (R319, R322). -/
def State.discardEp (s : State) (k : Nat) : State :=
  let s : State := { s with deliveries := s.deliveries.filter fun (d : Delivery) => d.ep != k }
  (s.dropTxns (.ep k)).dropRound (.ep k)

/-- An endpoint halts (R44, R46, R53): counted as EP_HALT, its released slot ends and its entry completes with the
halt's status. -/
def State.haltEp (s : State) (k : Nat) (st : Status) : State :=
  match s.ep k with
  | none => s
  | some e =>
    let s := s.modEp k fun e => { e with st := .halted }
    let s := s.count { cls := 0x06, inst := some e.inst, port := (s.epPort e).map (·.val) }
    (s.endSlot k st).completeAfter k st

/-- The sequence state and counts of an endpoint at 0 (R36, R54). -/
def Ep.clear (e : Ep) : Ep :=
  { e with nextSeq := 0, expectSeq := 0, errCount := 0, retryCount := 0, silenceRun := 0, backoff := false }

/-- Endpoint slots of a device. -/
def State.epsOf (s : State) (z : Nat) : List Nat := (s.eps.filter fun e => e.2.zone == z).map (·.1)

/-- A port reset reaches the device at `z` (R56, R57): each entry in progress completes with PORT_RESET, sequence states go
to 0, released slots end, and no entry is taken until the device is addressed again. Detached devices stay so. -/
def State.resetDevice (s : State) (z : Nat) : State :=
  match s.dev z with
  | none => s
  | some d =>
    if d.st == .detached then s
    else
      let s := s.each (s.epsOf z) fun s k =>
        let s := (s.endSlot k .portReset).stopEp k .portReset
        s.modEp k fun e =>
          let e := { e with nextSeq := 0, expectSeq := 0, st := .stopped, force := none }
          if e.kind == .control then e.clear else e
      let s := s.dropRound (.hub z)
      s.modDev z fun d =>
        { d with awaiting := true, resetGen := d.resetGen + 1, statusSeq := 0, st := .addressed,
                 hports := d.hports.map fun (k, x) => (k, { posted := x.posted }) }

end Sys2Proof.Machine
end

