-- ==== Sys2Proof/Machine/Rounds.lean ====
section
/-!
DEFINITION. Rounds on the line (R36 to R54): outcomes and counts, the periodic services, IN bursts and OUT bursts, control
stages, and what an end of a round does to its endpoint, transaction and entry.
-/
namespace Sys2Proof.Machine

/-! ### Outcomes and counts (R43 to R45) -/

/-- The outcome of a round (R43). -/
inductive RoundEnd where
  | answered | silence | corrupt | stall | babble
  deriving DecidableEq, Repr

/-- The counts that a round's outcome changes. -/
structure Tally where
  err : Nat
  retry : Nat
  run : Nat
  lastSilence : Bool
  deriving DecidableEq, Repr

/-- The counts after an outcome, and whether retries were exhausted by it (R43, R101). -/
def Tally.after (t : Tally) (limit : Nat) (o : RoundEnd) : Tally × Bool :=
  match o with
  | .answered => ({ t with err := 0, retry := 0, run := 0 }, false)
  | .silence => ({ t with err := min 7 (t.err + 1), run := min 15 (t.run + 1), lastSilence := true }, false)
  | .corrupt =>
    if limit < t.retry + 1 then ({ err := min 7 (t.err + 1), retry := 0, run := 0, lastSilence := false }, true)
    else ({ t with retry := t.retry + 1, run := 0 }, false)
  | .stall => ({ t with err := 0, retry := 0, run := 0 }, false)
  | .babble => (t, false)

/-- The status of a halt on the error count (R44). -/
def Tally.haltStatus (t : Tally) : Status := if t.lastSilence then .silent else .crcExhausted

def Ep.tally (e : Ep) : Tally := ⟨e.errCount, e.retryCount, e.silenceRun, e.lastSilence⟩
def Ep.setTally (e : Ep) (t : Tally) : Ep :=
  { e with errCount := t.err, retryCount := t.retry, silenceRun := t.run, lastSilence := t.lastSilence }
def OwnXfer.tally (x : OwnXfer) : Tally := ⟨x.err, x.retry, x.silenceRun, false⟩
def OwnXfer.setTally (x : OwnXfer) (t : Tally) : OwnXfer := { x with err := t.err, retry := t.retry, silenceRun := t.run }

/-! ### What holds a round -/

/-- The line side of a holder: port, address, tier, block size, and the instance served (none for the
controller's own work, R342). -/
structure Wire where
  port : PortNo
  addr : Nat
  tier : Nat
  mb : Nat
  inst : Option InstNo
  deriving DecidableEq, Repr

/-- The controller's own transfer with a number. -/
def State.ownXfer (s : State) (id : Nat) : Option OwnXfer := s.tree.own.find? (·.id == id)

/-- That transfer changed. -/
def State.modOwn (s : State) (id : Nat) (f : OwnXfer → OwnXfer) : State :=
  s.modTree fun t => { t with own := t.own.map fun x => if x.id = id then f x else x }

def State.wire (s : State) : Holder → Option Wire
  | .ep k => (s.ep k).bind fun e => (s.epPort e).map fun p => ⟨p, e.zone, s.epTier e, e.maxBlock, some e.inst⟩
  | .own id => (s.ownXfer id).map fun x => ⟨x.port, x.addr, x.tier, x.maxBlock, none⟩
  | .hub z => (s.dev z).map fun d => ⟨d.port, z, d.tier, 2, none⟩

/-- The holder of a port's skim (R213); its home trowel while none is recorded. -/
def State.holderOf (s : State) (p : PortNo) : TrowelNo :=
  (allTrowels.find? fun k => (s.trowel k).holds.contains p).getD ⟨p.val, by omega⟩

/-- A packet leaves the port, in the framing of its speed (R59). -/
def State.send (s : State) (p : PortNo) (bytes : List Byte) : State := s.emit (.packet p (s.port p).speed bytes)

/-- A DATA block leaves the port and its payload is counted (R343, R352). -/
def State.sendData (s : State) (p : PortNo) (k : TrowelNo) (i : Option InstNo) (seq : BitVec 5) (last eot : Bool)
    (pay : List Byte) : State :=
  (s.send p (dataPacket seq last eot pay)).lineBytes p k i pay.length false

/-! ### The region of an endpoint (R229) -/

/-- Private byte offset and length of an endpoint's region. -/
def State.regionOf (s : State) (e : Ep) : Nat × Nat :=
  match kget (s.inst e.inst).regions e.region with
  | some r => (512 * r.base, 512 * r.units)
  | none => (0, 0)

/-- Private offset of block `b` of a bulk or control stream (R229). -/
def State.streamOff (s : State) (e : Ep) (b : Nat) : Nat :=
  let (base, len) := s.regionOf e
  let n := len / e.maxBlock
  base + (b * e.maxBlock) % (n * e.maxBlock)

/-- A payload written to an endpoint's region by a trowel. -/
def State.regionWrite (s : State) (e : Ep) (off : Nat) (bs : List Byte) (k : TrowelNo) : State :=
  if bs.isEmpty || (s.regionOf e).2 = 0 then s
  else (s.hawkWrite e.inst off bs).countHawk e.inst off bs.length (some k.val) none

/-- The next block of the endpoint's stream written to its region. -/
def State.streamWrite (s : State) (x : Nat) (bs : List Byte) (k : TrowelNo) : State :=
  match s.ep x with
  | none => s
  | some e => (s.regionWrite e (s.streamOff e e.streamBlock) bs k).modEp x fun e => { e with streamBlock := e.streamBlock + 1 }

/-! ### Missed services (R168) -/

/-- A listed or due periodic endpoint misses its service (R168): counted, and at the first miss of a run an entry it
has, or can take, completes with MISSED_SERVICE. A hub's missed poll counts too. -/
def State.noteMiss (s : State) (p : PortNo) (h : Holder) : State :=
  let inst := match h with
    | .ep k => (s.ep k).map (·.inst)
    | _ => none
  let s := (s.modPort p fun x => { x with svcMissed := satInc x.svcMissed }).count
    { cls := 0x08, inst := inst, port := some p.val }
  match h with
  | .ep k =>
    match s.ep k with
    | none => s
    | some e =>
      if e.missRun then s
      else
        let s := s.modEp k fun e => { e with missRun := true }
        if e.cur.isSome then (if e.delivering then s else s.complete k .missedService)
        else if e.hasEntry && s.takesWork e.inst && (s.ring e.inst e.evtRing).hasCredit then
          s.modEp k fun e => { e with force := some .missedService }
        else s
  | _ => s

/-- A listed service of the span that runs is missed: a commit slot that was to be released in it ends unserved (R195). -/
def State.missed (s : State) (p : PortNo) (h : Holder) : State :=
  let now := s.pl.subN
  let start := if (s.port p).spanSpeed == .reach then now - now % 8 else now
  let s := match h with
    | .ep k => match s.commitOf k, s.slotOf k with
      | some (_, c), some y => if y.sent || c.subN != start then s else s.endSlot k .missedService
      | _, _ => s
    | _ => s
  s.noteMiss p h

/-! ### The end of a round -/

/-- The classes that a round's end counts in (R343). -/
def State.countEnd (s : State) (p : PortNo) (k : TrowelNo) (i : Option InstNo) (o : RoundEnd) : State :=
  let occ (c : Nat) : Occ := { cls := c, inst := i, port := some p.val, trowel := some k.val }
  let s := s.count (occ 0x01)
  match o with
  | .answered => s.count (occ 0x02)
  | .silence => s.count (occ 0x03)
  | .corrupt => s.count (occ 0x04)
  | _ => s

/-- An entry of the egress program is active (R381). -/
def State.activeEntry (s : State) (x : EgrEntry) : Bool :=
  x.length != 0 && !(s.inCompat && decide (16 ≤ x.port.val)) &&
  match s.ep (x.ep + (s.inst 0).epBase) with
  | some e => e.inst == 0 && e.kind == .periodic && !e.inward && e.egressSafe && decide (x.length ≤ e.maxBlock) && s.epPort e == some x.port
  | none => false

/-- The active entries. -/
def State.activeEntries (s : State) : List EgrEntry := s.pw.egressProg.filter s.activeEntry

/-- The endpoint serves an egress payload now, so that its error count does not halt it (R382). -/
def State.egressActive (s : State) (k : Nat) : Bool :=
  s.pw.egressServing && s.pw.egressProg.any fun x => x.ep + (s.inst 0).epBase == k && s.activeEntry x

/-- The counts of endpoint `x` take an outcome (R43), and it halts when they reach its threshold, at STALL, or at
BABBLE (R44, R46, R53); endpoint 0 does not halt on STALL. An error outcome of an egress service is recorded (R382). -/
def State.epOutcome (s : State) (x : Nat) (p : PortNo) (k : TrowelNo) (o : RoundEnd) : State :=
  match s.ep x with
  | none => s
  | some e =>
    let (t, exhausted) := e.tally.after e.retryLimit o
    let s := s.modEp x (·.setTally t)
    let s := if exhausted then s.count { cls := 0x05, inst := some e.inst, port := some p.val, trowel := some k.val } else s
    let egress := s.egressActive x
    let s := if egress && (o == .silence || o == .corrupt) then
        s.record 0x11 ([BitVec.ofNat 8 p.val, if o == .silence then 1 else 2, 0, 0] ++ leBytes 4 (s.localIx e x))
      else s
    match o with
    | .answered => s
    | .stall => if e.kind == .control then s.completeAfter x .stalled else s.haltEp x .stalled
    | .babble => s.haltEp x .babble
    | _ => if e.errThreshold ≤ t.err && !egress && (o == .silence || exhausted) then s.haltEp x t.haltStatus else s

/-- The bus time of a round that ends with a packet or wait ending at `now` and the idle gap after it (R27). -/
def Round.length (r : Round) (now : Nat) : Nat := now + gapTime - r.t0

/-- A listed holder still gets a round (R178, R221, R240): its endpoint runs and is served, or a hub's device is addressed; its branch
is usable. -/
def State.listedLive (s : State) (h : Holder) : Bool :=
  match h with
  | .ep k => match s.ep k with
    | some e => e.st == .running && s.reachable e.zone &&
        (((s.servedEp e || (s.finishing e.inst && !s.shedOut e)) && s.pw.mode != .standby) || s.egressActive k)
    | none => false
  | .hub z => match s.dev z with
    | some d => d.statusOn && s.reachable z
    | none => false
  | .own _ => false

/-- The skim of a port has come to its end: its whole excess stands in `overrun_max` (R177). -/
def State.noteOverrun (s : State) (p : PortNo) : State :=
  s.modPort p fun x =>
    { x with overrunMax := if x.excess ≤ x.overrunMax.toNat then x.overrunMax else BitVec.ofNat 16 (min x.excess.toNat 0xFFFF) }

/-- The same once no listed entry is left that gets a round. -/
def State.overrunAtEnd (s : State) (p : PortNo) : State :=
  if (s.port p).skim.any s.listedLive then s else s.noteOverrun p

/-- The round leaves the line, which stays idle for the gap of R27; a skim's round adds its excess (R165, R169, R177), a control round
of the control stage uses up the control share (R186), and an arbitrated round is charged to its instance (R187). -/
def State.leaveLine (s : State) (p : PortNo) (r : Round) (now : Nat) : State :=
  let len := r.length now
  let s := s.modPort p fun x => { x with round := none, gap := none, lineAt := now + gapTime }
  match r.txn with
  | none =>
    let cost := match r.who with
      | .ep k => ((s.ep k).map (·.svcCost)).getD 0
      | .hub z => ((s.dev z).map fun d => svcCost (s.port p).speed d.tier 2 true).getD 0
      | .own _ => 0
    (s.modPort p fun x => { x with excess := x.excess + ((len : Int) - cost) }).overrunAtEnd p
  | some id =>
    match (s.trowel r.trowel).slots.find? (·.id == id) with
    | none => s
    | some t =>
      if t.arb then
        s.modInst t.inst fun n => { n with deficit := vset n.deficit p (vget n.deficit p - (len : Int)) }
      else s.modPort p fun x => { x with ctrlUsed := x.ctrlUsed + len }

/-! ### Periodic rounds (R48 to R50, R240) -/

/-- An accepted periodic IN block of endpoint `x` (R48, R49, R119, R125): into its region; with data, to the entry in
progress, or held. -/
def State.periodicIn (s : State) (x : Nat) (d : DataBlock) (k : TrowelNo) : State :=
  match s.ep x with
  | none => s
  | some e =>
    let s := s.modEp x fun e => { e with expectSeq := e.expectSeq + 1, blocksDone := e.blocksDone + 1 }
    if d.length = 0 then s
    else
      let s := s.regionWrite e (s.regionOf e).1 d.payload k
      if e.cur.isSome && !e.delivering && s.canWrite e.inst then
        (s.modEp x fun e => { e with cur := e.cur.map (·.take d.payload) }).addDelivery x 0 d.payload (some .success) none
      else
        s.modEp x fun e =>
          { e with heldValid := true, heldLen := d.length
                   heldReplaced := if e.heldValid then min 0xFFFF (e.heldReplaced + 1) else e.heldReplaced }

/-- A periodic IN round of endpoint `x` ends. -/
def State.endPerIn (s : State) (p : PortNo) (r : Round) (o : RoundEnd) (now : Nat) : State :=
  let s := s.leaveLine p r now
  match r.who with
  | .ep x => (s.countEnd p r.trowel ((s.ep x).map (·.inst)) o).epOutcome x p r.trowel o
  | .hub _ =>
    let s := s.countEnd p r.trowel none o
    if o == .silence || o == .corrupt then s.modPort p fun x => { x with hubPollErrs := satInc x.hubPollErrs } else s
  | .own _ => s

/-- Payload bytes of a periodic OUT service that is no entry's (R193, R382): a whole commit slot, or an egress payload. -/
def State.slotBytes (s : State) (k : Nat) (e : Ep) : PayloadSrc → Nat
  | .entry => 0
  | .commit _ => e.maxBlock
  | .egress => ((s.pw.egressProg.find? fun x => x.length != 0 && x.ep + (s.inst 0).epBase == k).map (·.length)).getD 0

/-- A periodic OUT round ends (R50, R195): ANSWERED completes the entry or ends the slot. -/
def State.endPerOut (s : State) (p : PortNo) (r : Round) (o : RoundEnd) (now : Nat) : State :=
  let s := s.leaveLine p r now
  match r.who with
  | .ep x =>
    let s := s.countEnd p r.trowel ((s.ep x).map (·.inst)) o
    if o == .answered then
      let s := s.modEp x fun e =>
        { e with nextSeq := e.nextSeq + 1, blocksDone := e.blocksDone + 1, bytesDone := e.bytesDone + BitVec.ofNat 64 (s.slotBytes x e r.src) }
      let s := s.epOutcome x p r.trowel o
      match r.src with
      | .entry => s.modEp x (fun e => { e with cur := e.cur.map fun c => { c with bytes := teLength c.entry } }) |>.complete x .success
      | .commit _ => s.endSlot x .success
      | .egress => s
    else s.epOutcome x p r.trowel o
  | _ => s

/-! ### Bulk and control -/

/-- A transaction in a trowel changed. -/
def State.modTxn (s : State) (k : TrowelNo) (id : Nat) (f : Txn → Txn) : State :=
  s.modTrowel k fun w => { w with slots := w.slots.map fun t => if t.id = id then f t else t }

/-- The holder may be picked again. -/
def State.unpick (s : State) : Holder → State
  | .ep x => s.modEp x fun e => { e with picked := false }
  | .own id => s.modOwn id fun x => { x with picked := false }
  | .hub _ => s

/-- The transaction of a holder that is in hand and not at delivery ends, if there is one. -/
def State.cutStaged (s : State) (h : Holder) : State :=
  if allTrowels.any fun k => (s.trowel k).slots.any fun t => t.who == h && t.phase != .delivery then (s.cutTxns h).unpick h else s

/-- A transaction ends without a delivery: its slot is free and its holder may be picked again. -/
def State.endTxn (s : State) (k : TrowelNo) (id : Nat) (h : Holder) : State :=
  (s.freeSlot (some (k, id))).unpick h

/-- IN data accepted for the entry of endpoint `x` (R51, R52): what the buffer takes, what goes on to the next entry
(bulk), the stage of a control transfer, and the status with which the entry ends, if it does. -/
def Ep.acceptIn (e : Ep) (data : List Byte) (eot : Bool) : Ep × Option Status :=
  match e.cur with
  | none => (e, none)
  | some c =>
    let room := teLength c.entry - c.bytes
    let c' := c.take data
    if c.stage == .dataIn then
      let c' := { c' with short := eot && decide (c'.bytes < teLength c.entry) }
      ({ e with cur := some (if eot || room ≤ data.length then { c' with stage := .status } else c') }, none)
    else if room < data.length then
      ({ e with cur := some c', carry := data.drop room, carryEot := eot }, some .success)
    else if room = data.length then ({ e with cur := some c' }, some .success)
    else ({ e with cur := some c' }, if eot then some .short else none)

/-- The stage after a setup round was answered (R52). -/
def stageAfterSetup (len : Nat) (dirIn : Bool) : Stage :=
  if len = 0 then .status else if dirIn then .dataIn else .dataOut

/-- Bytes that `k` acknowledged blocks carry, with `rem` left to send. -/
def ackedBytes (mb k rem : Nat) : Nat := min rem (k * mb)

/-- What a bulk or control round does to its endpoint's sequence numbers and entry (R41, R51, R52): the endpoint, the
status with which the entry ends, if it does, and the offset in the buffer of data received. -/
def Ep.roundEffect (e : Ep) (r : Round) (o : RoundEnd) (acked : Nat) : Ep × Option Status × Nat :=
  let rem := (e.cur.map fun c => teLength c.entry - c.bytes).getD 0
  match r.kind with
  | .bulkIn | .ctlIn =>
    let off := (e.cur.map (·.bytes)).getD 0
    if r.got = 0 then (e, none, off)
    else
      let a := e.acceptIn r.rx r.eot
      (a.1, a.2, off)
  | .bulkOut | .ctlOut =>
    let n := ackedBytes e.maxBlock acked rem
    let c := e.cur.map fun c => { c with bytes := c.bytes + n }
    let full : Bool := o == .answered && rem == n
    let e' := { e with nextSeq := r.s + BitVec.ofNat 5 acked, blocksDone := e.blocksDone + BitVec.ofNat 32 acked }
    if r.kind == .bulkOut then ({ e' with cur := c }, if full then some .success else none, 0)
    else ({ e' with cur := c.map fun c => if full then { c with stage := .status } else c }, none, 0)
  | .setup =>
    if o == .answered then
      ({ e with nextSeq := 1, blocksDone := e.blocksDone + 1
                cur := e.cur.map fun c => { c with stage := stageAfterSetup (teLength c.entry) (teDirIn c.entry) } }, none, 0)
    else (e, none, 0)
  | .stIn | .stOut =>
    let e' := if r.kind == .stOut then
        { e with nextSeq := r.s + BitVec.ofNat 5 acked, blocksDone := e.blocksDone + BitVec.ofNat 32 acked } else e
    if o == .answered then (e', some (if ((e.cur.map (·.short)).getD false) then .short else .success), 0)
    else (e, none, 0)
  | _ => (e, none, 0)

/-- The round receives IN blocks. -/
def RoundKind.isIn : RoundKind → Bool
  | .perIn | .bulkIn | .ctlIn | .stIn => true
  | _ => false

/-- The round that a holder would ask for: its kind, blocks still wanted, first sequence number. -/
structure Want where
  kind : RoundKind
  n : Nat
  s : BitVec 5
  deriving DecidableEq, Repr

/-- Blocks of `mb` bytes that `rem` bytes need; at least one (R51). -/
def blocksFor (mb rem : Nat) : Nat := max 1 ((rem + mb - 1) / mb)

/-- What endpoint `e`'s entry in progress asks for next (R40, R41, R52). -/
def Ep.want (e : Ep) : Option Want :=
  e.cur.bind fun c =>
    let len := teLength c.entry
    let n := min 16 (blocksFor e.maxBlock (len - c.bytes))
    match c.stage with
    | .body => some (if e.inward then ⟨.bulkIn, n, e.expectSeq⟩ else ⟨.bulkOut, n, e.nextSeq⟩)
    | .setup => some ⟨.setup, 1, 0⟩
    | .dataIn => some ⟨.ctlIn, n, e.expectSeq⟩
    | .dataOut => some ⟨.ctlOut, n, e.nextSeq⟩
    | .status => some (if len != 0 && teDirIn c.entry then ⟨.stOut, 1, e.nextSeq⟩ else ⟨.stIn, 1, e.expectSeq⟩)

/-- What one of the controller's own transfers asks for next (R238, R444). -/
def OwnXfer.want (x : OwnXfer) : Want :=
  match x.stage with
  | .setup => ⟨.setup, 1, 0⟩
  | .status => if x.xlen != 0 then ⟨.stOut, 1, x.outSeq⟩ else ⟨.stIn, 1, x.inSeq⟩
  | _ => ⟨.ctlIn, min 16 (blocksFor x.maxBlock (x.xlen - x.data.length)), x.inSeq⟩

/-- A transaction of endpoint `x` is done with the line (R204): it holds its slot until delivery `d` is made, if there is one. -/
def State.leaveTxn (s : State) (x : Nat) (k : TrowelNo) (id : Nat) (d : Option Nat) : State :=
  match d with
  | some n =>
    if s.deliveries.any fun y => y.id == n then
      { s with deliveries := s.deliveries.map fun (y : Delivery) => if y.id = n then { y with txn := some (k, id) } else y }.modTxn k id
        fun t => { t with phase := .delivery }
    else s.endTxn k id (.ep x)
  | none => s.endTxn k id (.ep x)

/-- Subframes of a silence backoff after `j` silences in a row (R45). -/
def backoffTicks (j : Nat) : Nat := min 8 (2 ^ (j - 1))

/-- A transaction goes on after its round (R203): re-sent after a CORRUPT round within the limit (R51), or, in a control data stage, with
its next round (R52). -/
def goesOn (o : RoundEnd) (kind : RoundKind) (retry : Nat) : Bool :=
  match o with
  | .corrupt => retry != 0
  | .answered => kind == .ctlIn || kind == .ctlOut
  | _ => false

/-- The transaction of a round is staged again with what it has left to send or to ask for. -/
def Txn.again (t : Txn) (w : Want) (r : Round) (o : RoundEnd) (acked mb : Nat) : Txn :=
  { t with phase := .staged, sent := 0, resent := o == .corrupt, s := r.s + BitVec.ofNat 5 acked
           n := if o == .corrupt && !r.kind.isIn then r.n - acked else w.n
           data := t.data.drop (ackedBytes mb acked t.data.length) }

/-- A bulk or control round of endpoint `x` ends with an outcome, `acked` blocks of an OUT round acknowledged (R43 to R46,
R51 to R53): what was accepted is to be delivered, whatever the outcome (R16, R44); then the counts and a halt; the transaction goes on, or
ends with that delivery. -/
def State.endEpRound (s : State) (x : Nat) (p : PortNo) (r : Round) (id : Nat) (o : RoundEnd) (acked : Nat) : State :=
  match s.ep x with
  | none => s.freeSlot (some (r.trowel, id))
  | some e =>
    let s := s.countEnd p r.trowel (some e.inst) o
    let (e, fin, off) := e.roundEffect r o acked
    let s := s.setEp x e
    let data := if r.kind == .bulkIn || r.kind == .ctlIn then
        r.rx.take (((e.cur.map (·.bytes)).getD 0) - off) else []
    let made := !data.isEmpty || fin.isSome
    let number := s.nextId
    let s := if made then s.addDelivery x off data fin none else s
    let s := s.epOutcome x p r.trowel o
    let e := (s.ep x).getD e
    let live := e.st == .running && e.cur.isSome && !s.ending x
    let s := if o == .silence && live then
        s.modEp x fun e => { e with backoff := true, backoffAt := s.pl.subN + backoffTicks e.silenceRun } else s
    match e.want with
    | some w =>
      if live && !s.cutting e.inst && goesOn o r.kind e.retryCount && w.kind == r.kind then
        s.modTxn r.trowel id fun t => t.again w r o acked e.maxBlock
      else s.leaveTxn x r.trowel id (if made then some number else none)
    | none => s.leaveTxn x r.trowel id (if made then some number else none)

/-- The transaction of endpoint `k` is cut at a block boundary (R207, R319): what its round has accepted is to be delivered, and
its entry stays in progress. -/
def State.cutEp (s : State) (k : Nat) : State :=
  let tail := s.roundData k
  let s := ((s.cutTxns (.ep k)).dropRound (.ep k)).unpick (.ep k)
  match s.ep k with
  | none => s
  | some e =>
    let off := (e.cur.map (·.bytes)).getD 0
    let (e', fin) := if tail.isEmpty then (e, none) else e.acceptIn tail false
    let n := (e'.cur.map (·.bytes)).getD 0 - off
    let s := s.setEp k e'
    if n = 0 && fin.isNone then s else s.addDelivery k off (tail.take n) fin none

/-- A round of one of the controller's own transfers ends (R444). -/
def State.endOwnRound (s : State) (q : Nat) (p : PortNo) (r : Round) (id : Nat) (o : RoundEnd) (acked : Nat) : State :=
  match s.ownXfer q with
  | none => s.freeSlot (some (r.trowel, id))
  | some x =>
    let s := s.countEnd p r.trowel none o
    let (t, exhausted) := x.tally.after 3 o
    let x := x.setTally t
    let x := match r.kind, o with
      | .setup, .answered => { x with outSeq := 1, stage := stageAfterSetup x.xlen (x.xlen != 0) }
      | .ctlIn, _ =>
        let d := x.data ++ r.rx
        { x with data := d.take x.xlen
                 stage := if r.got != 0 && (r.eot || x.xlen ≤ d.length) then .status else x.stage }
      | .stIn, .answered | .stOut, .answered => { x with result := some .success }
      | _, _ => x
    let x := match o with
      | .stall => { x with result := some .stalled }
      | .babble => { x with result := some .babble }
      | .silence => if 3 ≤ t.err then { x with result := some .silent }
          else { x with backoff := true, backoffAt := s.pl.subN + backoffTicks t.run }
      | .corrupt => if exhausted && 3 ≤ t.err then { x with result := some .crcExhausted } else x
      | .answered => x
    let s := s.modOwn q fun _ => x
    if x.result.isNone && goesOn o r.kind x.retry && x.want.kind == r.kind then
      s.modTxn r.trowel id fun t => t.again x.want r o acked x.maxBlock
    else s.endTxn r.trowel id (.own q)

/-- A bulk or control round ends. -/
def State.endWork (s : State) (p : PortNo) (r : Round) (o : RoundEnd) (acked now : Nat) : State :=
  let s := s.leaveLine p r now
  match r.who, r.txn with
  | .ep x, some id => s.endEpRound x p r id o acked
  | .own q, some id => s.endOwnRound q p r id o acked
  | _, _ => s

/-- Any round ends. -/
def State.endRound (s : State) (p : PortNo) (r : Round) (o : RoundEnd) (acked now : Nat) : State :=
  match r.kind with
  | .perIn => s.endPerIn p r o now
  | .perOut => s.endPerOut p r o now
  | _ => s.endWork p r o acked now

/-! ### IN bursts -/

/-- The sequence number expected next by an IN holder. -/
def State.expectOf (s : State) : Holder → BitVec 5
  | .ep x => ((s.ep x).map (·.expectSeq)).getD 0
  | .own q => ((s.ownXfer q).map (·.inSeq)).getD 0
  | .hub z => ((s.dev z).map (·.statusSeq)).getD 0

/-- An expected block is accepted: the sequence number advances, and a bulk or control block goes to its region. -/
def State.acceptBlock (s : State) (h : Holder) (d : DataBlock) (k : TrowelNo) : State :=
  match h with
  | .ep x => (s.modEp x fun e => { e with expectSeq := e.expectSeq + 1, blocksDone := e.blocksDone + 1 }).streamWrite x d.payload k
  | .own q => s.modOwn q fun x => { x with inSeq := x.inSeq + 1 }
  | .hub z => s.modDev z fun v =>
      { v with statusSeq := v.statusSeq + 1, bits := v.bits ||| (BitVec.ofNat 16 (leNat d.payload) &&& 0xFFFE) }

/-- Counts of a holder before its round's outcome, for the watch of R46. -/
def State.countsOf (s : State) : Holder → Nat × Nat
  | .ep x => ((s.ep x).map fun e => (e.errCount, e.retryCount)).getD (0, 0)
  | .own q => ((s.ownXfer q).map fun x => (x.err, x.retry)).getD (0, 0)
  | .hub _ => (0, 0)

/-- The idle gap after an IN round whose blocks have all come is watched (R46): `before` holds the counts, and `made` the number of the
next delivery, as they were before the round ended. -/
def State.watchGap (s : State) (p : PortNo) (r : Round) (before : Nat × Nat) (made now : Nat) : State :=
  s.modPort p fun x =>
    { x with gap := some ⟨r.who, r.kind, now + gapTime, before.1, before.2, if s.nextId = made then none else some made⟩ }

/-- An IN burst has ended, by its last block or by a timeout after one (R41): the ACK goes, and the round is CORRUPT when
a block was bad or the burst stopped short. The gap is watched unless it stopped short (R46). The IN status stage has no ACK (DEDUCED from
the table of R52, log 19). -/
def State.closeBurst (s : State) (p : PortNo) (r : Round) (ended : Bool) (now : Nat) : State :=
  let before := s.countsOf r.who
  let s := if r.kind == .stIn then s else s.send p (ackPacket (s.expectOf r.who))
  let short := !ended && decide (r.got < r.n)
  let made := s.nextId
  let s := s.endRound p r (if r.bad || short then .corrupt else .answered) 0 (if r.kind == .stIn then now else now + gapTime + ackTime)
  if short then s else s.watchGap p r before made now

/-- A packet arrives where an IN block is awaited (R37, R41, R46, R48). -/
def State.inPacket (s : State) (p : PortNo) (r : Round) (pkt : Received) (now : Nat) : State :=
  match s.wire r.who with
  | none => s
  | some w =>
    let corrupt (s : State) : State := s.modPort p fun x => { x with corruptPkts := satInc x.corruptPkts }
    let r := { r with got := r.got + 1 }
    match r.kind, pkt with
    | .perIn, .stall | .stIn, .stall => s.endRound p r .stall 0 now
    | _, .tooLong _ => s.endRound p r .babble 0 now
    | .perIn, .data d =>
      if w.mb < d.length then s.endRound p r .babble 0 now
      else
        let s := s.lineBytes p r.trowel w.inst d.length true
        let before := s.countsOf r.who
        let gap := (d.seq - s.expectOf r.who).toNat
        let made := s.nextId
        let s := match r.who with
          | .ep x => if gap = 0 then s.periodicIn x d r.trowel else s
          | h => if gap = 0 then s.acceptBlock h d r.trowel else s
        (s.endRound p r (if gap = 0 || 16 ≤ gap then .answered else .corrupt) 0 now).watchGap p r before made now
    | .perIn, _ => ((corrupt s).endRound p r .corrupt 0 now).watchGap p r (s.countsOf r.who) s.nextId now
    | kind, .data d =>
      if w.mb < d.length || (kind == .stIn && d.length != 0) then s.endRound p r .babble 0 now
      else
        let s := s.lineBytes p r.trowel w.inst d.length true
        let gap := (d.seq - s.expectOf r.who).toNat
        let (s, r) :=
          if gap = 0 then (s.acceptBlock r.who d r.trowel, { r with rx := r.rx ++ d.payload, eot := d.eot })
          else (s, { r with bad := r.bad || decide (gap < 16) })
        if d.last || d.eot then s.closeBurst p r true now
        else if r.got = r.n then s.closeBurst p r false now
        else s.modPort p fun x => { x with round := some r }
    | _, .stall =>
      if r.got = 1 then s.endRound p r .stall 0 now
      else
        let r := { r with bad := true }
        if r.got = r.n then (corrupt s).closeBurst p r false now
        else (corrupt s).modPort p fun x => { x with round := some r }
    | _, _ =>
      let r := { r with bad := true }
      if r.got = r.n then (corrupt s).closeBurst p r false now
      else (corrupt s).modPort p fun x => { x with round := some r }

/-- A packet arrives where an acknowledgement is awaited (R38, R41, R50, R52). -/
def State.ackPacketIn (s : State) (p : PortNo) (r : Round) (pkt : Received) (now : Nat) : State :=
  match pkt with
  | .stall => s.endRound p r .stall 0 now
  | .ack next =>
    let k := (next - r.s).toNat
    if k = r.n then s.endRound p r .answered k now
    else if k < r.n then s.endRound p r .corrupt k now
    else (s.modPort p fun x => { x with corruptPkts := satInc x.corruptPkts }).endRound p r .corrupt 0 now
  | _ => (s.modPort p fun x => { x with corruptPkts := satInc x.corruptPkts }).endRound p r .corrupt 0 now

/-- A packet that arrives while no response is awaited is stray (R47). -/
def State.strayPkt (s : State) (p : PortNo) : State := s.modPort p fun x => { x with strayPkts := satInc x.strayPkts }

/-- The round awaits a response now: every block of an OUT round has been sent. -/
def Round.awaits (r : Round) : Bool := r.kind.isIn || r.sent == r.n

/-- Transactions and the round of a holder are over at a block boundary, with nothing taken from it (R117, R207). -/
def State.endWire (s : State) (h : Holder) : State := ((s.cutTxns h).dropRound h).unpick h

/-- The round serves a halted instance, so that its response only ends it (R117). -/
def State.haltedRound (s : State) (r : Round) : Bool :=
  match r.who with
  | .ep x => ((s.ep x).map fun e => (s.inst e.inst).halted).getD false
  | _ => false

/-- The round left on port `p` ends at this block boundary where its instance's work is being cut (R319): it stays in progress at a freeze, and
until the wipe of a Function Level Reset, and completes with QUIESCE_ABORT at a quiesce with `abort`. -/
def State.cutHere (s : State) (p : PortNo) : State :=
  match (s.port p).round with
  | some r => match r.who with
    | .ep x => match s.ep x with
      | some e =>
        if !s.cutting e.inst then s
        else if (s.inst e.inst).st == .frozen || (s.inst e.inst).flrAsked then s.cutEp x else (s.cutEp x).abortEntry x
      | none => s
    | _ => s
  | none => s

/-- A packet arrives on a port. -/
def State.packetIn (s : State) (p : PortNo) (pkt : Received) (now : Nat) : State :=
  match (s.port p).round with
  | some r =>
    if s.haltedRound r then s.endWire r.who
    else if r.kind.isIn then (s.inPacket p r pkt now).cutHere p
    else if r.awaits then s.ackPacketIn p r pkt now
    else s.strayPkt p
  | none => s.strayPkt p

/-- STRAY_PACKET (R47). -/
def execStrayPacket (p : PortNo) (s : State) : Answer :=
  if (s.port p).round.isNone then done (s.strayPkt p) else .next s

/-- TURNAROUND_TIMEOUT (R42, R43): silence where nothing has come; the end of an IN burst where something has. -/
def execTurnaroundTimeout (p : PortNo) (now : Nat) (s : State) : Answer :=
  match (s.port p).round with
  | none => .next s
  | some r =>
    if !r.awaits then .next s
    else if s.haltedRound r then done (s.endWire r.who)
    else if r.kind.isIn && r.got != 0 then done (s.closeBurst p r false now)
    else done (s.endRound p r .silence 0 now)

/-- BABBLE_DETECTED (R46): a packet in the idle gap after an IN burst, or babble in the round on the line. The endpoint
halts, its counts as they were before the round, a re-send is given up, and the entry completes with BABBLE (DEDUCED, log 115). -/
def execBabbleDetected (p : PortNo) (now : Nat) (s : State) : Answer :=
  match (s.port p).round, (s.port p).gap with
  | some r, _ => if r.kind.isIn then done (s.endRound p r .babble 0 now) else .next s
  | none, some g =>
    if g.upto < now then done (s.strayPkt p)
    else
      let s := s.modPort p fun x => { x with gap := none }
      match g.who with
      | .ep x =>
        let s := (s.cutStaged (.ep x)).modEp x fun e => { e with errCount := g.err, retryCount := g.retry }
        match s.deliveries.find? fun d => some d.id == g.delivery with
        | some d =>
          let s : State :=
            { s with deliveries := s.deliveries.map fun (y : Delivery) => if y.id = d.id then { y with fin := some .babble } else y }
          done (s.haltEp x .babble)
        | none => done (s.haltEp x .babble)
      | .own q => done ((s.cutStaged (.own q)).modOwn q fun x => { x with result := some .babble, err := g.err, retry := g.retry })
      | .hub _ => .next s
  | none, none => done (s.strayPkt p)

/-! ### The skim (R162, R177, R178) -/

/-- The port's skim without the entries at its head that get no round (R178). -/
def State.trimSkim (s : State) (p : PortNo) : State :=
  s.modPort p fun x => { x with skim := x.skim.dropWhile fun h => !s.listedLive h }

/-- The next entry leaves the skim. -/
def State.popSkim (s : State) (p : PortNo) : State := s.modPort p fun x => { x with skim := x.skim.tail }

/-- The port's line is free for a round now: none is on it, the idle gap after the last packet has passed (R27), and no downshift stands
before it (R68). -/
def State.lineFree (s : State) (p : PortNo) (now : Nat) : Bool :=
  (s.port p).round.isNone && decide ((s.port p).lineAt ≤ now) && !(s.port p).downshift && !((s.port p).downHold && s.wantsDown p) && (s.usable p || (s.alive && s.pw.mode == .standby && (s.port p).st == .enabled && s.pw.egress))

/-- A service of `h` fits at `now` (R27, R63, R177). -/
def State.fitsSkim (s : State) (p : PortNo) (w : Wire) (inward : Bool) (now : Nat) : Bool :=
  let v := (s.port p).speed
  decide (now + longestService v w.tier w.mb inward ≤ spanLimit v s.pl.subN)

/-- A periodic service is given: counted, and a run of misses ends (R166, R168). -/
def State.given (s : State) (p : PortNo) (h : Holder) (w : Wire) : State :=
  let s := s.count { cls := 0x07, inst := w.inst, port := some p.val, trowel := some (s.holderOf p).val }
  match h with
  | .ep k => s.modEp k fun e => { e with missRun := false }
  | _ => s

/-- A round begins on the line. -/
def State.beginRound (s : State) (p : PortNo) (kind : RoundKind) (h : Holder) (k : TrowelNo) (txn : Option Nat) (now n : Nat)
    (seq : BitVec 5) (sent : Nat) (src : PayloadSrc) : State :=
  s.modPort p fun x =>
    { x with gap := none
             round := some { kind := kind, who := h, trowel := k, txn := txn, t0 := now, n := n, s := seq, sent := sent
                             got := 0, bad := false, rx := [], eot := false, src := src } }

/-- EPID that a holder's IN token carries (R23): a hub's status endpoint is IN endpoint 1 (R240). -/
def State.epidOf (s : State) (h : Holder) (inward : Bool) : BitVec 5 :=
  match h with
  | .ep k => match s.ep k with
    | some e => if e.kind == .control then (if inward then 0x10 else 0x00) else e.epid
    | none => 0
  | .own _ => if inward then 0x10 else 0x00
  | .hub _ => 0x11

/-- PERIODIC_IN_ROUND (R48, R177): the next listed IN endpoint, or hub status endpoint, is polled; one that no longer fits
misses its service. -/
def execPeriodicInRound (p : PortNo) (now : Nat) (s : State) : Answer :=
  if !s.lineFree p now then .next s
  else
    let s := s.trimSkim p
    match (s.port p).skim.head? with
    | none => .next s
    | some h =>
      let inward := match h with
        | .ep k => ((s.ep k).map (·.inward)).getD false
        | _ => true
      match inward, s.wire h with
      | true, some w =>
        s.withContext h fun s =>
          let s := s.popSkim p
          if s.fitsSkim p w true now then
            let seq := s.expectOf h
            done (((s.given p h w).send p (tokenPacket pidPoll w.addr (s.epidOf h true) seq 0)).beginRound p .perIn h (s.holderOf p)
              none now 1 seq 0 .entry)
          else done ((s.missed p h).overrunAtEnd p)
      | _, _ => .next s

/-- The payload of a periodic OUT service, if it has one (R50, R193, R382): an egress payload, a released commit slot, or
the entry in progress once staged. -/
def State.outPayload (s : State) (k : Nat) : Option (List Byte × PayloadSrc) :=
  match s.ep k with
  | none => none
  | some e =>
    if s.egressActive k then
      (s.pw.egressProg.find? fun x => x.length != 0 && x.ep + (s.inst 0).epBase == k).map fun x =>
        (x.payload.take x.length, .egress)
    else match s.commitOf k, s.slotOf k with
      | some (n, c), some x => some (s.hawkRead c.inst x.addr e.maxBlock, .commit n)
      | _, _ =>
        match e.cur with
        | some c =>
          if c.staging.isNone && !e.delivering && s.canWrite e.inst then
            some (s.hawkRead e.inst (s.regionOf e).1 (teLength c.entry), .entry)
          else none
        | none => none

/-- PERIODIC_OUT_ROUND (R50, R193, R224, R382): the next listed OUT endpoint is served; with nothing to send the service counts
as no round. An uncorrectable commit slot is a CORRUPT round that is not started; staged data is fetched again. -/
def execPeriodicOutRound (p : PortNo) (now : Nat) (ecc : Ecc) (s : State) : Answer :=
  if !s.lineFree p now then .next s
  else
    let s := s.trimSkim p
    match (s.port p).skim.head? with
    | some (.ep k) =>
      match s.ep k, s.wire (.ep k) with
      | some e, some w =>
        if e.inward then .next s
        else s.withContext (.ep k) fun s =>
          let s := s.popSkim p
          if !s.fitsSkim p w false now then done ((s.missed p (.ep k)).overrunAtEnd p)
          else match s.outPayload k with
            | none => .next (s.overrunAtEnd p)
            | some (pay, src) =>
              let hk := s.holderOf p
              let s := s.given p (.ep k) w
              let s := match src with
                | .egress => s
                | _ => (s.noteEccBy (some e.inst) ecc (some hk.val) none).countHawk e.inst
                    (match s.slotOf k with | some x => x.addr | none => (s.regionOf e).1) pay.length (some hk.val) none
              let isSlot := match src with | .commit _ => true | _ => false
              if eccBad ecc && isSlot then done ((s.countEnd p hk w.inst .corrupt).epOutcome k p hk .corrupt)
              else
                let s := if eccBad ecc && src == .entry then
                    s.hostRead e.inst ((e.cur.map fun c => teBuf c.entry).getD 0) pay.length (some hk.val) none else s
                let s := s.send p (tokenPacket pidPush w.addr e.epid e.nextSeq 0)
                let s := s.sendData p hk w.inst e.nextSeq true true pay
                let s := if isSlot then s.markSent k else s
                done (s.beginRound p .perOut (.ep k) hk none now 1 e.nextSeq 1 src)
      | _, _ => .next s
    | _ => .next s

end Sys2Proof.Machine
end

