-- ==== Sys2Proof/Machine/Bulk.lean ====
section
/-!
DEFINITION. Control and bulk (R186 to R188): ready rounds and their sizes, the deficit arbitration, the port queue, and the
rounds that transactions start on the line (R40, R41, R52).
-/
namespace Sys2Proof.Machine

/-! ### Ready rounds -/

/-- The longest such round of `n` blocks (R27, R187). -/
def longestRound (v : Speed) (kind : RoundKind) (t mb n : Nat) : Nat :=
  match kind with
  | .bulkIn | .ctlIn | .perIn => longestIn v t mb n
  | .bulkOut | .ctlOut | .perOut => longestOut v t mb n
  | .setup => longestSetup v t
  | .stIn => tokenTime + timeout v t + dataTime 0 + gapTime
  | .stOut => longestOut v t 0 1

/-- The most of `n` blocks for which the round ends by `limit` when it starts at `t0` (R27, R40, R41); 0 if none. -/
def fitBlocks (v : Speed) (kind : RoundKind) (t mb t0 limit : Nat) : Nat → Nat
  | 0 => 0
  | n + 1 => if t0 + longestRound v kind t mb (n + 1) ≤ limit then n + 1 else fitBlocks v kind t mb t0 limit n

/-- A control round. -/
def RoundKind.isControl : RoundKind → Bool
  | .setup | .ctlIn | .ctlOut | .stIn | .stOut => true
  | _ => false

/-- One of the controller's own transfers is under way at zone address `z` on port `p` (R241). -/
def State.ownBusy (s : State) (p : PortNo) (z : Nat) : Bool :=
  s.tree.own.any fun x => x.port == p && x.addr == z && x.result.isNone && (x.stage != .setup || x.picked)

/-- Software's control transfer on endpoint 0 of `z` is under way (R241). -/
def State.ep0Busy (s : State) (z : Nat) : Bool :=
  s.eps.any fun (_, e) => e.zone == z && e.kind == .control &&
    ((e.cur.map fun c => c.stage != .setup || e.picked).getD false)

/-- Endpoint `e` makes its instance eligible on port `p` (R187): its entry has been taken, and it is not halted, backed off
or cut off. One whose transaction is in hand keeps its instance eligible (DEDUCED, log 20). -/
def State.epEligible (s : State) (p : PortNo) (e : Ep) : Bool :=
  e.kind != .periodic && e.st == .running && !e.backoff && e.cur.isSome &&
  s.epPort e == some p && s.takesWork e.inst && s.reachable e.zone

/-- It has a round to be picked now (R187, R206, R241). -/
def State.epReady (s : State) (p : PortNo) (e : Ep) : Bool :=
  s.epEligible p e && !e.picked && !e.delivering && !(e.kind == .control && s.ownBusy p e.zone)

/-- One of the controller's own transfers has a round ready (R241, R444): to address 0 only while one position of the port is
at the default address (R22, R441). -/
def State.ownReady (s : State) (p : PortNo) (x : OwnXfer) : Bool :=
  x.port == p && x.result.isNone && !x.picked && !x.backoff && !s.ep0Busy x.addr &&
  (if x.addr = 0 then s.zeroGoes p else s.reachable x.addr) &&
  !(s.tree.own.any fun y => y.id != x.id && y.port == p && y.addr == x.addr && y.result.isNone &&
      ((y.stage != .setup || y.picked) || decide (y.id < x.id)))

/-- A ready round: its holder, instance, order key within the instance (R188), and what it asks for. -/
structure Ready where
  who : Holder
  inst : InstNo
  key : Nat
  want : Want
  tier : Nat
  mb : Nat
  deriving DecidableEq, Repr

/-- All ready rounds of a port; the controller's own rank as the manager's (R241). -/
def State.readyOn (s : State) (p : PortNo) : List Ready :=
  (s.eps.filterMap fun (k, e) =>
    if s.epReady p e then e.want.map fun w => ⟨.ep k, e.inst, k, w, s.epTier e, e.maxBlock⟩ else none) ++
  s.tree.own.filterMap fun x =>
    if s.ownReady p x then some ⟨.own x.id, 0, 131072 + x.id, x.want, x.tier, x.maxBlock⟩ else none

/-- Of an instance's ready rounds, the one whose turn it is after the one served last (R188); `last` is one above that one's key. -/
def inTurn (rs : List Ready) (last : Nat) : Option Ready :=
  let least (l : List Ready) : Option Ready :=
    l.foldl (fun (b : Option Ready) r => match b with
      | none => some r
      | some x => if r.key < x.key then some r else b) none
  match least (rs.filter fun r => decide (last ≤ r.key)) with
  | some r => some r
  | none => least rs

/-- The endpoint clear-halt of the egress override, which goes on where other control work does not (R382). -/
def State.egressExchange (s : State) (h : Holder) : Bool :=
  match h with
  | .own id => s.tree.own.any fun x => x.id == id && s.tree.procs.any fun q =>
      q.id == x.proc && (match q.purpose with | .unhaltEgress _ => true | _ => false)
  | _ => false

/-! ### The port's order of transactions (R208) -/

/-- Transactions of a port in a trowel, with the trowel. -/
def State.taken (s : State) (p : PortNo) : List (TrowelNo × Txn) :=
  allTrowels.flatMap fun k => ((s.trowel k).slots.filter fun t => t.port == p).map fun t => (k, t)

/-- Longest time of what is left of a transaction. -/
def State.txnTime (s : State) (p : PortNo) (t : Txn) : Nat :=
  match s.wire t.who with
  | some w => longestRound (s.port p).speed t.kind w.tier w.mb (t.n - t.sent)
  | none => 0

/-- The longest time of a listed service. -/
def State.serviceTime (s : State) (p : PortNo) (h : Holder) : Nat :=
  match s.wire h with
  | some w =>
    let inward := match h with
      | .ep k => ((s.ep k).map (·.inward)).getD true
      | _ => true
    longestService (s.port p).speed w.tier w.mb inward
  | none => 0

/-- When the line is free for a further round at the latest: at the longest end of the round on it, else now, but not before the idle gap
has passed (R27). -/
def State.lineEnd (s : State) (p : PortNo) (now : Nat) : Nat :=
  let x := s.port p
  match x.round with
  | some r => match r.txn, s.wire r.who with
    | none, _ => r.t0 + s.serviceTime p r.who
    | some _, some w => r.t0 + longestRound x.speed r.kind w.tier w.mb r.n
    | some _, none => max now x.lineAt
  | none => max now x.lineAt

/-- The bus position at which a transaction picked now would start (R208): after the round on the line, the skim and every transaction
picked before it, at their longest. -/
def State.startEstimate (s : State) (p : PortNo) (now : Nat) : Nat :=
  let x := s.port p
  let skim := x.skim.foldl (fun a h => a + s.serviceTime p h) 0
  let q := x.queue.foldl (fun a t => a + s.txnTime p t) 0
  let t := (s.taken p).foldl (fun a t => if t.2.phase == .delivery || t.2.phase == .line then a else a + s.txnTime p t.2) 0
  s.lineEnd p now + skim + q + t

/-- Blocks of an OUT burst with `left` blocks to send that fit now (R27, R41): all with the wait for the acknowledgement, or
those of a segment that ends before the span does (DEDUCED, log 107). -/
def segmentFit (v : Speed) (tier mb now limit left : Nat) : Nat :=
  if now + longestOut v tier mb left ≤ limit then left
  else go (left - 1)
where
  go : Nat → Nat
    | 0 => 0
    | m + 1 => if now + segmentTime mb (m + 1) + gapTime ≤ limit then m + 1 else go m

/-- The size of a ready round (R27, R188), 0 when not even one block fits before the span ends: an IN round has as many blocks as fit
(R40), an OUT burst all of its blocks, in segments (R41). -/
def State.sizeOf (s : State) (p : PortNo) (r : Ready) (t0 : Nat) : Nat :=
  let v := (s.port p).speed
  let limit := s.workLimit p
  match r.want.kind with
  | .bulkOut | .ctlOut => if segmentFit v r.tier r.mb t0 limit r.want.n = 0 then 0 else r.want.n
  | k => fitBlocks v k r.tier r.mb t0 limit r.want.n

/-- A ready round is picked (R203, R208): it joins the port's queue. -/
def State.pick (s : State) (p : PortNo) (r : Ready) (n : Nat) (arb : Bool) : State :=
  let t : Txn := { id := s.nextId, port := p, inst := r.inst, who := r.who, kind := r.want.kind, n := n, s := r.want.s
                   sent := 0, phase := .queued, arb := arb, data := [], started := false, resent := false }
  let s := s.takeId.modPort p fun x => { x with queue := x.queue ++ [t] }
  let s := s.modInst r.inst fun i => { i with turns := vset i.turns p (r.key + 1) }
  match r.who with
  | .ep k => (s.touch k).modEp k fun e => { e with picked := true }
  | .own q => s.modOwn q fun x => { x with picked := true }
  | .hub _ => s

/-- Instances in cyclic order from `i`. -/
def instsFrom (i : InstNo) : List InstNo := (allInsts.drop i.val) ++ (allInsts.take i.val)

/-- Control rounds in turn by instance after the one served last (R186); the first that fits. -/
def State.controlPick (s : State) (p : PortNo) (rs : List Ready) (t0 : Nat) : Option (Ready × Nat) :=
  let order := (instsFrom (s.port p).ctrlTurn).tail ++ [(s.port p).ctrlTurn]
  order.findSome? fun i =>
    (inTurn (rs.filter fun r => r.inst == i && r.want.kind.isControl) (vget (s.inst i).turns p)).bind fun r =>
      let n := s.sizeOf p r t0
      if n = 0 then none else some (r, n)

/-- The instance is eligible on the port (R187) (DEDUCED, log 106). -/
def State.eligible (s : State) (p : PortNo) (i : InstNo) : Bool :=
  (s.eps.any fun (_, e) => e.inst == i && s.epEligible p e) ||
  (i == 0 && s.tree.own.any fun x => s.ownReady p x || (x.port == p && x.result.isNone && x.picked))

/-- A turn of the deficit arbitration: the instance, its round and its size (0 when nothing fits), and the turn, counted from 0, at
which it can afford it (R187). -/
structure Turn where
  inst : InstNo
  ready : Ready
  n : Nat
  at' : Nat
  /-- Weight is added at each of its turns from the first (1), or from the second (0). -/
  first : Nat
  deriving DecidableEq, Repr

/-- The turns of the instances that have a round to be picked, in the order in which the arbiter comes to them. An eligible instance all of
whose rounds are in hand keeps its deficit and has no turn (DEDUCED, log 20). -/
def State.turnsOf (s : State) (p : PortNo) (rs : List Ready) (t0 : Nat) : List Turn :=
  let x := s.port p
  (instsFrom x.arbCur).filterMap fun i =>
    let first := if i == x.arbCur && !x.arbFresh then 0 else 1
    (inTurn (rs.filter fun r => r.inst == i) (vget (s.inst i).turns p)).map fun r =>
      let n := s.sizeOf p r t0
      let need := (longestRound x.speed r.want.kind r.tier r.mb n : Int) - vget (s.inst i).deficit p
      let w := max 1 (s.inst i).weight
      let adds := if need ≤ 0 then 0 else (need.toNat + w - 1) / w
      ⟨i, r, n, if n = 0 then 0 else adds - first, first⟩

/-- The turn that ends the arbiter's search: the earliest, and of equals the first in order. -/
def bestTurn : List Turn → Option Turn
  | [] => none
  | t :: l => match bestTurn l with
    | none => some t
    | some u => if t.at' ≤ u.at' then some t else some u

/-- The deficits of instances that are not eligible are 0 (R187). -/
def State.zeroIdle (s : State) (p : PortNo) : State :=
  s.each allInsts fun s i =>
    if vget (s.inst i).deficit p = 0 || s.eligible p i then s else s.modInst i fun n => { n with deficit := vset n.deficit p 0 }

/-- Deficits after the search (R187): each instance's weight for every turn it had. -/
def State.chargeTurns (s : State) (p : PortNo) (ts : List Turn) (best : Turn) : State :=
  let before := (ts.takeWhile fun t => t.inst != best.inst).map (·.inst)
  s.each allInsts fun s i =>
    match ts.find? fun t => t.inst == i with
    | none => s
    | some t =>
      let visits := if before.contains i || i == best.inst then best.at' + 1 else best.at'
      let adds := if visits = 0 then 0 else visits - 1 + t.first
      s.modInst i fun n => { n with deficit := vset n.deficit p (vget n.deficit p + (adds * max 1 n.weight : Nat)) }

/-- `pick` of R187 in one step: the round picked, if any. -/
def State.arbitrate (s : State) (p : PortNo) (rs : List Ready) (t0 : Nat) : State :=
  let s := s.zeroIdle p
  let ts := s.turnsOf p rs t0
  match bestTurn ts with
  | none => s
  | some b =>
    let s := (s.chargeTurns p ts b).modPort p fun x => { x with arbCur := b.inst, arbFresh := false }
    if b.n = 0 then s else s.pick p b.ready b.n true

/-- BULK_PICK (R186 to R188, R208): the next control round while control has its share of the span, else the deficit
arbitration; with bulk suspended by shedding nothing beyond the share, at step 6 only the egress exchanges (R378). -/
def execBulkPick (p : PortNo) (now : Nat) (s : State) : Answer :=
  let x := s.port p
  let exempt : Bool := s.pw.mode == .standby || decide (6 ≤ s.pw.acted)
  if x.st != .enabled || !s.alive || x.recovering || x.tokenWait || 4 ≤ x.queue.length then .next s
  else
    let rs := s.readyOn p
    let rs := if exempt then rs.filter fun r => s.egressExchange r.who else rs
    let t0 := s.startEstimate p now
    let ctl := if x.ctrlUsed < controlShare x.speed then s.controlPick p rs t0 else none
    match ctl with
    | some (r, n) => .next ((s.pick p r n false).modPort p fun x => { x with ctrlTurn := r.inst })
    | none => if 3 ≤ s.pw.acted then .next s else .next (s.arbitrate p rs t0)

/-! ### Taking work (R205, R210 to R212) -/

/-- A trowel that is some port's home: 0 to 31, in COMPAT 0 to 15 (R210). -/
def State.isHome (s : State) (k : TrowelNo) : Bool := decide (k.val < if s.inCompat then 16 else 32)

/-- Bulk and control transactions a trowel may carry (R205). -/
def Trowel.room (w : Trowel) : Bool := decide (w.slots.length < if 2 ≤ w.holds.length then 2 else 3)

/-- In STANDBY a trowel's island is gated off, once it has drained, unless it holds a port that sends SOSF (R216, R220)
(DESIGN CHOICE, log 137). -/
def State.standbyGated (s : State) (k : TrowelNo) : Bool := s.pw.mode == .standby && !(s.trowel k).holds.any s.inService

/-- A trowel takes bulk and control work. -/
def Trowel.open (w : Trowel) : Bool := w.tstate == .inService && w.room

/-- The home trowel of a port; none for ports whose home acts as a floater (R210). -/
def State.homeOf (s : State) (p : PortNo) : Option TrowelNo :=
  let k : TrowelNo := ⟨p.val, by omega⟩
  if s.isHome k then some k else none

/-- A queue that a levelling trowel may take from (R211) (DEDUCED, log 59). -/
def State.eligibleQueue (s : State) (p : PortNo) : Bool :=
  !(s.port p).queue.isEmpty &&
  match s.homeOf p with
  | some k => (s.trowel k).tstate != .inService || !(s.trowel k).room
  | none => true

/-- The victim of levelling (R211): most waiting, then the head picked earliest, then the lowest port. -/
def State.victim (s : State) : Option PortNo :=
  (allPorts.filter s.eligibleQueue).foldl (fun (b : Option PortNo) p => match b with
    | none => some p
    | some q =>
      let x := (s.port p).queue
      let y := (s.port q).queue
      let hd (l : List Txn) : Nat := (l.head?.map (·.id)).getD 0
      if y.length < x.length || (x.length == y.length && decide (hd x < hd y)) then some p else b) none

/-- The transaction's instance can still be served: it is not halted, its function can write (R117, R125), and its work is not
being cut (R319). -/
def State.txnLive (s : State) (t : Txn) : Bool :=
  match t.who with
  | .ep k => (s.ep k).isSome && s.canWrite t.inst && !s.cutting t.inst
  | .own q => (s.ownXfer q).isSome
  | .hub _ => false

/-- Payload bytes that a transaction of an entry stages (R203): a bulk OUT burst's blocks, or what is left of a control data stage. -/
def Txn.stageBytes (t : Txn) (e : Ep) (c : Xfer) : Nat :=
  let rem := teLength c.entry - c.bytes
  match t.kind with
  | .bulkOut => min (t.n * e.maxBlock) rem
  | .ctlOut => rem
  | _ => 0

/-- Staging of a transaction taken (R204): OUT data is read from host memory; what has none is staged at once. -/
def State.stage (s : State) (k : TrowelNo) (t : Txn) : State :=
  let put (s : State) (ph : TxnPhase) : State := s.modTrowel k fun w => { w with slots := w.slots ++ [{ t with phase := ph }] }
  match t.who with
  | .ep e =>
    match (s.ep e).bind fun e => e.cur.map fun c => (e, c) with
    | some (e, c) =>
      let len := t.stageBytes e c
      if len != 0 then
        (put s .taken).hostRead e.inst (teBuf c.entry + c.bytes) len (some k.val) none
      else put s .staged
    | none => put s .staged
  | _ => put s .staged

/-- The head of port `p`'s queue goes to trowel `k`; one whose instance can no longer be served returns to the arbiter. -/
def State.takeHead (s : State) (k : TrowelNo) (p : PortNo) (levelled : Bool) : State :=
  match (s.port p).queue with
  | [] => s
  | t :: q =>
    let s := s.modPort p fun x => { x with queue := q }
    if !s.txnLive t then s.unpick t.who
    else
      let s := (s.stage k t).modTrowel k fun w =>
        { w with taken := satInc w.taken, levelled := if levelled then satInc w.levelled else w.levelled }
      if levelled then s.count { cls := 0x0E, inst := some t.inst, port := some p.val, trowel := some k.val } else s

/-- TROWEL_TAKE_WORK (R210 to R212): the trowel's own port first, then levelling. -/
def execTrowelTakeWork (k : TrowelNo) (s : State) : Answer :=
  let w := s.trowel k
  if !s.alive || !w.open || s.standbyGated k then .next s
  else
    let own : Option PortNo := if h : k.val < 32 then (if s.isHome k then some ⟨k.val, h⟩ else none) else none
    match own with
    | some p =>
      if !(s.port p).queue.isEmpty then done (s.takeHead k p false)
      else if w.levelEn then
        match s.victim with
        | some v => done (s.takeHead k v true)
        | none => .next s
      else .next s
    | none =>
      if w.levelEn then
        match s.victim with
        | some v => done (s.takeHead k v true)
        | none => .next s
      else .next s

/-- Payload bytes that a staged transaction carries. -/
def State.stageLen (s : State) (t : Txn) : Nat :=
  match t.who with
  | .ep e => ((s.ep e).bind fun e => e.cur.map fun c => t.stageBytes e c).getD 0
  | _ => 0

/-- Data cut into blocks. -/
def blocksOf (mb : Nat) : (n : Nat) → List Byte → List (List Byte)
  | 0, _ => []
  | n + 1, l => l.take mb :: blocksOf mb n (l.drop mb)

/-- STAGING_COMPLETE (R204, R224, R229): OUT data is in the endpoint's region. An uncorrectable word there is fetched
again from host memory, and the work goes on. -/
def execStagingComplete (txn : Nat) (data : List Byte) (ecc : Ecc) (s : State) : Answer :=
  match allTrowels.findSome? fun k => ((s.trowel k).slots.find? fun t => t.id == txn && t.phase == .taken).map fun t => (k, t) with
  | some (k, t) =>
    match t.who with
    | .ep x =>
      match s.ep x with
      | some e =>
        if data.length != s.stageLen t then .next s
        else
          let s := (blocksOf e.maxBlock (blocksFor e.maxBlock data.length) data).foldl (fun s b => s.streamWrite x b k) s
          let s := s.noteEccBy (some e.inst) ecc (some k.val) none
          let s := if eccBad ecc then
              s.hostRead e.inst ((e.cur.map fun c => teBuf c.entry + c.bytes).getD 0) data.length (some k.val) none else s
          done (s.modTxn k txn fun t => { t with phase := .staged, data := data })
      | none => .next s
    | _ => .next s
  | none =>
    match s.eps.find? fun (_, e) => (e.cur.bind (·.staging)) == some txn with
    | some (x, e) =>
      if data.length != (e.cur.map fun c => teLength c.entry).getD 0 then .next s
      else
        let k := ((s.epPort e).map s.holderOf).getD 0
        let s := (s.regionWrite e (s.regionOf e).1 data k).noteEccBy (some e.inst) ecc (some k.val) none
        let s := if eccBad ecc then
            s.hostRead e.inst ((e.cur.map fun c => teBuf c.entry).getD 0) data.length (some k.val) none else s
        done (s.modEp x fun e => { e with cur := e.cur.map fun c => { c with staging := none } })
    | none => .next s

/-! ### Starting rounds of transactions (R40, R41, R52, R208) -/

/-- A token of the transaction may go (R22, R221, R255, R441): its instance is live and its device's branch usable; to address 0 only while
exactly one position of the port is at the default address. -/
def State.txnGoes (s : State) (t : Txn) : Bool :=
  s.txnLive t &&
  match t.who with
  | .ep k => ((s.ep k).map fun e => s.reachable e.zone).getD false
  | .own q => ((s.ownXfer q).map fun x =>
      if x.addr = 0 then s.zeroGoes x.port else s.reachable x.addr).getD false
  | .hub _ => false

/-- At least one block, or the whole of a stage without blocks, fits from `now` (R27). -/
def State.txnFits (s : State) (t : Txn) (now : Nat) : Bool :=
  match s.wire t.who with
  | none => false
  | some w =>
    let v := (s.port t.port).speed
    let limit := s.workLimit t.port
    match t.kind with
    | .bulkOut | .ctlOut => segmentFit v w.tier w.mb now limit (t.n - t.sent) != 0
    | .bulkIn | .ctlIn => fitBlocks v t.kind w.tier w.mb now limit t.n != 0
    | k => decide (now + longestRound v k w.tier 0 1 ≤ limit)

/-- Of some transactions, the one picked first. -/
def firstPicked (l : List (TrowelNo × Txn)) : Option (TrowelNo × Txn) :=
  l.foldl (fun (b : Option (TrowelNo × Txn)) t => match b with
    | none => some t
    | some x => if t.2.id < x.2.id then some t else b) none

/-- The transactions of a port whose round may be next on its line (R41, R51, R208): a re-send that fits goes at once; else every one
that has
started, and of those that have not the one picked first, if it is staged. -/
def State.nextTxns (s : State) (p : PortNo) (now : Nat) : List (TrowelNo × Txn) :=
  let held := (s.taken p).filter fun t => t.2.phase != .delivery && t.2.phase != .line && s.txnGoes t.2
  let ready := held.filter fun t => t.2.phase == .staged
  let queued := (s.port p).queue.filter s.txnGoes
  match firstPicked (ready.filter fun t => t.2.resent && t.2.sent == 0 && s.txnFits t.2 now) with
  | some t => [t]
  | none =>
    let first := (firstPicked (held.filter fun t => !t.2.started)).toList.filter fun t =>
      t.2.phase == .staged && queued.all fun u => decide (t.2.id < u.id)
    ready.filter (·.2.started) ++ first

/-- The line is free for control and bulk: the skim has been run. -/
def State.lineForWork (s : State) (p : PortNo) (now : Nat) : Bool := s.lineFree p now && !(s.port p).skim.any s.listedLive

/-- The transaction to start now, of one of the kinds, its OUT burst open or not. -/
def State.startable (s : State) (p : PortNo) (kinds : List RoundKind) (opened : Bool) (now : Nat) : Option (TrowelNo × Txn × Wire) :=
  if !s.lineForWork p now then none
  else (firstPicked ((s.nextTxns p now).filter fun t => kinds.contains t.2.kind && decide (t.2.sent != 0) == opened)).bind fun t =>
    (s.wire t.2.who).map fun w => (t.1, t.2, w)

/-- An IN round of a transaction starts (R40): as many of its blocks as still fit. -/
def State.startIn (s : State) (p : PortNo) (k : TrowelNo) (t : Txn) (w : Wire) (now : Nat) : State :=
  let v := (s.port p).speed
  let n := fitBlocks v t.kind w.tier w.mb now (s.workLimit p) t.n
  if n = 0 then s
  else
    let seq := s.expectOf t.who
    let s := s.send p (tokenPacket pidPoll w.addr (s.epidOf t.who true) seq (n - 1))
    (s.beginRound p t.kind t.who k (some t.id) now n seq 0 .entry).modTxn k t.id fun t => { t with phase := .line, n := n, s := seq, started := true }

/-- The last block of the transaction ends its transfer entry (R41, R51, R52). -/
def State.endsEntry (s : State) (t : Txn) : Bool :=
  match t.who with
  | .ep x => match (s.ep x).bind fun e => e.cur.map fun c => (e, c) with
    | some (e, c) => decide (teLength c.entry ≤ c.bytes + t.n * e.maxBlock)
    | none => true
  | _ => true

/-- The hawk words of block `j` of a transaction as it is read for sending, and the host read of a re-sent block whose staging
has been overwritten (R229). -/
def State.readBlock (s : State) (t : Txn) (k : TrowelNo) (j len : Nat) : State :=
  match t.who with
  | .ep x => match s.ep x with
    | some e =>
      let room := (s.regionOf e).2 / e.maxBlock
      let left := blocksFor e.maxBlock t.data.length - j
      if t.resent && decide (room < left) then
        s.hostRead e.inst ((e.cur.map fun c => teBuf c.entry + c.bytes + j * e.maxBlock).getD 0) len (some k.val) none
      else if (s.regionOf e).2 = 0 then s
      else s.countHawk e.inst (s.streamOff e (e.streamBlock - left)) len (some k.val) none
    | none => s
  | _ => s

/-- Blocks `t.sent` to `t.sent + m − 1` of an OUT burst leave after their PUSH (R41) (DESIGN CHOICE, log 103). -/
def State.sendBlocks (s : State) (p : PortNo) (k : TrowelNo) (t : Txn) (w : Wire) (m : Nat) : State :=
  let s := s.send p (tokenPacket pidPush w.addr (s.epidOf t.who false) (t.s + BitVec.ofNat 5 t.sent) (t.n - t.sent - 1))
  let ends := s.endsEntry t
  s.each ((List.range m).map (t.sent + ·)) fun s j =>
    let pay := bytesAt t.data (j * w.mb) w.mb
    (s.readBlock t k j pay.length).sendData p k w.inst (t.s + BitVec.ofNat 5 j) (j + 1 == t.n) (ends && j + 1 == t.n) pay

/-- The time of a segment that leaves its burst open, charged as it ends (R187). -/
def State.chargeSegment (s : State) (p : PortNo) (t : Txn) (len : Nat) : State :=
  if t.arb then s.modInst t.inst fun n => { n with deficit := vset n.deficit p (vget n.deficit p - (len : Int)) }
  else s.modPort p fun x => { x with ctrlUsed := x.ctrlUsed + len }

/-- An OUT burst starts or goes on (R41): the blocks that fit, and with the last of them the wait for the ACK. -/
def State.startOut (s : State) (p : PortNo) (k : TrowelNo) (t : Txn) (w : Wire) (now : Nat) : State :=
  let v := (s.port p).speed
  let m := segmentFit v w.tier w.mb now (s.workLimit p) (t.n - t.sent)
  if m = 0 then s
  else
    let s := s.sendBlocks p k t w m
    if t.sent + m = t.n then
      (s.beginRound p t.kind t.who k (some t.id) now t.n t.s t.n .entry).modTxn k t.id fun t => { t with phase := .line, started := true }
    else
      ((s.modTxn k t.id fun t => { t with sent := t.sent + m, started := true }).chargeSegment p t (segmentTime w.mb m + gapTime)).modPort p
        fun x => { x with gap := none, lineAt := now + segmentTime w.mb m + gapTime }

/-- BULK_IN_ROUND (R39, R40, R51). -/
def execBulkInRound (p : PortNo) (now : Nat) (s : State) : Answer :=
  match s.startable p [.bulkIn] false now with
  | some (k, t, w) => s.withContext t.who fun s => done (s.startIn p k t w now)
  | none => .next s

/-- BULK_OUT_BURST (R39, R41, R51). -/
def execBulkOutBurst (p : PortNo) (now : Nat) (s : State) : Answer :=
  match s.startable p [.bulkOut] false now with
  | some (k, t, w) => s.withContext t.who fun s => done (s.startOut p k t w now)
  | none => .next s

/-- OUT_SEGMENT_CONTINUE (R41): the next segment, from the trowel that sent the first. -/
def execOutSegmentContinue (p : PortNo) (now : Nat) (s : State) : Answer :=
  match s.startable p [.bulkOut, .ctlOut] true now with
  | some (k, t, w) => s.withContext t.who fun s => done (s.startOut p k t w now)
  | none => .next s

/-- The 8 setup bytes of a control transfer (R52, R238). -/
def State.setupOf (s : State) (h : Holder) : List Byte :=
  match h with
  | .ep x => leBytes 8 (((s.ep x).bind fun e => e.cur.map fun c => teSetup c.entry).getD 0)
  | .own q => match s.ownXfer q with
    | some x => leBytes 1 x.req ++ leBytes 1 x.tgt ++ leBytes 2 x.sel ++ leBytes 2 x.arg ++ leBytes 2 x.xlen
    | none => List.replicate 8 0
  | .hub _ => List.replicate 8 0

/-- Both directions of endpoint 0 go to 0 (R36, R52). -/
def State.setupSeq (s : State) (h : Holder) : State :=
  match h with
  | .ep x => s.modEp x fun e => { e with nextSeq := 0, expectSeq := 0 }
  | .own q => s.modOwn q fun x => { x with inSeq := 0, outSeq := 0, data := [] }
  | .hub _ => s

/-- CONTROL_SETUP_STAGE (R52): SETUP and the setup block. -/
def execControlSetupStage (p : PortNo) (now : Nat) (s : State) : Answer :=
  match s.startable p [.setup] false now with
  | some (k, t, w) => s.withContext t.who fun s =>
    let v := (s.port p).speed
    if now + longestSetup v w.tier ≤ s.workLimit p then
      let s := ((s.setupSeq t.who).send p (tokenPacket pidSetup w.addr 0 0 0)).sendData p k w.inst 0 true true (s.setupOf t.who)
      done ((s.beginRound p .setup t.who k (some t.id) now 1 0 1 .entry).modTxn k t.id fun t => { t with phase := .line, s := 0, started := true })
    else .next s
  | none => .next s

/-- CONTROL_DATA_STAGE (R52): a round of the data stage, by the rules of bulk. -/
def execControlDataStage (p : PortNo) (now : Nat) (s : State) : Answer :=
  match s.startable p [.ctlIn, .ctlOut] false now with
  | some (k, t, w) => s.withContext t.who fun s => done (if t.kind == .ctlIn then s.startIn p k t w now else s.startOut p k t w now)
  | none => .next s

/-- CONTROL_STATUS_STAGE (R52): a zero-length block out after an IN data stage, else a POLL for one. -/
def execControlStatusStage (p : PortNo) (now : Nat) (s : State) : Answer :=
  match s.startable p [.stIn, .stOut] false now with
  | some (k, t, w) => s.withContext t.who fun s =>
    let v := (s.port p).speed
    if now + longestRound v t.kind w.tier 0 1 ≤ s.workLimit p then
      if t.kind == .stIn then
        let seq := s.expectOf t.who
        done (((s.send p (tokenPacket pidPoll w.addr 0x10 seq 0)).beginRound p .stIn t.who k (some t.id) now 1 seq 0 .entry).modTxn
          k t.id fun t => { t with phase := .line, s := seq, started := true })
      else
        let s := (s.send p (tokenPacket pidPush w.addr 0 t.s 0)).sendData p k w.inst t.s true true []
        done ((s.beginRound p .stOut t.who k (some t.id) now 1 t.s 1 .entry).modTxn k t.id fun t => { t with phase := .line, started := true })
    else .next s
  | none => .next s

/-! ### Backoffs and deliveries -/

/-- SILENCE_BACKOFF_EXPIRY (R45): the holder is ready again, once the subframes of its backoff have passed (DESIGN CHOICE, log 138). -/
def execSilenceBackoffExpiry (who : Holder) (s : State) : Answer :=
  match who with
  | .ep k => .next (s.modEp k fun e => if e.backoffAt ≤ s.pl.subN then { e with backoff := false } else e)
  | .own q => .next (s.modOwn q fun x => if x.backoffAt ≤ s.pl.subN then { x with backoff := false } else x)
  | .hub _ => .next s

/-- TRANSACTION_DELIVERY_DONE (R16, R112, R204): data, then the event, and the slot is free; an endpoint's deliveries are made in
order. It waits while the function cannot
write (R125); what a halted instance was due is discarded (R117). -/
def execTransactionDeliveryDone (d : Nat) (s : State) : Answer :=
  match s.deliveries.find? fun x => x.id == d with
  | none => .next s
  | some x =>
    match s.ep x.ep with
    | none => .next s
    | some e =>
      if (s.deliveries.find? fun y => y.ep == x.ep).map (·.id) != some d then .next s
      else if s.canWrite e.inst then done (s.deliver x)
      else if (s.inst e.inst).halted || s.pw.halted then
        let s : State := { s with deliveries := s.deliveries.filter fun (y : Delivery) => y.id != d }
        .next ((s.freeSlot x.txn).modEp x.ep fun e => { e with delivering := false, picked := false })
      else
        .next { s with deliveries := s.deliveries.map fun (y : Delivery) =>
          if y.id = d && y.since.isNone then { y with since := some s.stamp } else y }

/-! ### Trowels in and out of service (R213 to R220) -/

/-- Transactions of a trowel that have not started go back to the heads of their ports' queues in pick order (R208, R215). -/
def State.returnTxns (s : State) (k : TrowelNo) (which : Txn → Bool) : State :=
  let back := (s.trowel k).slots.filter which
  let s := s.modTrowel k fun w => { w with slots := w.slots.filter fun t => !which t }
  s.each back.reverse fun s t =>
    s.modPort t.port fun x =>
      let t : Txn := { t with phase := .queued, data := [] }
      { x with queue := (x.queue.takeWhile fun u => u.id < t.id) ++ t :: (x.queue.dropWhile fun u => u.id < t.id) }

/-- A substitute for port `p` (R213), not `k`: a floater with room, else an idle home trowel. Room is that of ports
alone, whatever bulk work it has (DESIGN CHOICE, log 135). -/
def State.substitute (s : State) (p : PortNo) (but : Option TrowelNo) : Option TrowelNo :=
  let start := p.val % 16
  let floaters : List TrowelNo := (List.finRange 16).map fun j => ⟨32 + (start + j.val) % 16, by omega⟩
  let good (k : TrowelNo) (most : Nat) : Bool :=
    (s.trowel k).tstate == .inService && !(s.trowel k).oosReq && some k != but && decide ((s.trowel k).holds.length < most)
  match floaters.find? fun k => good k 2 with
  | some k => some k
  | none => allTrowels.find? fun k =>
      if h : k.val < 32 then
        good k 1 && ((s.port ⟨k.val, h⟩).st == .unpowered || (s.port ⟨k.val, h⟩).st == .held)
      else false

/-- Every port that trowel `k` holds would find a substitute (R214), each counted against the others. -/
def State.canRelieve (s : State) (k : TrowelNo) : Bool :=
  ((s.trowel k).holds.foldl (fun (a : Option State) p =>
    a.bind fun s => (s.substitute p (some k)).map fun j => s.modTrowel j fun w => { w with holds := w.holds ++ [p] }) (some s)).isSome

/-- A trowel begins to drain (R215). -/
def State.drainTrowel (s : State) (k : TrowelNo) : State :=
  (s.modTrowel k fun w => { w with tstate := .draining }).returnTxns k fun t => !t.started

/-- The floaters. -/
def floaters : List TrowelNo := allTrowels.filter fun k => decide (32 ≤ k.val)

/-- While step 4 of the ladder is in force, floaters that hold no port drain to be gated (R216), those too that return to service or free
their port later. -/
def State.gateIdle (s : State) : State :=
  if s.pw.acted < 4 then s
  else s.each floaters fun s k =>
    let w := s.trowel k
    if (w.tstate == .inService || w.tstate == .returning) && w.holds.isEmpty then s.drainTrowel k else s

/-- A write that sets `oos_req` (R214, R215): refused, and ignored, where a port would lose its holder. -/
def State.oosRequest (s : State) (k : TrowelNo) : State :=
  if !s.canRelieve k then s.modTrowel k fun w => { w with oosRefused := true }
  else
    let s := s.modTrowel k fun w => { w with oosReq := true, oosRefused := false }
    match (s.trowel k).tstate with
    | .inService | .returning => s.drainTrowel k
    | _ => s

/-- TROWEL_OOS_REQUEST (R214, R215). -/
def execTrowelOosRequest (k : TrowelNo) (s : State) : Answer :=
  if s.nativeRegs 0 then .next ((s.written 0).oosRequest k) else .next s

/-- A trowel starts its self-check, unless it is in service (R219). -/
def Trowel.check (w : Trowel) : Trowel :=
  { w with tstate := match w.tstate with
             | .inService => .inService
             | _ => .returning }

/-- A write of 0 to `oos_req` (R219, R232). -/
def Trowel.return (w : Trowel) : Trowel := { w.check with oosReq := false, oosRefused := false }

/-- TROWEL_RETURN_REQUEST (R219): the self-check begins (DEDUCED, log 82). -/
def execTrowelReturnRequest (k : TrowelNo) (s : State) : Answer :=
  if s.nativeRegs 0 then .next ((s.written 0).modTrowel k (·.return)) else .next s

/-- TROWEL_DRAIN_COMPLETE (R215): every slot is free and every port has passed on. -/
def execTrowelDrainComplete (k : TrowelNo) (s : State) : Answer :=
  let w := s.trowel k
  if w.tstate == .draining && w.slots.isEmpty && w.holds.isEmpty then
    .next (s.modTrowel k fun w => { w with tstate := if w.oosReq then .outOfService else .gatedShed })
  else .next s

/-- TROWEL_SELF_CHECK_END (R219): it takes work again, or is faulted, also where it was not before (DESIGN CHOICE, log 134). -/
def execTrowelSelfCheckEnd (k : TrowelNo) (pass : Bool) (s : State) : Answer :=
  if (s.trowel k).tstate == .returning then
    .next (s.modTrowel k fun w => { w with tstate := if pass then .inService else .faulted }).gateIdle
  else .next s

/-- A started transaction of a faulted trowel ends as a CORRUPT round of its holder (R218); what it had for delivery is still
delivered. -/
def State.faultTxn (s : State) (k : TrowelNo) (t : Txn) : State :=
  let free (d : Delivery) : Delivery := if d.txn == some (k, t.id) then { d with txn := none } else d
  let s : State := { s with deliveries := s.deliveries.map free }
  let s := s.modPort t.port fun x => { x with round := match x.round with
    | some r => if r.txn == some t.id then none else some r
    | none => none }
  let s := (s.freeSlot (some (k, t.id))).unpick t.who
  let s := s.countEnd t.port k (match t.who with | .ep _ => some t.inst | _ => none) .corrupt
  match t.who with
  | .ep x => s.epOutcome x t.port k .corrupt
  | .own q => s.modOwn q fun x =>
      let a := x.tally.after 3 .corrupt
      let y := x.setTally a.1
      if a.2 && decide (3 ≤ a.1.err) then { y with result := some .crcExhausted } else y
  | .hub _ => s

/-- TROWEL_FAULT (R218): out of service at once; with a skim in its hands, that of a port in service that it holds, a fatal internal error
(DEDUCED, log 123). -/
def execTrowelFault (k : TrowelNo) (watchdog : Bool) (s : State) : Answer :=
  let w := s.trowel k
  if !s.alive then .next s
  else if w.holds.any s.inService then .next ((s.record 0x05 [BitVec.ofNat 8 (0x40 + k.val), 2]).resetPrime 4)
  else match w.tstate with
    | .inService | .draining | .returning =>
      let s := s.record 0x06 [BitVec.ofNat 8 k.val, if watchdog then 2 else 1]
      let s := s.returnTxns k fun t => !t.started
      let s := s.each (s.trowel k).slots fun s t => s.faultTxn k t
      done (s.modTrowel k fun w => { w with tstate := .faulted, slots := [] })
    | _ => .next s

/-! ### The hawk (R224, R225, R228) -/

/-- The instance that holds a physical byte in one of its regions (R224). -/
def State.regionOwner (s : State) (a : Nat) : Option InstNo :=
  allInsts.find? fun i =>
    match (s.inst i).unitMap.idxOf? (a / 512) with
    | some u => (s.inst i).regions.any fun (_, r) => r.valid && decide (r.base ≤ u) && decide (u < r.base + r.units)
    | none => false

/-- HAWK_SCRUB_READ (R224, R225). -/
def execHawkScrubRead (ecc : Ecc) (s : State) : Answer :=
  if s.mem.passS = 0 || !s.alive then .next s
  else
    let i := match ecc with
      | .uncorrectable a => s.regionOwner a.toNat
      | _ => none
    done (s.noteEcc i ecc)

/-- A region descriptor as software writes it (R235). -/
def readRegion (w : Word) : Region := ⟨bitOf w 63, fld w 47 32, fld w 15 0⟩

/-- A channel that is not IDLE uses the region: its pointers and parameter block lie in it (R228, R265). -/
def State.regionInUse (s : State) (i : InstNo) (d : Nat) : Bool :=
  let r := kget (s.inst i).regions d
  (s.eps.any fun (_, e) => e.inst == i && e.st != .closed && e.region == d) ||
  (s.commits.any fun (_, c) => c.inst == i && c.phase != .missed && c.slots.any fun x =>
    match r with
    | some r => r.valid && decide (512 * r.base ≤ x.addr) && decide (x.addr < 512 * (r.base + r.units))
    | none => false) ||
  (allChans.any fun c =>
    let x := s.chan c
    x.owner == i && x.cstate != .idle && x.ready &&
      x.ptrs.toList.any fun w => fld w 63 62 == 2 && fld w 57 48 == d)

/-- Units that two regions share. -/
def Region.overlaps (a b : Region) : Bool := decide (a.base < b.base + b.units) && decide (b.base < a.base + a.units)

/-- A descriptor write is taken (R228). -/
def State.regionOk (s : State) (i : InstNo) (d : Nat) (r : Region) : Bool :=
  let n := s.inst i
  decide (d < n.regionQuota) && !s.regionInUse i d &&
  (!r.valid || (r.units != 0 && decide (r.base + r.units ≤ n.unitMap.length) &&
    !(n.regions.any fun (k, x) => k != d && x.valid && x.overlaps r)))

/-- HWK_REGION_WRITE (R228, R235): applied, or ignored and counted. -/
def execHwkRegionWrite (i : InstNo) (d : Nat) (w : Word) (s : State) : Answer :=
  if !s.regsOpen i || 1024 ≤ d then .next s
  else
    let s := s.written i
    let r := readRegion w
    if s.regionOk i d r then .next (s.modInst i fun n => { n with regions := kset n.regions d r })
    else .next (s.modInst i fun n => { n with carveRejects := satInc n.carveRejects })

end Sys2Proof.Machine
end

