-- ==== Sys2Proof/Machine/Halts.lean ====
section
/-!
DEFINITION. Stopping the work of an instance: what it has on a line and in hand (R207, R209, R319), and malformed work with the halts that it
brings (R114 to R117, R442).
-/
namespace Sys2Proof.Machine

/-! ### The work of an instance -/

/-- Endpoint slots of an instance. -/
def State.epSlots (s : State) (i : InstNo) : List Nat := (s.eps.filter fun e => e.2.inst == i).map (·.1)

/-- The holder is an endpoint of the instance. -/
def State.holds (s : State) (i : InstNo) (h : Holder) : Bool :=
  match h with
  | .ep k => ((s.ep k).map fun e => e.inst == i).getD false
  | _ => false

/-- Transactions of an instance picked or taken but not started are withdrawn (R209, R319). -/
def State.withdrawInst (s : State) (i : InstNo) : State :=
  let mine (t : Txn) : Bool := s.holds i t.who && !t.started
  let back := (allPorts.flatMap fun p => (s.port p).queue.filter mine) ++
    allTrowels.flatMap fun k => (s.trowel k).slots.filter mine
  let s := s.each allPorts fun s p =>
    if (s.port p).queue.any mine then s.modPort p fun x => { x with queue := x.queue.filter fun t => !mine t } else s
  let s := s.each allTrowels fun s k =>
    if (s.trowel k).slots.any mine then s.modTrowel k fun w => { w with slots := w.slots.filter fun t => !mine t } else s
  s.each back fun s t => s.unpick t.who

/-- The endpoint's round is on a line now. -/
def State.onLine (s : State) (k : Nat) : Bool :=
  allPorts.any fun p => match (s.port p).round with
    | some r => r.who == .ep k
    | none => false

/-! ### Block boundaries (R207) -/

/-- A response to a round of the holder is awaited on the line, so that the holder is not at a block boundary (R207). Between the
blocks of an IN burst it is. -/
def State.midWait (s : State) (h : Holder) : Bool :=
  allPorts.any fun p => match (s.port p).round with
    | some r => r.who == h && (!r.kind.isIn || r.got == 0)
    | none => false

/-- The transactions of an instance are cut where they stand at a block boundary (R207): its entries stay in progress. -/
def State.cutInst (s : State) (i : InstNo) : State :=
  s.each (s.epSlots i) fun s k => if s.midWait (.ep k) then s else s.cutEp k

/-! ### Malformed work and halts -/

/-- An INSTANCE_NOTICE of tenant `i` with reason HALTED (R110, R442). -/
def State.haltNotice (s : State) (i : InstNo) (code kind target index : Nat) : Event :=
  BitVec.ofNat 256 (pack
    [(0, 8, 0x04), (16, 6, i.val), (24, 4, 1), (28, 2, kind), (32, 8, code), (40, 17, target), (64, 16, index),
     (96, 32, s.stamp)])

/-- An INSTANCE_NOTICE of tenant `i` with reason Function Level Reset (R110). -/
def State.flrNotice (s : State) (i : InstNo) : Event :=
  BitVec.ofNat 256 (pack [(0, 8, 0x04), (16, 6, i.val), (24, 4, 2), (96, 32, s.stamp)])

/-- Events of instance `i` that wait on chip are discarded, their slots with them (R117). -/
def State.dropWaiting (s : State) (i : InstNo) : State :=
  let s := s.each (s.inst i).waiting fun s x => s.modRing i x.ring fun r => { r with reserved := r.reserved - 1 }
  (s.modInst i fun n => { n with waiting := [], waitData := [] }).releaseNotices i

/-- The channels of an instance that is not served pause (R263, R282, R319). -/
def State.pauseChans (s : State) (i : InstNo) : State :=
  s.each allChans fun s c =>
    let x := s.chan c
    if x.owner == i && (x.cstate == .running || x.cstate == .waiting) then s.modChan c fun x => { x with cstate := .paused } else s

/-- The paused channels of an instance that is served again go on (R263, R319). -/
def State.unpauseChans (s : State) (i : InstNo) : State :=
  s.each allChans fun s c =>
    let x := s.chan c
    if x.owner == i && x.cstate == .paused then
      s.modChan c fun x => { x with cstate := if x.wait.isSome then .waiting else .running } else s

/-- Detail bytes of a MALFORMED entry (R391); `store` is the offset of a backing-store access. -/
def malformedDetail (i : InstNo) (code kind target index : Nat) (store : Option Nat) : List Byte :=
  [BitVec.ofNat 8 i.val, BitVec.ofNat 8 code, BitVec.ofNat 8 kind, 0] ++ leBytes 4 target ++
    (match store with
     | none => leBytes 4 index
     | some o => leBytes 4 o ++ [1])

/-- The work of a halted instance (R117): what has not started is withdrawn, what is not yet written or posted is discarded, and the transactions at
a block boundary are over; its contexts stay as they were. -/
def State.haltWork (s : State) (i : InstNo) : State :=
  let s := (s.dropWaiting i).withdrawInst i
  s.each (s.epSlots i) fun s k =>
    let s : State := (s.deliveries.filter fun d => d.ep == k).foldl (fun s d => s.freeSlot d.txn) s
    let s : State := { s with deliveries := s.deliveries.filter fun (d : Delivery) => d.ep != k }
    if s.midWait (.ep k) then s else s.endWire (.ep k)

/-- Malformed work of an instance (R115 to R117, R442): the manager's halts the controller, a tenant's halts
that tenant and is told to the manager. What is halted already stays as it is. -/
def State.malformedAt (s : State) (i : InstNo) (code kind target index : Nat) (store : Option Nat) : State :=
  if s.pw.halted || (s.inst i).halted then s else
  let s := s.record 0x08 (malformedDetail i code kind target index store)
  if i = 0 then s.modPw fun w => { w with halted := true }
  else
    let s := s.modInst i fun n =>
      { n with halted := true, malCode := BitVec.ofNat 8 code, badKind := BitVec.ofNat 2 kind
               badTarget := BitVec.ofNat 17 target, badIndex := BitVec.ofNat 16 index
               st := if n.st == .disabled then n.st else .halted, served := false }
    ((s.haltWork i).pauseChans i).unsolicited 0 0 (.notice i 1) (s.haltNotice i code kind target index)

def State.malformed (s : State) (i : InstNo) (code kind target index : Nat) : State :=
  s.malformedAt i code kind target index none

end Sys2Proof.Machine
end

