-- ==== Sys2Proof/Machine/Commands.lean ====
section
/-!
DEFINITION. The Stoesk command channel (05): fields of command entries, malformed commands (R114), the objects that order
commands (R149), who may issue what (R135), completion with a COMMAND event (R92, R108), COMMAND_FETCH and NOP.
-/
namespace Sys2Proof.Machine

/-! ### Fields and malformed entries -/

def ceOp (c : CEntry) : Nat := fld c 7 0
def ceTag (c : CEntry) : Nat := fld c 63 32

/-- The parameter bits that the chapter defines for an opcode (R138, R140, R144, R146); none for an opcode that is not in the
set of R133. -/
def paramBits : Nat → Option (List (Nat × Nat))
  | 0x01 => some []
  | 0x10 => some [(68, 64), (83, 72), (87, 84)]
  | 0x11 => some [(68, 64), (83, 72), (95, 95)]
  | 0x12 => some [(239, 64)]
  | 0x13 => some [(88, 64), (239, 93)]
  | 0x14 => some [(80, 64)]
  | 0x15 => some [(80, 64)]
  | 0x16 => some [(80, 64)]
  | 0x17 => some [(80, 64), (111, 96)]
  | 0x18 => some [(75, 64)]
  | 0x20 => some [(68, 64), (76, 72), (91, 80)]
  | 0x21 => some [(83, 64)]
  | 0x30 => some [(95, 64), (191, 128)]
  | 0x31 => some [(104, 64), (191, 128)]
  | 0x32 => some [(75, 64)]
  | 0x33 => some [(113, 64), (191, 128), (205, 192)]
  | 0x34 => some [(74, 64)]
  | 0x40 => some [(125, 64), (142, 128), (156, 144)]
  | 0x41 => some [(74, 64), (95, 80)]
  | 0x42 => some [(69, 64), (95, 72)]
  | 0x43 => some [(69, 64), (106, 80)]
  | 0x44 => some [(70, 64)]
  | 0x45 => some [(69, 64)]
  | 0x46 => some [(70, 64)]
  | 0x47 => some [(69, 64), (223, 128)]
  | 0x48 => some [(69, 64), (223, 128)]
  | 0x49 => some [(71, 64), (287, 128)]
  | 0x4A => some [(73, 64), (87, 80), (107, 96), (119, 108)]
  | 0x4B => some [(205, 128)]
  | 0x4C => some [(65, 64), (223, 128)]
  | 0x4D => some [(67, 64), (207, 128)]
  | _ => none

/-- The bits [hi:lo] of some ranges set. -/
def rangeMask (l : List (Nat × Nat)) : Nat := l.foldl (fun a r => a ||| (2 ^ (r.1 + 1) - 2 ^ r.2)) 0

/-- A reserved bit is set (R105, R114). -/
def ceReserved (c : CEntry) (l : List (Nat × Nat)) : Bool :=
  c &&& ~~~(BitVec.ofNat 512 (rangeMask ((7, 0) :: (63, 32) :: l))) != 0

/-- A count of records read from host memory above its maximum (R114). -/
def ceTooLong (c : CEntry) : Bool :=
  match ceOp c with
  | 0x30 => decide (8192 < fld c 95 80)
  | 0x33 => decide (8192 < fld c 205 192)
  | 0x4B => decide (4096 < fld c 205 192)
  | 0x4C => decide (0x200000 < fld c 223 192)
  | _ => false

/-- A command address below the alignment its opcode requires (R114). -/
def ceMisaligned (c : CEntry) : Bool :=
  match ceOp c with
  | 0x12 => fld c 133 128 != 0
  | 0x30 => fld c 130 128 != 0
  | 0x33 => fld c 130 128 != 0
  | 0x47 => fld c 139 128 != 0
  | 0x48 => fld c 139 128 != 0
  | 0x49 => fld c 130 128 != 0 || fld c 203 192 != 0
  | 0x4B => fld c 130 128 != 0
  | 0x4C => fld c 139 128 != 0
  | _ => false

/-- The code of a malformed command entry, in the order of the table of R114. -/
def ceMalformed (c : CEntry) : Option Nat :=
  match paramBits (ceOp c) with
  | none => some mUnknownOpcode
  | some l =>
    if ceReserved c l then some mReservedSet
    else if ceTooLong c then some mLengthRange
    else if ceMisaligned c then some mMisaligned
    else none

/-! ### The objects of commands (R133, R149) -/

/-- What a command acts on, as its issuer names it. -/
inductive CmdObj where
  | port (p : Nat)
  | dev (n : Nat)
  | ep (k : Nat)
  | gate (g : Nat)
  | inst (n : Nat)
  | hubPorts (hub port : Nat)
  | store (lo hi : Nat)
  | ctrs (n : Nat)
  deriving DecidableEq, Repr

/-- Two names of one object. -/
def CmdObj.meets : CmdObj → CmdObj → Bool
  | .hubPorts h p, .hubPorts h' p' => h == h' && (p == p' || p == 0 || p' == 0)
  | .store a b, .store c d => decide (a < d) && decide (c < b)
  | x, y => x == y

/-- Endpoint indices that a slot list names (R190). -/
def listedEps (data : List Byte) (count : Nat) : List Nat := (List.range count).map fun j => numAt data (8 * j) 8 % 2 ^ 17

/-- The objects of a command; those of COMMIT_ARM include its listed endpoints once they are read. -/
def Cmd.objs (c : Cmd) (tier1 : Nat → Option Nat) : List CmdObj :=
  let e := c.entry
  match ceOp e with
  | 0x10 => [.port (fld e 68 64)]
  | 0x11 => if bitOf e 95 then [.dev (fld e 83 72)] else [.port (fld e 68 64)]
  | 0x12 => [.ep (fld e 80 64)]
  | 0x13 => [.ep (fld e 80 64)]
  | 0x14 => [.ep (fld e 80 64)]
  | 0x15 => [.ep (fld e 80 64)]
  | 0x16 => [.ep (fld e 80 64)]
  | 0x17 => [.ep (fld e 80 64)]
  | 0x18 => [.dev (fld e 75 64)]
  | 0x20 =>
    if bitOf e 68 then
      .dev (fld e 91 80) :: (match tier1 (fld e 91 80) with
        | some p => [.port p]
        | none => [])
    else [.port (fld e 76 72)]
  | 0x21 => [.hubPorts (fld e 75 64) (fld e 79 76)]
  | 0x30 => [.store (fld e 79 64) (fld e 79 64 + 8 * fld e 95 80)]
  | 0x32 => [.gate (fld e 75 64)]
  | 0x33 => .gate (fld e 110 99) :: (match c.phase with
      | .read d => (listedEps d (fld e 205 192)).map .ep
      | _ => [])
  | 0x34 => [.ctrs (fld e 69 64)]
  | 0x42 => [.dev (fld e 83 72)]
  | 0x40 | 0x41 | 0x43 | 0x44 | 0x45 | 0x46 | 0x47 | 0x48 | 0x49 => [.inst (fld e 69 64)]
  | _ => []

/-- NOP, and commands whose object is device-wide, wait for all before and hold all after (R149). -/
def Cmd.barrier (c : Cmd) : Bool :=
  match ceOp c.entry with
  | 0x01 | 0x4A | 0x4B | 0x4C | 0x4D => true
  | _ => false

/-- The command names an endpoint, a COMMIT_ARM those of its list (R149). -/
def Cmd.namesEp (c : Cmd) : Bool :=
  match ceOp c.entry with
  | 0x12 | 0x13 | 0x14 | 0x15 | 0x16 | 0x17 | 0x33 => true
  | _ => false

/-- A COMMIT_ARM that has not read its slot list. -/
def Cmd.unread (c : Cmd) : Bool :=
  ceOp c.entry == 0x33 && (match c.phase with | .read _ => false | _ => true)

/-- An earlier command holds back a later one of the same ring (R149). -/
def Cmd.holds (a b : Cmd) (tier1 : Nat → Option Nat) : Bool :=
  a.barrier || b.barrier || (a.unread && b.namesEp) || (a.objs tier1).any fun x => (b.objs tier1).any x.meets

/-! ### Naming (R134, R96, R97) -/

/-- The zone address that an issuer's device field names. -/
def State.zoneOf (s : State) (i : InstNo) (n : Nat) : Option Nat := if i = 0 then some n else kget (s.inst i).devMap n

/-- The device that an issuer names, if it is the issuer's. -/
def State.devOf (s : State) (i : InstNo) (n : Nat) : Option (Nat × DevRec) :=
  if n = 0 then none
  else (s.zoneOf i n).bind fun z => (s.dev z).bind fun d => if d.owner = i then some (z, d) else none

/-- The open endpoint that an issuer names. -/
def State.epOf (s : State) (i : InstNo) (n : Nat) : Option (Nat × Ep) :=
  if n < (s.inst i).epLimit then
    let k := (s.inst i).epBase + n
    (s.ep k).bind fun e => if e.inst = i then some (k, e) else none
  else none

/-- The device that an issuer may reset (R142): a tenant one of its own, the manager any. -/
def State.resetDev (s : State) (i : InstNo) (n : Nat) : Option (Nat × DevRec) :=
  if i = 0 && n != 0 then (s.dev n).map fun d => (n, d) else s.devOf i n

/-- The root port of a device at tier 1, as the issuer names it. -/
def State.tier1 (s : State) (i : InstNo) (n : Nat) : Option Nat :=
  (s.resetDev i n).bind fun (_, d) => if d.tier ≤ 1 then some d.port.val else none

/-- The instance that a command names (R147): the manager, or an enabled virtual function. -/
def State.instOf (s : State) (n : Nat) : Option InstNo :=
  if h : n < 64 then
    let j : InstNo := ⟨n, h⟩
    if n = 0 || (s.inst j).st != .disabled then some j else none
  else none

/-! ### Starting and ending a command -/

/-- The command of an instance in a slot. -/
def State.cmd (s : State) (i : InstNo) (slot : BitVec 16) : Option Cmd := (s.inst i).cmds.find? fun c => c.slot == slot

/-- The phase of a command changed. -/
def State.setPhase (s : State) (i : InstNo) (slot : BitVec 16) (ph : CmdPhase) : State :=
  s.modInst i fun n => { n with cmds := n.cmds.map fun c => if c.slot = slot then { c with phase := ph } else c }

/-- Every earlier command of the ring has started, and none holds the command back (R149). -/
def State.clear (s : State) (i : InstNo) (c : Cmd) : Bool :=
  ((s.inst i).cmds.takeWhile fun x => x.slot != c.slot).all fun x => x.phase != .fetched && !x.holds c (s.tier1 i)

/-- Commands started and not complete (R149). -/
def Inst.started (n : Inst) : Nat := (n.cmds.filter fun c => c.phase != .fetched).length

/-- A command completes: its COMMAND event is posted into the slot reserved for it (R105, R108), and `head` passes it (R92). -/
def State.finish (s : State) (i : InstNo) (slot : BitVec 16) (st : Status) (result : Nat) : State :=
  match s.cmd i slot with
  | none => s
  | some c =>
    let s := s.modInst i fun n => { n with cmds := n.cmds.filter fun c => c.slot != slot }
    let s := if (s.inst i).halted || s.pw.halted then s else s.count { cls := 0x0F, inst := some i }
    let w : WaitEvt := ⟨0, commandEvent (ceTag c.entry) result slot.toNat st.code, false, none, .command slot, none, none⟩
    if s.canWrite i then (s.postWait i w).after i w else s.postWait i w

/-- Opcodes that only the manager may issue (R133). -/
def managerOnly (op : Nat) : Bool := op == 0x10 || op == 0x18 || decide (0x40 ≤ op)

/-- Opcodes carried out in COMPAT (R414). -/
def compatOpcode (op : Nat) : Bool :=
  op == 0x01 || (decide (0x10 ≤ op) && decide (op ≤ 0x18)) || op == 0x20 || op == 0x21 || op == 0x4A || op == 0x4B

/-- The issuer may not issue the command, or a field of it (R135 step 1, R414). -/
def State.notPermitted (s : State) (i : InstNo) (e : CEntry) : Bool :=
  (s.inCompat && !compatOpcode (ceOp e)) ||
  (i != 0 && (managerOnly (ceOp e) ||
    (match ceOp e with
     | 0x11 => !bitOf e 95
     | 0x12 => bitOf e 239
     | 0x13 => bitOf e 88
     | 0x20 => !bitOf e 68
     | _ => false)))

/-- A command may start (R149): of an instance that is not halted (R117), fetched, not held back, and with fewer than 16 in progress. -/
def State.mayStart (s : State) (i : InstNo) (c : Cmd) : Bool :=
  s.runs && !(s.inst i).halted && !(s.inst i).flrAsked && c.phase == .fetched && s.clear i c && decide ((s.inst i).started < 16)

/-- Commands that the sequencer carries out (R133). -/
def seqOpcode (op : Nat) : Bool :=
  op == 0x10 || op == 0x11 || op == 0x18 || op == 0x20 || op == 0x21 || op == 0x30 || decide (0x34 ≤ op)

/-- An instance has a command that waits for the sequencer. -/
def State.seqWaits (s : State) (i : InstNo) : Bool := (s.inst i).cmds.any fun c => seqOpcode (ceOp c.entry) && s.mayStart i c

/-- It is the instance's turn at the sequencer (R156): the manager's commands go first, and the tenants are served in turn. -/
def State.seqTurn (s : State) (i : InstNo) : Bool :=
  i == 0 || (!s.seqWaits 0 &&
    (((allTenants.drop s.seqLast.val) ++ (allTenants.take s.seqLast.val)).find? s.seqWaits == some i))

/-- The sequencer has served a command of an instance. -/
def State.seqServed (s : State) (i : InstNo) (op : Nat) : State := if seqOpcode op && i != 0 then { s with seqLast := i } else s

/-- The command in a slot that a row carries out now: of its opcode and form, and one that may start; the sequencer's in its turn. -/
def State.starts (s : State) (i : InstNo) (slot : BitVec 16) (op : Nat) (form : CEntry → Bool) : Option CEntry :=
  match s.cmd i slot with
  | none => none
  | some c => if s.mayStart i c && ceOp c.entry == op && form c.entry && (!seqOpcode op || s.seqTurn i) then some c.entry else none

/-- What carrying out a command comes to. -/
inductive Reply where
  /-- It completes with a status and a result. -/
  | ends (s : State) (st : Status) (result : Nat)
  /-- It has started and waits for a step on the bus, in host memory, in flash or in time. -/
  | waits (s : State)
  /-- It cannot take effect yet: the endpoint is not at the boundary it needs (R150). -/
  | notYet
  deriving DecidableEq, Repr

/-- A command is carried out: the check of R135 step 1, then `body` (R135 steps 2 to 4 and the effect). -/
def carryOut (i : InstNo) (slot : BitVec 16) (op : Nat) (form : CEntry → Bool) (s : State) (body : CEntry → Reply) : Answer :=
  match s.starts i slot op form with
  | none => .next s
  | some e =>
    if s.notPermitted i e then done ((s.seqServed i op).finish i slot .notPermitted 0)
    else match body e with
      | .ends t st r => done ((t.seqServed i op).finish i slot st r)
      | .waits t => done ((t.seqServed i op).setPhase i slot .waiting)
      | .notYet => .next s

/-- Every form of an opcode. -/
def anyForm (_ : CEntry) : Bool := true

/-- Step 6 of the ladder has shed the command's work (R156). -/
def State.shedCmd (s : State) : Bool := decide (6 ≤ s.pw.acted)

/-! ### Fetching (R118, R149) -/

/-- COMMAND_FETCH (R149): the next entry of the ring, when fewer than 16 are in progress and ring 0 has credit. Its event slot is
reserved and it is checked (R114, R115). -/
def execCommandFetch (i : InstNo) (entry : CEntry) (s : State) : Answer :=
  let n := s.inst i
  if !s.takesWork i || !n.cmdEn || n.cmdFetch == n.cmdTail || 16 ≤ n.started || !(s.ring i 0).hasCredit then .next s
  else
    let slot := n.cmdFetch
    let s := s.hostRead i (n.cmdBase.toNat + 64 * slot.toNat) 64 none none
    match ceMalformed entry with
    | some code => done (s.malformed i code 0 0 slot.toNat)
    | none =>
      let s := s.modInst i fun n =>
        { n with cmds := n.cmds ++ [⟨slot, entry, .fetched⟩]
                 cmdFetch := BitVec.ofNat 16 ((slot.toNat + 1) % n.cmdEntries) }
      done (s.reserve i 0)

/-- NOP (R149): it starts once every earlier command has completed, and completes. -/
def execNop (i : InstNo) (slot : BitVec 16) (s : State) : Answer :=
  carryOut i slot 0x01 anyForm s fun _ => .ends s .cmdOk 0

/-- A command of the endpoint's instance that names it is in progress, so that it takes no entry (R150): it has started, or waits only for
the endpoint's boundary. -/
def State.cmdOn (s : State) (i : InstNo) (loc : Nat) : Bool :=
  (s.inst i).cmds.any fun c => (c.objs (s.tier1 i)).contains (.ep loc) && (c.phase != .fetched || s.mayStart i c)

end Sys2Proof.Machine
end

