-- ==== Sys2Proof/Machine/Rings.lean ====
section
/-!
DEFINITION. Doorbells (R93 to R95), taking transfer entries (R118, R49, R51), the index mirror and messages (R112 to R125), the ring
registers (R128 to R132), the context cache (R99, R102), and L1.
-/
namespace Sys2Proof.Machine

/-! ### Doorbells -/

/-- A discarded doorbell, doorbell-page write or head write is counted (R129). -/
def State.stray (s : State) (i : InstNo) : State := s.modInst i fun n => { n with strayWrites := satInc n.strayWrites }

/-- A `tail` is below the ring's size and does not move backward (R114, TAIL_INVALID). -/
def tailOk (size : Nat) (head old new : BitVec 16) : Bool :=
  decide (new.toNat < size) &&
  decide ((old.toNat + size - head.toNat) % size ≤ (new.toNat + size - head.toNat) % size)

/-- An accepted doorbell is counted (R343). -/
def State.rung (s : State) (i : InstNo) : State := s.count { cls := 0x15, inst := some i }

/-- A doorbell word arrives for an instance (R95), its tests in the order of R95. -/
def State.ring' (s : State) (i : InstNo) (w : Word) : State :=
  let target := fld w 32 16
  let tail := BitVec.ofNat 16 (fld w 15 0)
  let n := s.inst i
  if n.halted then s.stray i
  else if fld w 63 33 != 0 then s.malformed i mDbReserved 0 target tail.toNat
  else if target != 0 && decide (n.epLimit ≤ target - 1) then s.malformed i mTargetRange 0 target tail.toNat
  else if target = 0 then
    if !n.cmdEn then s.stray i
    else if !tailOk n.cmdEntries n.cmdHead n.cmdTail tail then s.malformed i mTailInvalid 0 0 tail.toNat
    else s.rung i |>.modInst i fun n => { n with cmdTail := tail }
  else
    match s.epOf i (target - 1) with
    | none => s.stray i
    | some (k, e) =>
      if e.opening.isSome then s.stray i
      else if !tailOk e.ringSize e.trHead e.trTail tail then s.malformed i mTailInvalid 0 target tail.toNat
      else ((s.rung i).touch k).modEp k fun e => { e with trTail := tail }

/-- STRAY_DOORBELL_PAGE_WRITE (R93, R407). -/
def execStrayDoorbellPageWrite (i : InstNo) (s : State) : Answer :=
  if s.nativeRegs i then .next ((s.written i).stray i) else .next s

/-! ### Taking transfer entries -/

/-- The item reserved with a transfer entry of a flow-bound endpoint (R288, R289). -/
def Ep.item (e : Ep) : Item :=
  { owner := e.inst, group := ⟨e.flowId.toNat / 65536 % 16, by omega⟩, flow := e.flowId, src := 1, tag := 0, bytes := 0
    status := 0, ringIndex := 0, ep := 0, gate := 0, st := .reserved, stamp := 0, ready := 0, seq := 0 }

/-- Entries of the endpoint are taken now (R118, R125, R150, R255, R290). -/
def State.takesEntry (s : State) (k : Nat) (e : Ep) : Bool :=
  (e.st == .running || (e.st == .halted && e.force.isSome)) && e.hasEntry && (e.kind == .periodic || s.reachable e.zone) && s.takesWork e.inst && (s.ring e.inst e.evtRing).hasCredit &&
  (!e.flowEn || s.itemRoom e.inst) && !s.cmdOn e.inst (s.localIx e k)

/-- The entry in progress of a periodic IN endpoint with a held block receives it (R49, R224): an uncorrectable block is
discarded and nothing is delivered. -/
def State.serveHeld (s : State) (k : Nat) (ecc : Ecc) : State :=
  match s.ep k with
  | none => s
  | some e =>
    if !e.heldValid || e.cur.isNone || e.delivering || !s.canWrite e.inst then s
    else
      let data := s.hawkRead e.inst (s.regionOf e).1 e.heldLen
      let s := (s.noteEcc (some e.inst) ecc).modEp k fun e => { e with heldValid := false }
      if eccBad ecc then s
      else (s.modEp k fun e => { e with cur := e.cur.map (·.take data) }).addDelivery k 0 data (some .success) none

/-- The function can write again (R125): what waited is written, and held blocks go to the entries in progress (DESIGN CHOICE, log 139). -/
def State.functionBack (s : State) (i : InstNo) : State :=
  if !s.canWrite i then s
  else
    let s := s.hostBack i
    s.each ((s.eps.filter fun x => x.2.inst == i && x.2.heldValid && x.2.cur.isSome).map (·.1)) fun s k => s.serveHeld k .ok

/-- Bytes left over from a message go to the entry just taken (R51). -/
def State.serveCarry (s : State) (k : Nat) : State :=
  match s.ep k with
  | none => s
  | some e =>
    if e.carry.isEmpty || e.cur.isNone then s
    else
      let data := e.carry
      let (e', fin) := { e with carry := [], carryEot := false }.acceptIn data e.carryEot
      let n := (e'.cur.map (·.bytes)).getD 0
      (s.setEp k e').addDelivery k 0 (data.take n) fin none

/-- The entry just taken of endpoint `k`, by the endpoint's kind (R40, R49 to R51, R204). -/
def State.beginEntry (s : State) (k : Nat) (e : Ep) (t : TEntry) (ecc : Ecc) : State :=
  match e.kind with
  | .control => s
  | .periodic =>
    if e.inward then s.serveHeld k ecc
    else if teLength t = 0 then s
    else
      let id := s.nextId
      (s.takeId.modEp k fun e => { e with cur := e.cur.map fun c => { c with staging := some id } }).hostRead e.inst (teBuf t)
        (teLength t) none none
  | .bulk =>
    if !e.inward then s
    else if !e.carry.isEmpty then (if teLength t = 0 then s.complete k .success else s.serveCarry k)
    else if teLength t = 0 then s.complete k .success
    else s

/-- TRANSFER_ENTRY_TAKE (R104, R114, R118): the entry is checked, its event slot and its item are reserved, and it is in
progress. The read of the entry is recorded with it (log 21). -/
def execTransferEntryTake (k : Nat) (entry : TEntry) (ecc : Ecc) (s : State) : Answer :=
  match s.ep k with
  | none => .next s
  | some e =>
    if !s.takesEntry k e then .next s
    else s.withContext (.ep k) fun s =>
      let slot := e.nextSlot
      let s := s.hostRead e.inst (e.trBase.toNat + 32 * slot.toNat) 32 none none
      match teMalformed e entry with
      | some code => done (s.malformed e.inst code 0 (s.localIx e k + 1) slot.toNat)
      | none =>
        let item := if e.flowEn then some s.freeItem else none
        let s := if e.flowEn then s.reserveItem e.item else s
        let s := s.reserve e.inst e.evtRing
        let s := s.modEp k fun e => { e with cur := some (Xfer.fresh slot entry (e.kind == .control) item), force := none }
        match e.force with
        | some st => done (s.complete k st)
        | none => done (s.beginEntry k e entry ecc)

/-! ### The mirror and messages -/

/-- INDEX_MIRROR_WRITE (R112, R113). -/
def execIndexMirrorWrite (i : InstNo) (e : RingNo) (s : State) : Answer :=
  let r := s.ring i e
  if r.enable && r.mirrorDue && s.canWrite i then done (s.writeMirror i e) else .next s

/-- MODERATION_INTERVAL_EXPIRY (R123). -/
def execModerationIntervalExpiry (i : InstNo) (e : RingNo) (s : State) : Answer :=
  let r := s.ring i e
  if r.enable && r.counted != 0 && s.canWrite i then done (s.fireRing i e) else .next s

/-- MSIX_VECTOR_UNMASK (R122): the vector's mask bit clears, and a pending message is sent. -/
def execMsixVectorUnmask (i : InstNo) (v : Fin 64) (s : State) : Answer :=
  let s := s.written i
  if !s.regsOpen i || vectors i ≤ v.val || (s.inCompat && decide (16 ≤ v.val)) then .next s
  else
    let m := (kget (s.inst i).msix v).getD ⟨0, 0, true⟩
    done ((s.modInst i fun n => { n with msix := kset n.msix v { m with masked := false } }).sendPending i)

/-- L1_EXIT_COMPLETE (R124): the link is in L0, and the messages that waited are sent in order; those of a function that is asleep stay due
(R125), and those of a halted instance are discarded (R117). -/
def execL1ExitComplete (s : State) : Answer :=
  match s.pw.l1 with
  | none => .next s
  | some l =>
    let s := if l == .l1 then s else s.emit (.clkreqN true)
    let s := s.modPw fun w => { w with l1 := none, msgQueue := w.msgQueue.filter fun m => !s.pw.halted && !(s.inst m.1).halted }
    done (s.sendQueued fun m => s.canWrite m.1)

/-- ASPM_L1_ENTRY (R4, R124): from L0, with no message queued that may be sent; CLKREQ_N may go in the substates. -/
def execAspmL1Entry (sub : L1State) (s : State) : Answer :=
  if !s.alive || !s.pw.linkUp || s.pw.l1.isSome || (s.pw.msgQueue.any fun m => s.canWrite m.1) then .next s
  else
    let s := s.modPw fun w => { w with l1 := some sub }
    .next (if sub == .l1 then s else s.emit (.clkreqN false))

/-! ### Ring registers -/

/-- Event rings reachable: 0 to 7, in COMPAT 0 to 3 (R412). -/
def State.ringReached (s : State) (e : RingNo) : Bool := !s.inCompat || decide (e.val < 4)

/-- EVENT_RING_HEAD_WRITE (R130): past `tail`, or at or above the size (DESIGN CHOICE, log 129), it is ignored and counted; else slots
free, and credit may return (R118, R120). -/
def execEventRingHeadWrite (i : InstNo) (e : RingNo) (head : BitVec 16) (s : State) : Answer :=
  let s := s.written i
  if !s.regsOpen i || !s.ringReached e then .next s
  else
    let r := s.ring i e
    let moved := (head.toNat + r.entries - r.head.toNat % r.entries) % r.entries
    if r.entries ≤ head.toNat || r.used < moved then .next (s.stray i)
    else done ((s.modRing i e fun r => { r with head := head }).settle i e)

/-- A write that sets `enable` of the command ring (R128). -/
def State.startCmdRing (s : State) (i : InstNo) : State :=
  if (s.inst i).cmdEn || !(s.ring i 0).enable || (i == 0 && !s.mem.bsLock) then s
  else s.modInst i fun n => { n with cmdEn := true, cmdHead := 0, cmdTail := 0, cmdFetch := 0, cmds := [], cmdDone := [] }

/-- COMMAND_RING_ENABLE (R128). -/
def execCommandRingEnable (i : InstNo) (s : State) : Answer :=
  if s.regsOpen i then .next ((s.written i).startCmdRing i) else .next s

/-- The event waits for a command's completion (R92). -/
def WaitEvt.isCommand (w : WaitEvt) : Bool := fld w.ev 7 0 == 2

/-- A write that clears `enable` of the command ring (R128): ignored while an entry has not completed. -/
def State.stopCmdRing (s : State) (i : InstNo) : State :=
  let n := s.inst i
  if n.cmdHead != n.cmdTail || n.waiting.any (·.isCommand) then s else s.modInst i fun n => { n with cmdEn := false }

/-- COMMAND_RING_DISABLE (R128). -/
def execCommandRingDisable (i : InstNo) (s : State) : Answer :=
  if s.regsOpen i then .next ((s.written i).stopCmdRing i) else .next s

/-- A write that sets `enable` of an event ring (R121, R130): indices to 0, the mirror written, and what waited for the ring
posted. What was counted for moderation before is dropped (DESIGN CHOICE, log 130). -/
def State.startEvtRing (s : State) (i : InstNo) (e : RingNo) : State :=
  if (s.ring i e).enable then s
  else
    let s := s.modRing i e fun r =>
      { r with enable := true, head := 0, tail := 0, blocked := false, blockedTicks := 0, counted := 0, mirrorDue := true }
    let s := if s.canWrite i then s.writeMirror i e else s
    s.settle i e

/-- EVENT_RING_ENABLE (R121, R130). -/
def execEventRingEnable (i : InstNo) (e : RingNo) (s : State) : Answer :=
  if s.regsOpen i && s.ringReached e then done ((s.written i).startEvtRing i e) else .next s

/-- An open endpoint, or for ring 0 the command ring, needs the event ring. -/
def State.ringNeeded (s : State) (i : InstNo) (e : RingNo) : Bool :=
  s.eps.any (fun (_, x) => x.inst == i && x.evtRing == e) || (e == 0 && (s.inst i).cmdEn)

/-- A write that clears `enable` of an event ring (R130): ignored while the ring is needed. A blocked period ends without a record
(DESIGN CHOICE, log 131). -/
def State.stopEvtRing (s : State) (i : InstNo) (e : RingNo) : State :=
  if s.ringNeeded i e then s
  else s.modRing i e fun r => { r with enable := false, blocked := false }

/-- EVENT_RING_DISABLE (R130). -/
def execEventRingDisable (i : InstNo) (e : RingNo) (s : State) : Answer :=
  if s.regsOpen i && s.ringReached e then .next ((s.written i).stopEvtRing i e) else .next s

/-- A write of RNG_BSTORE (R98, R132): `base` and `lock`, once. -/
def State.writeBstore (s : State) (w : Word) : State :=
  if s.mem.bsLock then s
  else s.modMem fun m => { m with bsBase := BitVec.ofNat 64 (fld w 63 21 * 2 ^ 21), bsLock := bitOf w 0, recImage := [], mapImage := [] }

/-- BACKING_STORE_LOCK (R98, R132). -/
def execBackingStoreLock (w : Word) (s : State) : Answer :=
  if s.regsOpen 0 then .next ((s.written 0).writeBstore w) else .next s

/-! ### The context cache -/

/-- Bits [447:0] of an endpoint context (R101). -/
def Ep.ctxBody (e : Ep) : List Byte :=
  leBytes 56 (pack
    [(0, 12, e.zone), (12, 5, e.epid.toNat), (17, 6, e.inst.val), (23, 2, e.kind.ctorIdx), (25, 4, e.interval),
     (29, 3, e.evtRing.val), (32, 10, e.maxBlock), (42, 3, e.errThreshold), (45, 3, e.errCount), (48, 4, e.retryLimit),
     (52, 4, e.retryCount), (56, 3, e.st.ctorIdx), (64, 5, e.nextSeq.toNat), (69, 5, e.expectSeq.toNat),
     (74, 4, e.silenceRun), (80, 16, e.trHead.toNat), (96, 16, e.trTail.toNat), (112, 4, e.trSize), (128, 64, e.trBase.toNat),
     (192, 10, e.region), (202, 1, b2n e.heldValid), (203, 9, e.heldLen), (216, 16, e.heldReplaced), (256, 20, e.flowId.toNat),
     (276, 1, b2n e.flowEn), (277, 1, b2n e.egressSafe), (288, 16, e.svcCost), (304, 16, e.phase), (320, 32, e.commitRef.toNat),
     (352, 32, e.blocksDone.toNat), (384, 64, e.bytesDone.toNat)])

/-- A context with its working state and its check byte (R99, R101). -/
def Ep.ctx (e : Ep) (work : List Byte) : List Byte := e.ctxBody ++ work ++ [crc8 (e.ctxBody ++ work)]

/-- The 64 bytes of an endpoint context (R101). Its undefined working state is free. -/
def State.ctxBytes (s : State) (e : Ep) : List Byte := e.ctx (s.freeBytes 7)

/-- The context of slot `k` is written back (R99, R102), or waits on chip while the physical function is asleep (R125). -/
def State.writeBack (s : State) (k : Nat) : State :=
  match s.ep k with
  | none => s
  | some e => (s.putData 0 (s.mem.bsBase.toNat + 64 * k) (s.ctxBytes e) none).takeFrees 7

/-- A context enters the cache as the most recently used; when the cache is full the least recently used unpinned one is
written back and replaced (R102) (DESIGN CHOICE, log 118). -/
def State.cacheIn (s : State) (k : Nat) : State :=
  let c := s.mem.cache
  if c.contains k then s.modMem fun m => { m with cache := k :: m.cache.filter (· != k) }
  else if c.length < 8192 then s.modMem fun m => { m with cache := k :: m.cache }
  else
    let pinned (x : Nat) : Bool := s.mem.pinNow.contains x || s.mem.pinNext.contains x
    match c.reverse.find? fun x => !pinned x with
    | none => s
    | some v => (s.writeBack v).modMem fun m => { m with cache := k :: m.cache.filter (· != v) }

/-- CONTEXT_READ_COMPLETE (R99, R102): the read of a miss completes; a wrong `ctx_crc` is malformed work of the manager. -/
def execContextReadComplete (slot : Nat) (bytes : List Byte) (s : State) : Answer :=
  if !s.runs || !s.mem.reading.contains slot || bytes.length != 64 then .next s
  else
    let s := s.modMem fun m => { m with reading := m.reading.filter (· != slot) }
    if crc8 (bytes.take 63) != bytes.getD 63 0 then done (s.malformedAt 0 mContextCheck 3 0 0 (some (64 * slot)))
    else if (s.ep slot).isNone then .next s
    else done (s.cacheIn slot)

end Sys2Proof.Machine
end

