-- ==== Sys2Proof/Machine/Devices.lean ====
section
/-!
DEFINITION. Positions and branches of the trees, DEVICE events (R252, R253), what a port reset and a detach do to devices (R55 to
R57, R250, R251), marks at the default address (R441), and joining the order of enumeration (R242, R246).
-/
namespace Sys2Proof.Machine

/-! ### Positions -/

/-- The position of a root port. -/
def rootPos (p : PortNo) : Pos := ⟨p, 0, 0⟩

/-- The position at which a device hangs. -/
def DevRec.pos (d : DevRec) : Pos := if d.tier ≤ 1 then rootPos d.port else ⟨d.port, d.parent, d.phport⟩

/-- Tier of a device at a position (R21). -/
def State.posTier (s : State) (q : Pos) : Nat := if q.hub = 0 then 1 else ((s.dev q.hub).map (·.tier)).getD 0 + 1

/-- A device stands at a position or below it. -/
def State.inBranch (s : State) (q : Pos) (d : DevRec) : Bool :=
  if q.hub = 0 then d.port == q.port else go 7 d
where
  go : Nat → DevRec → Bool
    | 0, _ => false
    | k + 1, d =>
      if d.tier ≤ 1 then false
      else if d.parent = q.hub && (q.hport = 0 || d.phport = q.hport) then true
      else match s.dev d.parent with
        | some h => go k h
        | none => false

/-- Zone addresses of the devices of a branch, addressed ones only. -/
def State.branchDevs (s : State) (q : Pos) : List Nat :=
  (s.devs.filter fun (z, d) => z != 0 && s.inBranch q d).map (·.1)

/-- A position lies in a branch. -/
def State.posIn (s : State) (q x : Pos) : Bool :=
  x == q || (q.hub == 0 && x.port == q.port) || (x.hub == q.hub && q.hport == 0 && q.hub != 0) ||
  ((s.dev x.hub).map fun h => x.hub != 0 && s.inBranch q h).getD false

/-- The device whose record stands at a position (DEDUCED, log 109). -/
def State.devAt (s : State) (q : Pos) : Option (Nat × DevRec) :=
  s.devs.find? fun (z, d) => z != 0 && d.pos == q && d.st != .detached

/-! ### DEVICE events -/

/-- Kinds of DEVICE event (R253). -/
inductive What where
  | none | attached | addressed | enumFailed | detached | hubChange | wake | assigned | withdrawn | speedRefused | readdressed
  deriving DecidableEq, Repr

/-- A DEVICE event (R253); a tenant's names no hub, port or tier. -/
def deviceEvent (what : What) (status dev tier detail stamp : Nat) (q : Pos) (tenant : Bool) : Event :=
  BitVec.ofNat 256 (pack
    ([(0, 8, 0x06), (8, 8, status), (16, 4, what.ctorIdx), (24, 4, q.hport), (32, 12, dev), (64, 32, detail), (96, 32, stamp)] ++
     if tenant then [] else [(44, 12, q.hub), (56, 5, q.port.val), (61, 3, tier)]))

/-- DETACHED to the manager, after the TRANSFER events of the device that still wait for a function that cannot be written to (R251). -/
def State.postDetached (s : State) (owners : List InstNo) (dev cause : Nat) (q : Pos) : State :=
  let ev := deviceEvent .detached 0 dev (s.posTier q) cause s.stamp q false
  match owners.find? fun i => i != 0 && !(s.inst i).waiting.isEmpty with
  | some i => s.modTree fun t => { t with notices := t.notices ++ [⟨i, .device q dev, ev⟩] }
  | none => s.unsolicited 0 0 (.device q dev) ev

/-- A DEVICE event to the manager's ring 0 (R252). -/
def State.postDevice (s : State) (what : What) (status dev detail : Nat) (q : Pos) : State :=
  s.unsolicited 0 0 (.device q dev) (deviceEvent what status dev (s.posTier q) detail s.stamp q false)

/-- The instance-local index of a device in a tenant's map (R97). -/
def State.localDev (s : State) (i : InstNo) (z : Nat) : Nat := (((s.inst i).devMap.find? fun e => e.2 == z).map (·.1)).getD 0

/-- A DEVICE event to a tenant (R252, R253): the local index, and no place in the tree. -/
def State.postTenant (s : State) (i : InstNo) (what : What) (dev detail : Nat) (q : Pos) : State :=
  if i = 0 then s else s.unsolicited i 0 (.device q dev) (deviceEvent what 0 dev 0 detail s.stamp q true)

/-- `detail` of ADDRESSED and READDRESSED (R253). -/
def DevRec.detail (d : DevRec) : Nat :=
  pack [(0, 16, d.cls.toNat), (16, 8, d.ep0Max), (24, 1, b2n d.hub), (25, 1, b2n d.rev3), (26, 4, d.hubPorts)]

/-! ### The controller's own transfers -/

/-- Transfers of the controller's own end with a status where they stand (R55, R251). -/
def State.endOwn (s : State) (which : OwnXfer → Bool) (st : Status) : State :=
  let ids := (s.tree.own.filter fun x => which x && x.result.isNone).map (·.id)
  let s := s.each ids fun s id => (s.dropTxns (.own id)).dropRound (.own id)
  s.each ids fun s id => s.modOwn id fun x => { x with result := some st, picked := false, backoff := false }

/-! ### Marks and the order of enumeration -/

/-- Marks of the positions of a branch are cleared (R441). -/
def State.unmark (s : State) (q : Pos) : State :=
  let marks := s.tree.marks.filter fun x => !s.posIn q x
  s.modTree fun t => { t with marks := marks }

/-- A position is at the default address (R441). -/
def State.mark (s : State) (q : Pos) : State :=
  s.modTree fun t => { t with marks := if t.marks.contains q then t.marks else t.marks ++ [q] }

/-- Positions of a port at the default address. -/
def State.marked (s : State) (p : PortNo) : List Pos := s.tree.marks.filter fun q => q.port == p

/-- A position takes its place in the order of R242, to be reset from subframe `since` on: none below tier 7 (R21), and none twice. -/
def State.joinFrom (s : State) (q : Pos) (zone : Option Nat) (since : Nat) : State :=
  if 7 < s.posTier q || s.tree.waiting.any (fun w => w.pos == q) then s
  else s.modTree fun t => { t with waiting := t.waiting ++ [⟨q, zone, false, since⟩] }

/-- A position joins the order of R242, unless it has failed: then it is tried again 1 s later by itself, or has failed for good until it is
powered again or attaches anew (R245). -/
def State.joinEnum (s : State) (q : Pos) (zone : Option Nat) : State :=
  if s.tree.failed.contains q || s.tree.failedOnce.contains q then s else s.joinFrom q zone 0

/-- A position's failures are forgotten (R245). -/
def State.forgive (s : State) (q : Pos) : State :=
  s.modTree fun t => { t with failedOnce := t.failedOnce.filter (· != q), failed := t.failed.filter (· != q) }

/-- The device that a position holds, whose identity its enumeration compares (R247) (DEDUCED, log 141). -/
def State.awaitedAt (s : State) (q : Pos) : Option Nat := (s.devAt q).map (·.1)

/-- A position attaches (R242, R246, R247, R249): it waits for hardware enumeration, or the manager is told. -/
def State.attachAt (s : State) (q : Pos) : State :=
  let s := s.forgive q
  if (s.port q.port).enumHw then s.joinEnum q (s.awaitedAt q) else s.postDevice .attached 0 0 0 q

/-- Positions of a branch no longer wait. -/
def State.leaveEnum (s : State) (q : Pos) : State :=
  let w := s.tree.waiting.filter fun x => !s.posIn q x.pos
  s.modTree fun t => { t with waiting := w }

/-- The record at address 0 is freed when its device is reached by a reset or detached (log 22). -/
def State.dropRecord0 (s : State) (q : Pos) : State :=
  match s.dev 0 with
  | some d => if s.inBranch q d then { s with devs := kdel s.devs 0 } else s
  | none => s

/-! ### Detach (R250, R251) -/

/-- The status that entries end with at a detach of a cause. -/
def detachStatus (cause : Nat) : Status := if cause = 3 || cause = 4 then .powerAbort else .detached

/-- A device is detached (R251): one that awaits re-addressing and is reported gone, as not found (R247, R250 cause 6). -/
def State.detachDev (s : State) (z cause : Nat) : State :=
  match s.dev z with
  | none => s
  | some d =>
    if d.st == .detached then s
    else
      let cause := if cause = 2 && d.awaiting then 6 else cause
      let st := detachStatus cause
      let owners := d.owner :: (s.epsOf z).filterMap fun k => (s.ep k).map (·.inst)
      let s := s.each (s.epsOf z) fun s k =>
        (s.stopEp k st).endSlot k st |>.modEp k fun e => { e with heldValid := false, st := .detached, recovering := false, force := none }
      let s := (s.dropRound (.hub z)).endOwn (fun x => x.addr == z && x.port == d.port) st
      let s := s.modDev z fun d => { d with st := .detached, awaiting := false, statusOn := false }
      (s.postDetached owners z cause d.pos).postTenant d.owner .detached (s.localDev d.owner z) cause d.pos

/-- The command that a procedure serves completes, if it is still there to complete (R319). -/
def State.finishFor (s : State) (x : Proc) (i : InstNo) (slot : BitVec 16) (st : Status) (result : Nat) : State :=
  if x.orphan then s else s.finish i slot st result

/-- Procedures at some positions that wait with no transfer of their own begun go with their positions; a reset by command completes with
HALTED (R136, R251). -/
def State.endWaits (s : State) (which : Pos → Bool) (st : Status) : State :=
  let l := s.tree.procs.filter fun x => which x.pos && !(s.tree.own.any fun o => o.proc == x.id)
  s.each l fun s x =>
    let s := s.modTree fun t => { t with procs := t.procs.filter fun y => y.id != x.id }
    match x.purpose with
    | .devReset i slot => s.finishFor x i slot .halted st.code
    | _ => s

/-- Every device of a branch is detached, the nearest first; its marks and waiting positions go. -/
def State.detachBranch (s : State) (q : Pos) (cause : Nat) : State :=
  let zs := s.branchDevs q
  let byTier := (List.range 8).flatMap fun t => zs.filter fun z => ((s.dev z).map (·.tier)).getD 0 == t
  let st := detachStatus cause
  -- a device being enumerated in the branch is lost with it
  let s := s.endOwn (fun x => x.addr == 0 && x.port == q.port && (s.marked q.port).any (s.posIn q)) st
  let s := (((s.dropRecord0 q).leaveEnum q).unmark q).endWaits (s.posIn q) st
  s.each byTier fun s z => s.detachDev z cause

/-! ### Port resets (R55 to R57) -/

/-- A reset reaches every device of a branch (DEDUCED, log 111): the positions below it are gone until their hub has power again. -/
def State.resetBranch (s : State) (q : Pos) : State :=
  let below (x : Pos) : Bool := x != q && s.posIn q x
  let waiting := s.tree.waiting.filter fun x => !below x.pos
  let zs := s.branchDevs q
  let s := (s.modTree fun t => { t with waiting := waiting }).endWaits below .portReset
  let s := s.endOwn (fun x => x.port == q.port && (zs.contains x.addr || (x.addr == 0 && (s.marked q.port).any (s.posIn q)))) .portReset
  let s := (s.dropRecord0 q).unmark q
  s.each zs fun s z => s.resetDevice z

/-- What the controller keeps of a hub's port changes. -/
def State.modHPort (s : State) (hub hport : Nat) (f : HPort → HPort) : State :=
  s.modDev hub fun d => { d with hports := kset d.hports hport (f ((kget d.hports hport).getD {})) }

/-- A reset of a hub port has been carried out (R441): its branch is reset, its position is at the default address. -/
def State.resetPos (s : State) (q : Pos) : State :=
  ((s.resetBranch q).mark q).modHPort q.hub q.hport fun x => { x with disabled := false }

end Sys2Proof.Machine
end

