-- ==== Sys2Proof/Machine/Ports.lean ====
section
/-!
DEFINITION. Root ports (03): the state machine of R82, change bits and events (R84, R87), attach and detach (R62 to R64), reset and
negotiation (R65 to R67), downshift (R68), suspend and resume (R70 to R75), and port power (R76 to R79).
-/
namespace Sys2Proof.Machine

/-! ### Change bits -/

def chgReset : Nat := 0
def chgSpeed : Nat := 1
def chgBabble : Nat := 2
def chgFault : Nat := 3
def chgWake : Nat := 4
def chgSuspend : Nat := 5
def chgEnable : Nat := 6
def chgConnect : Nat := 7

/-- A PRT_CHANGE bit is set; from 0 to 1 it posts a PORT_STATUS event (R84) (DEDUCED, log 26). -/
def State.flag (s : State) (p : PortNo) (bit : Nat) : State :=
  if bitOf (s.port p).change bit then s
  else (s.modPort p fun x => { x with change := x.change ||| BitVec.ofNat 8 (2 ^ bit) }).postPort p

/-! ### Orders that wait for a port (R141, R142) -/

/-- The `result` of a PORT_CONTROL (R141): state in [35:32], speed in [37:36] of the event. -/
def Port.result (x : Port) : Nat := x.st.ctorIdx + 16 * x.speed.ctorIdx

/-- What a waiting PORT_CONTROL comes to as the port stands: its status, or none while it waits (DEDUCED, log 30). -/
def Port.orderEnd (x : Port) (action : Nat) : Option Status :=
  match action with
  | 1 => if x.st == .powering then none else some .cmdOk
  | 3 => if x.st == .resetting || x.recovering then none else some .cmdOk
  | 4 => if x.st == .suspended then some .cmdOk
         else if x.st == .suspending || (x.st == .enabled && x.suspendPending) then none else some .conflict
  | 5 => if x.st == .enabled then some .cmdOk
         else if x.st == .suspending || x.st == .suspended || x.st == .resuming then none else some .conflict
  | _ => some .cmdOk

/-- The port that a waiting PORT_CONTROL of instance `i` acts on: `scope` 0, or the root port above a tier-1 device. -/
def State.orderPort (s : State) (i : InstNo) (c : Cmd) : Option Nat :=
  if ceOp c.entry != 0x20 || c.phase != .waiting then none
  else if bitOf c.entry 68 then s.tier1 i (fld c.entry 91 80)
  else some (fld c.entry 76 72)

/-- Orders that wait for port `p` complete as far as its state lets them. -/
def State.settlePort (s : State) (p : PortNo) : State :=
  s.each allInsts fun s i =>
    s.each (s.inst i).cmds fun s c =>
      if s.orderPort i c == some p.val then
        match (s.port p).orderEnd (fld c.entry 67 64) with
        | some st => s.finish i c.slot st (if bitOf c.entry 68 then 0 else (s.port p).result)
        | none => s
      else s

/-! ### States -/

/-- Picked and taken transactions that have not started leave a port that is no longer ENABLED (R209). -/
def State.withdraw (s : State) (p : PortNo) : State :=
  let q := (s.port p).queue
  let s := s.modPort p fun x => { x with queue := [] }
  let s := s.each q fun s t => s.unpick t.who
  s.each allTrowels fun s k =>
    let back := (s.trowel k).slots.filter fun t => t.port == p && !t.started
    if back.isEmpty then s
    else
      let s := s.modTrowel k fun w => { w with slots := w.slots.filter fun t => !back.contains t }
      s.each back fun s t => s.unpick t.who

/-- A port takes a state (R82, R87): the flags of entering and leaving, and what a port out of service keeps none of. `sr` tells a
change by suspend or resume. -/
def State.setPortSt (s : State) (p : PortNo) (st : PortState) (sr : Bool) : State :=
  let old := (s.port p).st
  let s := s.modPort p fun x =>
    { x with st := st
             disableCause := if st == .disabled then x.disableCause else 0
             suspendPending := false
             resumeWanted := x.resumeWanted && st == .suspended
             wakeSeen := x.wakeSeen && (st == .suspended)
             tokenWait := false
             recovering := x.recovering && (st == .resetting || st == .enabled)
             phase := if st == .resetting then x.phase else .idle
             downshift := false
             downHold := false
             sosfHold := .none
             suspAt := if st == .suspending then s.pl.subN else x.suspAt }
  let s := if old == .enabled && st != .enabled then
      (s.withdraw p).modPort p fun x => { x with cand := [], list := [], skim := [], excess := 0, ctrlUsed := 0, lowWindows := 0, gap := none }
    else s
  let s := if (old == .enabled) != (st == .enabled) && !sr then s.flag p chgEnable else s
  let s := if (old == .suspended) != (st == .suspended) then s.flag p chgSuspend else s
  s.settlePort p

/-- The deficits of a port start at 0 (R217). -/
def State.zeroDeficits (s : State) (p : PortNo) : State :=
  s.each allInsts fun s i =>
    if vget (s.inst i).deficit p = 0 then s else s.modInst i fun n => { n with deficit := vset n.deficit p 0 }

/-- PPWR_EN driven. -/
def State.drivePower (s : State) (p : PortNo) (v : Bool) : State :=
  if (s.port p).ppwrEn == v then s else (s.modPort p fun x => { x with ppwrEn := v }).emit (.ppwrEn p v)

/-- The holder of a port that is powered (R213): the home trowel in service, else a substitute; none is kept if none is found. -/
def State.takeHolder (s : State) (p : PortNo) : State :=
  if allTrowels.any fun k => (s.trowel k).holds.contains p then s
  else
    let home : TrowelNo := ⟨p.val, by omega⟩
    if (s.trowel home).tstate == .inService then s.modTrowel home fun w => { w with holds := w.holds ++ [p] }
    else match s.substitute p none with
      | some k => s.modTrowel k fun w => { w with holds := w.holds ++ [p] }
      | none => s

/-- A port that is unpowered has no holder (R213). -/
def State.dropHolder (s : State) (p : PortNo) : State :=
  s.each allTrowels fun s k =>
    if (s.trowel k).holds.contains p then s.modTrowel k fun w => { w with holds := w.holds.filter (· != p) } else s

/-- A holder can be found for a port (R214). -/
def State.holderFound (s : State) (p : PortNo) : Bool :=
  (s.trowel ⟨p.val, by omega⟩).tstate == .inService || (s.substitute p none).isSome ||
  allTrowels.any fun k => (s.trowel k).holds.contains p

/-- Power goes on (R76): from UNPOWERED or FAULTED to POWERING. -/
def State.powerOn (s : State) (p : PortNo) : State := ((s.drivePower p true).takeHolder p).setPortSt p .powering false

/-- What a port that loses its device, its power or its speed forgets. -/
def Port.forget (x : Port) (line : Bool) : Port :=
  { x with speed := .none, upshiftPending := false, shedDown := false, line := if line then .low else x.line
           pullup := if line then 0 else x.pullup, leg := 0, lowWindows := 0 }

/-- Power goes off by order (R76, R221, R222): the tree detaches with cause 3 and the port is UNPOWERED. -/
def State.powerOff (s : State) (p : PortNo) : State :=
  let s := s.detachBranch (rootPos p) 3
  let s := s.modPort p fun x => { x.forget true with pwrRetries := 0, round := none }
  ((s.drivePower p false).setPortSt p .unpowered false).dropHolder p

/-- The root port detaches (R64): `connect_chg`, EMPTY, and the tree with cause 1. -/
def State.rootDetach (s : State) (p : PortNo) : State :=
  let s := s.detachBranch (rootPos p) 1
  let s := s.modPort p fun x => { x.forget false with round := none }
  (s.setPortSt p .empty false).flag p chgConnect

/-- The resets that wait for port `p` end with CMD_OK as another order ends the reset or its recovery (R141). -/
def State.endResets (s : State) (p : PortNo) : State :=
  s.each allInsts fun s i =>
    s.each (s.inst i).cmds fun s c =>
      if s.orderPort i c == some p.val && fld c.entry 67 64 == 3 then
        s.finish i c.slot .cmdOk (if bitOf c.entry 68 then 0 else (s.port p).result)
      else s

/-- A port reset begins (R55 to R57, R65): it reaches the whole tree, and LOW is driven (DEDUCED, log 27). A recovery that it ends completes
the resets that waited for it (R141). -/
def State.startReset (s : State) (p : PortNo) : State :=
  let s := if (s.port p).recovering then s.endResets p else s
  let s := s.resetBranch (rootPos p)
  let s := s.modPort p fun x =>
    { x with round := none, speed := .none, phase := .low, recovering := true, upshiftPending := false, shedDown := false }
  (s.setPortSt p .resetting false).emit (.drive p .low)

/-- States in which a reset ordered begins (R82). -/
def PortState.resettable : PortState → Bool
  | .attached | .enabled | .suspending | .suspended | .resuming | .disabled => true
  | _ => false

/-- A port enters ENABLED by a reset at a speed (R66, R67): its tier-1 device is at the default address (R441). -/
def State.enableAt (s : State) (p : PortNo) (v : Speed) : State :=
  let s := s.modPort p fun x => { x with speed := v, arbFresh := true }
  ((s.zeroDeficits p).setPortSt p .enabled false).mark (rootPos p)

/-- A fallback to Standard (R67); with step 1 engaged meanwhile the port counts as held down by it (R69). -/
def State.fallBack (s : State) (p : PortNo) : State :=
  let s := s.modPort p fun x =>
    { x with trainFails := satInc x.trainFails, shedDown := s.pw.shedStep != 0 && x.topSpeed == .express }
  (s.enableAt p .standard).flag p chgSpeed

/-- A port is disabled with a cause (R83, R86). -/
def State.disablePort (s : State) (p : PortNo) (cause : BitVec 3) : State :=
  let s := s.unmark (rootPos p)
  (s.modPort p fun x => { x with disableCause := cause }).setPortSt p .disabled false

/-- A port comes back to ENABLED by a suspend withdrawn or a resume (R68, R72, R217): its deficits start at 0, and where it is to move
down no
token precedes the downshift. -/
def State.backEnabled (s : State) (p : PortNo) : State :=
  let s := (s.setPortSt p .enabled true).zeroDeficits p
  s.modPort p fun x => { x with downHold := s.wantsDown p }

/-- A resume is ordered while SUSPENDING (R72): under 2.5 ms of idle, counted as 20 subframes from the suspend (DESIGN CHOICE, log 140), the
port is ENABLED again; else it resumes once SUSPENDED. -/
def State.resumeEarly (s : State) (p : PortNo) : State :=
  if s.pl.subN < (s.port p).suspAt + 20 then s.backEnabled p else s.modPort p fun x => { x with resumeWanted := true }

/-- A resume begins (R71): WAKE is driven. -/
def State.startResume (s : State) (p : PortNo) : State := (s.setPortSt p .resuming true).emit (.drive p .wake)

/-- The port is one that the controller's timers and line watch still serve. -/
def State.portLive (s : State) (p : PortNo) : Bool := s.alive && (s.port p).st != .held

/-! ### Attach and detach -/

/-- `pullup` of a classification (R86). -/
def linePullup (l : Line) (old : BitVec 2) : BitVec 2 :=
  match l with
  | .low => 0
  | .restP => 1
  | .restN => 2
  | .both => 3
  | _ => old

/-- The leg of a REST state, coded as `pullup`; else the one before. -/
def lineLeg (l : Line) (old : BitVec 2) : BitVec 2 :=
  match l with
  | .restP => 1
  | .restN => 2
  | _ => old

/-- A classification is taken: the line, the pull-up last classified, and the leg last seen (R64, R86). -/
def Port.classify (x : Port) (line : Line) : Port :=
  { x with line := line, pullup := linePullup line x.pullup, leg := lineLeg line x.leg }

/-- The port does not classify (R60): the controller drives LOW or WAKE, or a training runs. -/
def Port.driven (x : Port) : Bool :=
  x.st == .resuming || (x.st == .resetting && (x.phase == .low || x.phase == .training || x.phase == .echo))

/-- LINE_STATE_CHANGE (R60, R62, R64, R65, R82): the classification, and what the state makes of it. The leg stands over a LOW that does not
last for 2 ms (R64). -/
def execLineStateChange (p : PortNo) (line : Line) (s : State) : Answer :=
  if !s.portLive p || (s.port p).driven then .next s
  else
    let x := s.port p
    let legs : Bool := (x.leg == 1 && line == .restN) || (x.leg == 2 && line == .restP)
    let put (s : State) : State := s.modPort p (·.classify line)
    match x.st with
    | .unpowered | .powering | .faulted | .held => .next s
    | .empty =>
      if line == .restP || line == .restN || line == .both then .next ((put s).setPortSt p .attaching false) else .next (put s)
    | .attaching => if line == .low then .next ((put s).setPortSt p .empty false) else .next (put s)
    | _ =>
      if legs then done ((((put s).rootDetach p).modPort p (·.classify line)).setPortSt p .attaching false) else .next (put s)

/-- PRESENCE_WINDOW (R63, R64): two windows in a row that show only LOW. -/
def execPresenceWindow (p : PortNo) (low : Bool) (s : State) : Answer :=
  if !s.inService p then .next s
  else if !low then .next (s.modPort p fun x => { x with lowWindows := 0 })
  else
    let s := s.modPort p fun x => { x with lowWindows := x.lowWindows + 1 }
    if 2 ≤ (s.port p).lowWindows then done ((s.modPort p fun x => { x with line := .low, pullup := 0 }).rootDetach p) else .next s

/-- DETACH_LOW_TIMEOUT (R64): 2 ms of LOW on a released line (DEDUCED, log 28). -/
def execDetachLowTimeout (p : PortNo) (s : State) : Answer :=
  let x := s.port p
  let ok : Bool := match x.st with
    | .attached | .suspending | .suspended | .disabled => true
    | .resetting => x.phase != .low
    | _ => false
  if s.portLive p && ok && x.line == .low then done (s.rootDetach p) else .next s

/-! ### Reset and negotiation -/

/-- RESET_LOW_END (R65): the line is released, and the pull-up seen then and `max_speed` choose the speed; with step 1 engaged REST-P is
Standard. A leg other than the one before is no detach here (DEDUCED, log 146). -/
def execResetLowEnd (o : PortLine) (s : State) : Answer :=
  let x := s.port o.port
  if !s.portLive o.port || x.st != .resetting || x.phase != .low then .next s
  else
    let s := (s.emit (.drive o.port .release)).modPort o.port fun x => { x.classify o.line with phase := .idle }
    match o.line with
    | .restN => done (s.enableAt o.port .reach)
    | .restP =>
      if s.pw.shedStep != 0 then done ((s.modPort o.port fun x => { x with shedDown := x.topSpeed == .express }).enableAt o.port .standard)
      else match x.topSpeed with
        | .reach => done (s.enableAt o.port .reach)
        | .standard => done (s.enableAt o.port .standard)
        | _ => .next ((s.modPort o.port fun x => { x with phase := .chirp }).emit (.drive o.port .chirp))
    | _ => done (s.rootDetach o.port)

/-- CHIRP_REPLY_RECEIVED (R66): both ends train. -/
def execChirpReplyReceived (p : PortNo) (s : State) : Answer :=
  if s.portLive p && (s.port p).st == .resetting && (s.port p).phase == .chirp then
    .next ((s.modPort p fun x => { x with phase := .training }).emit (.drive p .training))
  else .next s

/-- CHIRP_REPLY_TIMEOUT (R67). -/
def execChirpReplyTimeout (p : PortNo) (s : State) : Answer :=
  if s.portLive p && (s.port p).st == .resetting && (s.port p).phase == .chirp then done (s.fallBack p) else .next s

/-- TRAINING_LOCK (R66 instant 9). -/
def execTrainingLock (p : PortNo) (s : State) : Answer :=
  if s.portLive p && (s.port p).st == .resetting && (s.port p).phase == .training then
    .next ((s.modPort p fun x => { x with phase := .echo }).emit (.drive p .trainDone))
  else .next s

/-- TRAINING_LOCK_FAIL (R67): the line is released for 1 ms. -/
def execTrainingLockFail (p : PortNo) (s : State) : Answer :=
  if s.portLive p && (s.port p).st == .resetting && (s.port p).phase == .training then
    .next ((s.modPort p fun x => { x with phase := .fallback }).emit (.drive p .release))
  else .next s

/-- TRAIN_DONE_ECHO (R66 instant 10, R68): Express, or Standard when step 1 has engaged meanwhile: R65 does not say what a
port past its chirp does then (DESIGN CHOICE, log 44). -/
def execTrainDoneEcho (p : PortNo) (s : State) : Answer :=
  if s.portLive p && (s.port p).st == .resetting && (s.port p).phase == .echo then
    if s.pw.shedStep = 0 then done (s.enableAt p .express)
    else done ((s.modPort p fun x => { x with shedDown := true }).enableAt p .standard)
  else .next s

/-- TRAIN_DONE_ECHO_TIMEOUT (R67): the line is released for 1 ms. -/
def execTrainDoneEchoTimeout (p : PortNo) (s : State) : Answer :=
  if s.portLive p && (s.port p).st == .resetting && (s.port p).phase == .echo then
    .next ((s.modPort p fun x => { x with phase := .fallback }).emit (.drive p .release))
  else .next s

/-- FALLBACK_RELEASE_END (R67). -/
def execFallbackReleaseEnd (p : PortNo) (s : State) : Answer :=
  if s.portLive p && (s.port p).st == .resetting && (s.port p).phase == .fallback then done (s.fallBack p) else .next s

/-- Reset recovery ends (R66 instant 12): the port is usable, and orders that waited for it complete. `reset_done` is set here alone
(DESIGN CHOICE, log 127). -/
def State.recoveryEnd (s : State) (p : PortNo) : State :=
  (((s.modPort p fun x => { x with recovering := false }).zeroDeficits p).flag p chgReset).settlePort p

/-- DOWNSHIFT (R68): the ordered set goes after the last round, and not before the first SOSF after a resume; from the next tick the port
runs at Standard. -/
def execDownshift (p : PortNo) (s : State) : Answer :=
  if s.portLive p && s.wantsDown p && (s.port p).round.isNone && !(s.port p).downshift && (s.port p).sosfHold == .none then
    .next ((s.modPort p fun x => { x with downshift := true, downHold := false }).emit (.drive p .downshift))
  else .next s

/-- The tick after DOWNSHIFT (R68, R87): the port and its tree run at Standard. -/
def State.shiftDown (s : State) (p : PortNo) : State :=
  if (s.port p).downshift then
    (s.modPort p fun x => { x with downshift := false, speed := .standard, shedDown := x.shedDown || (x.topSpeed == .express) }).flag p chgSpeed
  else s

/-! ### Suspend and resume -/

/-- SUSPEND_ENTER (R70): the subframe of a pending suspend ends. -/
def State.suspendEnter (s : State) (p : PortNo) : State :=
  if (s.port p).st == .enabled && (s.port p).suspendPending then (s.unmark (rootPos p)).setPortSt p .suspending true else s

def execSuspendEnter (p : PortNo) (s : State) : Answer := if s.alive then done (s.suspendEnter p) else .next s

/-- SUSPEND_IDLE_DONE (R70, R72): 3 ms of idle; a resume ordered in the last 0.5 ms of them now runs. -/
def execSuspendIdleDone (p : PortNo) (s : State) : Answer :=
  if s.portLive p && (s.port p).st == .suspending then
    let wanted := (s.port p).resumeWanted
    let s := s.setPortSt p .suspended false
    done (if wanted then s.startResume p else s)
  else .next s

/-- RESUME_WAKE_END (R71 instant 2). -/
def execResumeWakeEnd (p : PortNo) (s : State) : Answer :=
  if s.portLive p && (s.port p).st == .resuming then .next (s.emit (.drive p .low)) else .next s

/-- The first SOSF after a resume that ends `us` µs before a tick (R71 instant 4): at a tick at least 100 µs away, at Express after the
training pattern. -/
def Port.firstSosf (x : Port) (us : Nat) : SosfHold :=
  if us < 100 then .late else if x.speed == .express then .train else .plain

/-- RESUME_LOW_END (R71 instant 3): released and ENABLED, its first SOSF and its first token still to wait; `usToTick` is the time to
the next
tick. -/
def execResumeLowEnd (o : PortWait) (s : State) : Answer :=
  if s.portLive o.port && (s.port o.port).st == .resuming then
    done (((s.emit (.drive o.port .release)).backEnabled o.port).modPort o.port fun x => { x with tokenWait := true, sosfHold := x.firstSosf o.usToTick })
  else .next s

/-- FIRST_TOKEN_AFTER_RESUME (R71 instant 5, R217). -/
def execFirstTokenAfterResume (p : PortNo) (s : State) : Answer :=
  if s.portLive p && (s.port p).st == .enabled && (s.port p).tokenWait then
    .next ((s.modPort p fun x => { x with tokenWait := false }).zeroDeficits p)
  else .next s

/-- What a remote wake asserts in STANDBY (R14, R75): PME, or WAKE_N when the link is down. -/
def State.wakeHost (s : State) : State :=
  if s.pw.mode != .standby then s
  else if !s.pw.linkUp then
    if s.pw.wakeN then s else (s.modPw fun w => { w with wakeN := true }).emit (.wakeN true)
  else (s.modPw fun w => { w with pme := true }).emit (.pme 0)

/-- REMOTE_WAKE_RECOGNISED (R73, R75): WAKE for 200 µs on a suspended port that answers it. -/
def execRemoteWakeRecognised (p : PortNo) (s : State) : Answer :=
  if s.portLive p && (s.port p).st == .suspended && (s.port p).wakeEn && !(s.port p).wakeSeen then
    done (((s.modPort p fun x => { x with wakeSeen := true }).flag p chgWake).wakeHost)
  else .next s

/-- REMOTE_WAKE_RESUME_START (R73): the host resume begins. -/
def execRemoteWakeResumeStart (p : PortNo) (s : State) : Answer :=
  if s.portLive p && (s.port p).st == .suspended && (s.port p).wakeSeen then done (s.startResume p) else .next s

/-! ### Power -/

/-- The override keeps an egress port powered in RETAIN, and while the controller is halted (R375, R382). -/
def State.islandHolds (s : State) (p : PortNo) : Bool :=
  (s.pw.mode == .retain || s.pw.halted) && s.pw.egress && (s.port p).egressPort

/-- PORT_BLANKING_END (R76). -/
def execPortBlankingEnd (p : PortNo) (s : State) : Answer :=
  if (s.portLive p || s.islandHolds p) && (s.port p).st == .powering then done (s.setPortSt p .empty false) else .next s

/-- PORT_POWER_FAULT (R77, R86): the level of PPWR_FLT_N as it has been for 10 µs (DEDUCED, log 124). Low on a powered port outside the
blanking time it is a fault: protection, in every mode in which the port is powered, halted or not. Of the change bits `fault_chg` alone is
set (DESIGN CHOICE, log 128). -/
def execPortPowerFault (o : PortLevel) (s : State) : Answer :=
  let x := s.port o.port
  if s.pw.mode == .off || s.pw.mode == .prime then .next s
  else if !o.low || !x.ppwrEn || x.st == .powering || x.st == .faulted then .next (s.modPort o.port fun x => { x with ppwrFlt := o.low })
  else
    let s := s.drivePower o.port false
    let s := s.record 0x0B [BitVec.ofNat 8 o.port.val]
    let s := s.detachBranch (rootPos o.port) 4
    let s := s.modPort o.port fun x =>
      { x.forget true with faultTrips := satInc x.faultTrips, ppwrFlt := true, round := none }
    done ((s.setPortSt o.port .faulted false).flag o.port chgFault)

/-- PORT_POWER_RETRY (R78): the retry gap, or 100 ms under the egress override, has passed. -/
def execPortPowerRetry (p : PortNo) (s : State) : Answer :=
  let x := s.port p
  let held : Bool := s.pw.egress && x.egressPort
  let ok : Bool := held || x.pwrRetryMax == 15 || decide (x.pwrRetries.toNat < x.pwrRetryMax.toNat)
  if (s.alive || s.islandHolds p) && x.st == .faulted && ok then
    done ((s.modPort p fun x => { x with pwrRetries := satInc x.pwrRetries }).powerOn p)
  else .next s

/-- LINE_ACTIVE_TOO_LONG (R46, R83): the round on the line ends in BABBLE, and the port is disabled; its times are
counted in subframes (DESIGN CHOICE, log 144). -/
def execLineActiveTooLong (p : PortNo) (s : State) : Answer :=
  if !s.inService p then .next s
  else
    let s := match (s.port p).round with
      | some r => s.endRound p r .babble 0 r.t0
      | none => s
    let s := s.modPort p fun x =>
      { x with babbleAgain := (match x.babbleAt with | some t => decide (s.pl.subN ≤ t + 80000) | none => false)
               babbleAt := some s.pl.subN }
    done ((s.disablePort p 1).flag p chgBabble)

/-- BABBLE_AUTO_RESET (R83): 100 ms later, in hardware enumeration, unless another babble disable came in the 10 s before. -/
def execBabbleAutoReset (p : PortNo) (s : State) : Answer :=
  let x := s.port p
  if s.alive && x.st == .disabled && x.disableCause == 1 && x.enumHw && !x.babbleAgain then done (s.startReset p) else .next s

/-- PRT_CHANGE_CLEAR (R87): W1C. -/
def execPrtChangeClear (p : PortNo) (w : Word) (s : State) : Answer :=
  if s.regsOpen 0 && (!s.inCompat || decide (p.val < 16)) then
    .next ((s.written 0).modPort p fun x => { x with change := x.change &&& ~~~(w.setWidth 8) })
  else .next s

end Sys2Proof.Machine
end

