-- ==== Sys2Proof/Machine/Orders.lean ====
section
/-!
DEFINITION. PORT_CONTROL with `scope` 0 (R82, R140, R141): the manager's orders to root ports. `outranked` tells that a contradicting
order of higher rank reached the port in the same lath cycle, so that this one is refused with CONFLICT (R157, R158).
-/
namespace Sys2Proof.Machine

/-- `port` of a PORT_CONTROL. -/
def cePort (e : CEntry) : PortNo := ⟨fld e 76 72 % 32, by omega⟩

/-- `action` of a PORT_CONTROL. -/
def ceAction (e : CEntry) : Nat := fld e 67 64

/-- A PORT_CONTROL with `scope` 0 and an action. -/
def portForm (action : Nat) (e : CEntry) : Bool := !bitOf e 68 && ceAction e == action

/-- A PORT_CONTROL with `scope` 0 and POWER_ON, or an action that no order has. -/
def powerOnForm (e : CEntry) : Bool := !bitOf e 68 && (ceAction e < 2 || 6 < ceAction e)

/-- The override holds the port against an order (R79, R159). -/
def State.egressHolds (s : State) (p : PortNo) : Bool := s.pw.egress && (s.port p).egressPort

/-- A command on a port ends at once with the port's state in its result (R141). -/
def State.portEnds (s : State) (p : PortNo) (st : Status) : Reply := .ends s st (s.port p).result

/-- A running periodic endpoint hangs below a position (R255). -/
def State.periodicIn' (s : State) (q : Pos) : Bool :=
  s.eps.any fun (_, e) => e.kind == .periodic && e.st == .running && ((s.epDev e).map fun d => s.inBranch q d).getD false

/-- An order to a port's power is carried out: a refused request of the board management controller is forgotten (R160), and the
retries start over (R78). -/
def State.powerOrdered (s : State) (p : PortNo) : State := s.modPort p fun x => { x with bmcOffReq := false, pwrRetries := 0 }

/-- POWER_ON (R76, R141, R214). -/
def State.orderPowerOn (s : State) (p : PortNo) : Reply :=
  match (s.port p).st with
  | .held => s.portEnds p .conflict
  | .unpowered | .faulted =>
    if !s.holderFound p then s.portEnds p .noResources
    else .waits (((s.powerOrdered p).modPort p fun x => { x with mgrPowered := true }).powerOn p)
  | .powering => .waits ((s.powerOrdered p).modPort p fun x => { x with mgrPowered := true })
  | _ => ((s.powerOrdered p).modPort p fun x => { x with mgrPowered := true }).portEnds p .cmdOk

/-- PORT_CONTROL_POWER_ON (R141); an `action` that is none of the six is PARAM_INVALID (R140). -/
def execPortControlPowerOn (i : InstNo) (o : RankedSlot) (s : State) : Answer :=
  carryOut i o.slot 0x20 powerOnForm s fun e =>
    if ceAction e != 1 then .ends s .paramInvalid 0
    else if o.outranked then s.portEnds (cePort e) .conflict
    else s.orderPowerOn (cePort e)

/-- PORT_CONTROL_POWER_OFF (R79, R141, R221). -/
def execPortControlPowerOff (i : InstNo) (o : RankedSlot) (s : State) : Answer :=
  carryOut i o.slot 0x20 (portForm 2) s fun e =>
    let p := cePort e
    if o.outranked || (s.port p).st == .held || s.egressHolds p then s.portEnds p .conflict
    else ((s.powerOrdered p).powerOff p).portEnds p .cmdOk

/-- PORT_CONTROL_RESET (R82, R141, R156): joined to a reset in progress, or begun. -/
def execPortControlReset (i : InstNo) (o : RankedSlot) (s : State) : Answer :=
  carryOut i o.slot 0x20 (portForm 3) s fun e =>
    let p := cePort e
    let st := (s.port p).st
    if o.outranked || s.shedCmd then s.portEnds p .conflict
    else if st == .resetting then .waits s
    else if !st.resettable then s.portEnds p .conflict
    else .waits (s.startReset p)

/-- PORT_CONTROL_SUSPEND (R70, R141, R159, R255): pending until the end of the subframe. -/
def execPortControlSuspend (i : InstNo) (o : RankedSlot) (s : State) : Answer :=
  carryOut i o.slot 0x20 (portForm 4) s fun e =>
    let p := cePort e
    if o.outranked || s.shedCmd || (s.port p).st != .enabled || s.egressHolds p || s.periodicIn' (rootPos p) then s.portEnds p .conflict
    else .waits (s.modPort p fun x => { x with suspendPending := true })

/-- PORT_CONTROL_RESUME (R70 to R72, R141); `idleUs` is how long the line of a SUSPENDING port has been idle. -/
def execPortControlResume (i : InstNo) (o : RankedSlot) (idleUs : Nat) (s : State) : Answer :=
  carryOut i o.slot 0x20 (portForm 5) s fun e =>
    let p := cePort e
    if o.outranked || s.shedCmd then s.portEnds p .conflict
    else match (s.port p).st with
      | .enabled => ((s.modPort p fun x => { x with suspendPending := false }).settlePort p).portEnds p .cmdOk
      | .suspending =>
        if idleUs < 2500 then (s.backEnabled p).portEnds p .cmdOk
        else .waits (s.modPort p fun x => { x with resumeWanted := true })
      | .suspended => .waits (s.startResume p)
      | _ => s.portEnds p .conflict

/-- PORT_CONTROL_DISABLE (R141, R159). -/
def execPortControlDisable (i : InstNo) (o : RankedSlot) (s : State) : Answer :=
  carryOut i o.slot 0x20 (portForm 6) s fun e =>
    let p := cePort e
    if o.outranked || (s.port p).st != .enabled || s.egressHolds p then s.portEnds p .conflict
    else (s.disablePort p 2).portEnds p .cmdOk

end Sys2Proof.Machine
end

