-- ==== Sys2Proof/Machine/Tree.lean ====
section
/-!
DEFINITION. Tree management (08): the controller's own control transfers (R238, R241, R444) and the procedures they serve:
admission and addressing, enumeration (R242 to R247), hubs (R248, R249), branch power (R254 to R257), clear-halts (R54).
-/
namespace Sys2Proof.Machine

/-! ### Requests (R238) -/

def reqIdent : Nat := 0x51
def reqAddrSet : Nat := 0x58
def reqUnhalt : Nat := 0x5C
def reqQuery : Nat := 0x61
def reqAct : Nat := 0x62
def reqAck : Nat := 0x63
def reqRouteAdd : Nat := 0x68
/-- In the table of R238; no rule has the controller send it, and it never does (DEDUCED, log 142). -/
def reqRouteDel : Nat := 0x69

def actPowerOn : Nat := 1
def actPowerOff : Nat := 2
def actReset : Nat := 3
def actSuspend : Nat := 4
def actResume : Nat := 5
def actDisable : Nat := 6

/-- A control transfer of the controller's own is begun for a procedure (R241): to address 0 at a position's port with 8-byte
blocks, or to a device. -/
def State.startOwn (s : State) (proc : Nat) (port : PortNo) (addr tier mb req tgt sel arg xlen : Nat) : State :=
  let x : OwnXfer := { id := s.nextId, port := port, addr := addr, tier := tier, maxBlock := mb, req := req, tgt := tgt, sel := sel
                       arg := arg, xlen := xlen, proc := proc, stage := .setup, data := [], err := 0, retry := 0, silenceRun := 0
                       backoff := false, backoffAt := 0, picked := false, inSeq := 0, outSeq := 0, result := none }
  s.takeId.modTree fun t => { t with own := t.own ++ [x] }

/-- A request to a device with a record. -/
def State.ask (s : State) (proc z req tgt sel arg xlen : Nat) : State :=
  match s.dev z with
  | some d => s.startOwn proc d.port z d.tier d.ep0Max req tgt sel arg xlen
  | none => s

/-- A request to the device at the default address of a position. -/
def State.askDefault (s : State) (proc : Nat) (q : Pos) (req tgt sel arg xlen : Nat) : State :=
  s.startOwn proc q.port 0 (s.posTier q) 8 req tgt sel arg xlen

/-- A procedure begins. -/
def State.newProc (s : State) (pu : Purpose) (q : Pos) (step addr : Nat) (todo : List (Nat × Nat)) : State × Nat :=
  let id := s.nextId
  (s.takeId.modTree fun t => { t with procs := t.procs ++ [⟨id, pu, q, step, addr, todo, false⟩] }, id)

def State.modProc (s : State) (id : Nat) (f : Proc → Proc) : State :=
  s.modTree fun t => { t with procs := t.procs.map fun x => if x.id = id then f x else x }

/-- A procedure ends; what it still has on the line goes with it. -/
def State.endProc (s : State) (id : Nat) : State :=
  s.modTree fun t => { t with procs := t.procs.filter fun x => x.id != id, own := t.own.filter fun x => x.proc != id }

/-- A single request whose end needs nothing further. -/
def State.fire (s : State) (z req tgt sel arg : Nat) : State :=
  match s.dev z with
  | some d =>
    let (s, id) := s.newProc .fire d.pos 0 0 []
    s.ask id z req tgt sel arg 0
  | none => s

/-! ### Records (R100, R139) -/

/-- Hubs on the path to a position with the port at each, from tier 1 down (R244). -/
def State.path (s : State) (q : Pos) : List (Nat × Nat) := if q.hub = 0 then [] else (go 7 q.hub q.hport).reverse
where
  go : Nat → Nat → Nat → List (Nat × Nat)
    | 0, _, _ => []
    | k + 1, hub, hport =>
      (hub, hport) :: (match s.dev hub with
        | some d => if d.tier ≤ 1 then [] else go k d.parent d.phport
        | none => [])

/-- `route` of a position (R100). -/
def State.routeOf (s : State) (q : Pos) : Nat := ((s.path q).zipIdx.map fun (h, k) => h.2 % 16 * 16 ^ k).sum

/-- A record from an identity block (R238, R139), with working state that is free (R100). -/
def State.identRecord (s : State) (q : Pos) (id : List Byte) : DevRec :=
  { port := q.port, tier := s.posTier q, parent := q.hub, phport := q.hport, route := BitVec.ofNat 28 (s.routeOf q)
    hub := numAt id 3 1 % 2 == 1, rev3 := numAt id 3 1 / 2 % 2 == 1, speed := (s.port q.port).speed, owner := 0, hubPorts := 0
    st := .atDefault, ep0Max := numAt id 2 1, cls := BitVec.ofNat 16 (numAt id 0 2), admitFrame := BitVec.ofNat 32 s.frame
    resetGen := 0, awaiting := false, perPort := false, statusOn := false, statusPhase := 0, statusSeq := 0, bits := 0, hports := []
    work := BitVec.ofNat 384 (leNat (s.freeBytes 48)) }

/-- A record with its hub block (R238). -/
def DevRec.withHub (d : DevRec) (hb : List Byte) : DevRec :=
  { d with hubPorts := numAt hb 0 1 % 16, perPort := numAt hb 1 1 % 2 == 1 }

/-- The status endpoint of a hub is opened (R240): booked on the manager's reservation and within the pinning limit (R173); none at
tier 7. That of a hub addressed
again keeps its booking (R247) (DEDUCED, log 101). -/
def State.openStatus (s : State) (z : Nat) : State × Bool :=
  match s.dev z with
  | none => (s, true)
  | some d =>
    if !d.hub || 7 ≤ d.tier then (s, true)
    else if d.statusOn then (s.modDev z fun d => { d with statusSeq := 0 }, true)
    else
      let v := (s.port d.port).reckon
      let cost := svcCost v d.tier 2 true
      match choosePhase s.bookings 0 d.port v 3 cost (vget (s.inst 0).units d.port) with
      | some q =>
        if s.pinsFit (⟨131072 + z, 0, d.port, cost, 3, q⟩ :: s.bookings) then (s.modDev z fun d => { d with statusOn := true, statusPhase := q, statusSeq := 0 }, true)
        else (s.modDev z fun d => { d with statusOn := false }, false)
      | none => (s.modDev z fun d => { d with statusOn := false }, false)

/-- Step 7 of R244 for a hub: its status endpoint, and power on its ports when hub management is in hardware mode. One that
cannot be booked is told to the manager (R245), after an ASSIGN_ADDRESS too (DESIGN CHOICE, log 136). -/
def State.step7 (s : State) (z : Nat) (q : Pos) : State :=
  match s.dev z with
  | none => s
  | some d =>
    if !d.hub then s
    else
      let (s, ok) := s.openStatus z
      if !ok then
        (s.postDevice .enumFailed Status.noResources.code z (7 * 256) q).modPort q.port fun x => { x with enumFails := satInc x.enumFails }
      else if (s.port q.port).hubHw && d.perPort then s.fire z reqAct 0x10 0 actPowerOn
      else s

/-- Record 0 moves to a zone address (R139, R244 step 6), and the position leaves the default address. -/
def State.moveRecord (s : State) (q : Pos) (z : Nat) : State :=
  match s.dev 0 with
  | none => s
  | some d =>
    let s : State := { s with devs := kset (kdel s.devs 0) z { d with st := .addressed } }
    s.modTree fun t => { t with marks := t.marks.filter (· != q), failedOnce := t.failedOnce.filter (· != q) }

/-- A reset device has its recorded address again (R247): its stopped endpoints run (DEDUCED, log 112). -/
def State.readdressed (s : State) (z : Nat) (q : Pos) : State :=
  let s := s.modDev z fun d => { d with awaiting := false, speed := (s.port q.port).speed }
  let s := s.each (s.epsOf z) fun s k =>
    s.modEp k fun e => if e.st == .stopped then { e.clear with st := .running } else e
  let s := s.modTree fun t => { t with marks := t.marks.filter (· != q), failedOnce := t.failedOnce.filter (· != q) }
  s.step7 z q

/-- READDRESSED to the manager and to the device's tenant (R247, R252). -/
def State.postReaddressed (s : State) (z : Nat) (q : Pos) : State :=
  match s.dev z with
  | none => s
  | some d => (s.postDevice .readdressed 0 z d.detail q).postTenant d.owner .readdressed (s.localDev d.owner z) d.detail q

/-! ### Branches that are not usable (R255, R256) -/

/-- The hub ports on the way to a device, from tier 1 down, that are not usable. -/
def State.shutPorts (s : State) (q : Pos) : List (Nat × Nat) :=
  (s.path q).filter fun (h, p) => !(((s.dev h).bind fun d => kget d.hports p).map (·.up)).getD true

/-- The branch that a position lies in is suspended, on its way there or on its way back. -/
def State.branchDown (s : State) (q : Pos) : Bool :=
  let x := s.port q.port
  x.st == .suspending || x.st == .suspended || x.st == .resuming || !(s.shutPorts q).isEmpty

/-- An HPORT_ACT by TREE_POWER or by the tree-power policy (R254): to one port, or to all of them (DEDUCED, log 37). -/
def State.treeAct (s : State) (cmd : Option (InstNo × BitVec 16)) (hub hport action : Nat) : State :=
  match s.dev hub with
  | none => s
  | some d =>
    let named := if hport = 0 then (List.range d.hubPorts).map (· + 1) else [hport]
    let (s, id) := s.newProc (.treePower cmd action) ⟨d.port, hub, hport⟩ 1 0 (named.map fun p => (hub, p))
    let s := s.each named fun s p => s.modHPort hub p fun x => { x with moving := true }
    s.ask id hub reqAct 0x10 hport action 0

/-- In hardware tree-power mode, work for a device resumes its branch (R256), from the highest level that is not usable; work that
comes while
that level moves, or that has a further level below it, is met again at the next subframe (State.wakeWork). -/
def State.wakeBranch (s : State) (q : Pos) : State :=
  if !(s.port q.port).treeHw then s
  else
    let p := q.port
    match (s.port p).st with
    | .enabled =>
      if (s.port p).suspendPending then (s.modPort p fun x => { x with suspendPending := false }).settlePort p
      else match (s.shutPorts q).head? with
        | some (h, k) =>
          let x := ((s.dev h).bind fun d => kget d.hports k).getD {}
          if x.moving || x.waking || !x.suspended || s.tree.procs.any fun x => x.pos.hub == h && (x.pos.hport == k || x.pos.hport == 0) then s
          else s.treeAct none h k actResume
        | none => s
    | .suspending => s.resumeEarly p
    | .suspended => s.startResume p
    | _ => s

/-- Positions of the devices of a port that work waits for (R256): an entry taken or waiting, a halt that recovers, a transfer of the
controller's own, a command of R255. -/
def State.workAt (s : State) (p : PortNo) : List Pos :=
  let eps := s.eps.filter fun (_, e) => s.epPort e == some p && (e.recovering ||
    ((e.cur.isSome || e.hasEntry) && e.st == .running && s.takesWork e.inst))
  (eps.filterMap fun (_, e) => (s.epDev e).map (·.pos)) ++
  s.tree.own.filterMap fun x =>
    if x.port == p && x.result.isNone then
      if x.addr = 0 then (s.tree.marks.find? fun q => q.port == p) else (s.dev x.addr).map (·.pos)
    else none

/-- Branches of a port that work waits for resume (R256, R258). -/
def State.wakeWork (s : State) (p : PortNo) : State :=
  if !(s.port p).treeHw || !s.runs || s.pw.mode == .standby || s.shedCmd then s
  else s.each (s.workAt p) fun s q => if s.branchDown q then s.wakeBranch q else s

/-- A command's Linril step needs a branch that is not usable: CONFLICT in host-assisted tree-power mode (R255). -/
def State.stepConflict (s : State) (q : Pos) : Bool := s.branchDown q && !(s.port q.port).treeHw

/-! ### ADMIT_DEVICE, ASSIGN_ADDRESS (R139, R247) -/

/-- The position that an ADMIT_DEVICE names, if its parameters are in range. -/
def State.admitPos (s : State) (e : CEntry) : Option Pos :=
  let p : PortNo := ⟨fld e 68 64 % 32, by omega⟩
  let hub := fld e 83 72
  let hp := fld e 87 84
  if hub = 0 then (if hp = 0 then some (rootPos p) else none)
  else match s.dev hub with
    | some d => if d.hub && d.st == .addressed && d.port == p && d.tier < 7 && hp != 0 && decide (hp ≤ d.hubPorts) then some ⟨p, hub, hp⟩ else none
    | none => none

/-- The record at address 0 is held (R242): from the start of an admission of a new device, in either mode, until it has its address. -/
def State.record0Held (s : State) : Bool :=
  (s.dev 0).isSome || s.tree.procs.any fun x => match x.purpose with
    | .admission .. => true
    | .enum => x.step == 3 || x.step == 31 || x.step == 4
    | _ => false

/-- ADMIT_DEVICE (R139, R141, R441): IDENT_READ at address 0, at a hub position after HPORT_QUERY. -/
def execAdmitDevice (i : InstNo) (slot : BitVec 16) (s : State) : Answer :=
  carryOut i slot 0x10 anyForm s fun e =>
    match s.admitPos e with
    | none => .ends s .paramInvalid 0
    | some q =>
      if !s.tree.marks.contains q then .ends s .paramInvalid 0
      else if s.record0Held || 1 < (s.marked q.port).length then .ends s .busy 0
      else if (s.port q.port).enumHw || s.shedCmd || s.stepConflict q then .ends s .conflict 0
      else
        let s := s.wakeBranch q
        let (s, id) := s.newProc (.admission i slot) q (if q.hub = 0 then 3 else 1) 0 []
        .waits (if q.hub = 0 then s.askDefault id q reqIdent 0 0 0 8 else s.ask id q.hub reqQuery 0x10 q.hport 0 4)

/-- ASSIGN_ADDRESS (R139): ADDR_SET to the device in record 0. -/
def execAssignAddress (i : InstNo) (slot : BitVec 16) (s : State) : Answer :=
  carryOut i slot 0x11 (fun e => !bitOf e 95) s fun e =>
    let p : PortNo := ⟨fld e 68 64 % 32, by omega⟩
    let z := fld e 83 72
    match s.dev 0 with
    | none => .ends s .paramInvalid 0
    | some d =>
      if z = 0 || (s.dev z).isSome || (s.tree.procs.any fun x => x.addr == z) || d.port != p then .ends s .paramInvalid 0
      else if 1 < (s.marked p).length then .ends s .busy 0
      else if (s.port p).enumHw || s.shedCmd || s.stepConflict d.pos then .ends s .conflict 0
      else
        let q := d.pos
        let (s, id) := (s.wakeBranch q).newProc (.assign i slot) q 4 z (s.path q)
        .waits (s.askDefault id q reqAddrSet 0 0 z 0)

/-- ASSIGN_ADDRESS_READDRESS (R139, R247): the identity is read again first. -/
def execAssignAddressReaddress (i : InstNo) (slot : BitVec 16) (s : State) : Answer :=
  carryOut i slot 0x11 (fun e => bitOf e 95) s fun e =>
    let dev := if i = 0 then (s.dev (fld e 83 72)).map fun d => (fld e 83 72, d) else s.devOf i (fld e 83 72)
    match dev with
    | none => .ends s .paramInvalid 0
    | some (z, d) =>
      if z = 0 || !d.awaiting then .ends s .paramInvalid 0
      else if 1 < (s.marked d.port).length then .ends s .busy 0
      else if s.shedCmd || s.stepConflict d.pos then .ends s .conflict 0
      else
        let q := d.pos
        let (s, id) := (s.wakeBranch q).newProc (.readdress i slot) q 3 z (s.path q)
        .waits (s.askDefault id q reqIdent 0 0 0 8)

/-! ### Enumeration (R242 to R245) -/

/-- The lowest address of a port's pool that no record holds (R243); none without a pool. -/
def State.poolAddr (s : State) (p : PortNo) : Option Nat :=
  let x := s.port p
  if x.poolFirst = 0 && x.poolLast = 0 then none
  else ((List.range (x.poolLast + 1 - x.poolFirst)).map (· + x.poolFirst)).find? fun z =>
    z != 0 && (s.dev z).isNone && !(s.tree.procs.any fun q => q.addr == z)

/-- A position of the port is being enumerated, in either mode, so that no other is reset (R242). -/
def State.enumBusy (s : State) (p : PortNo) : Bool :=
  s.tree.procs.any fun x => x.pos.port == p && (match x.purpose with
    | .admission .. | .assign .. | .readdress .. | .enum | .reenum _ => true
    | _ => false)

/-- A waiting position is at step 1 (R244): its mode, its time and its branch let it be reset, and its port has no other in hand. -/
def State.atStep1 (s : State) (w : EnumWait) : Bool :=
  (s.port w.pos.port).enumHw && !s.enumBusy w.pos.port && decide (w.since ≤ s.pl.subN) &&
  (if w.pos.hub = 0 then !s.branchDown w.pos && ((s.port w.pos.port).st.resettable || s.tree.marks.contains w.pos)
   else s.usable w.pos.port && s.reachable w.pos.hub &&
     (((s.dev w.pos.hub).bind fun d => kget d.hports w.pos.hport).map fun x => x.usable && !x.moving).getD true)

/-- A waiting position can be enumerated now: it is at step 1, and an address is there for it. -/
def State.canEnum (s : State) (w : EnumWait) : Bool :=
  s.atStep1 w && (w.zone.isSome || (s.poolAddr w.pos.port).isSome)

/-- On each port the first waiting position at step 1, if no address is free for it, is told of once (R245). -/
def State.tellWaiting (s : State) : State :=
  s.each (allPorts.filterMap fun p => s.tree.waiting.find? fun w => w.pos.port == p && s.atStep1 w) fun s w =>
    if w.zone.isNone && !w.told && (s.poolAddr w.pos.port).isNone then
      let s := s.postDevice .enumFailed Status.noResources.code 0 (1 * 256) w.pos
      (s.modPort w.pos.port fun x => { x with enumFails := satInc x.enumFails }).modTree fun t =>
        { t with waiting := t.waiting.map fun y => if y.pos == w.pos then { y with told := true } else y }
    else s

/-- A procedure takes the record at address 0 for a new device; re-addressing, and the command that already holds it, need none. -/
def Proc.takesRecord0 (x : Proc) : Bool :=
  match x.purpose with
  | .enum => true
  | _ => false

/-- Admission begins: the identity block at address 0 (R244 step 3), once the record at address 0 is not held (R242). -/
def State.beginAdmit (s : State) (id : Nat) (q : Pos) : State :=
  if s.record0Held && s.tree.procs.any fun x => x.id == id && x.takesRecord0 then s.modProc id fun x => { x with step := 30 }
  else (s.modProc id fun x => { x with step := 3 }).askDefault id q reqIdent 0 0 0 8

/-- The position that has waited longest for the record at address 0 is admitted once it is free (R242). -/
def State.admitNext (s : State) : State :=
  match s.tree.procs.find? fun x => x.step == 30 with
  | some x => if s.record0Held then s else s.beginAdmit x.id x.pos
  | none => s

/-- Hub management is in host-assisted mode: enumeration itself clears `chg_attach` when it takes the position (R249) (DEDUCED, log 113). -/
def State.ackAttach (s : State) (q : Pos) : State :=
  let shown := (((s.dev q.hub).bind fun d => kget d.hports q.hport).map fun x => bitOf x.word 24).getD false
  if !(s.port q.port).hubHw && shown then s.fire q.hub reqAck 0x10 q.hport 1 else s

/-- ENUMERATION_START (R242 to R244): the first waiting position that can be enumerated is reset; one already at the default
address goes on from there (DEDUCED, log 29). -/
def execEnumerationStart (s : State) : Answer :=
  if !s.runs || s.shedCmd then .next s
  else
    let s := s.admitNext.tellWaiting
    match s.tree.waiting.find? s.canEnum with
    | none => done s
    | some w =>
      let q := w.pos
      let s := s.modTree fun t => { t with waiting := t.waiting.filter fun x => x.pos != q }
      let addr := (match w.zone with
        | some z => some z
        | none => s.poolAddr q.port).getD 0
      let pu : Purpose := match w.zone with
        | some z => .reenum z
        | none => .enum
      let (s, id) := s.newProc pu q 2 addr (s.path q)
      if s.tree.marks.contains q then done ((if q.hub = 0 then s else s.ackAttach q).beginAdmit id q)
      else if q.hub = 0 then done (s.startReset q.port)
      else done ((s.ackAttach q).ask id q.hub reqAct 0x10 q.hport actReset 0)

/-- The position fails (R245): disabled, unless the egress override refuses it (R159), record 0 freed, the manager told; it is tried
once more,
or has failed for good. -/
def State.enumFail (s : State) (x : Proc) (status step : Nat) : State :=
  let q := x.pos
  let s := s.endProc x.id
  let s := if q.hub = 0 then (if (s.port q.port).st == .enabled && !s.egressHolds q.port then s.disablePort q.port 2 else s)
    else (s.unmark q).fire q.hub reqAct 0x10 q.hport actDisable
  let s := s.dropRecord0 q
  let s := s.modPort q.port fun y => { y with enumFails := satInc y.enumFails }
  let s := s.postDevice .enumFailed Status.halted.code 0 (status + 256 * step) q
  s.modTree fun t =>
    if t.failedOnce.contains q then { t with failedOnce := t.failedOnce.filter (· != q), failed := t.failed ++ [q] }
    else { t with failedOnce := t.failedOnce ++ [q] }

/-- ENUM_RETRY (R245): once, 1 s after the first failure. -/
def execEnumRetry (pos : Pos) (s : State) : Answer :=
  if s.runs && s.tree.failedOnce.contains pos && (s.port pos.port).enumHw then .next (s.joinFrom pos (s.awaitedAt pos) 0) else .next s

/-- HUB_RESET_WAIT_END (R244 step 2): the port status is read. -/
def execHubResetWaitEnd (s : State) : Answer :=
  match s.tree.procs.find? fun x => x.step == 20 with
  | some x => done ((s.modProc x.id fun y => { y with step := 21 }).ask x.id x.pos.hub reqQuery 0x10 x.pos.hport 0 4)
  | none => .next s

/-- The step of R244 that a procedure's step belongs to. -/
def Proc.r244 (x : Proc) : Nat := if 20 ≤ x.step && x.step < 30 then 2 else if 30 ≤ x.step then 3 else x.step

/-! ### The ends of the controller's own transfers -/

/-- ROUTE_ADD to the next hub on the path (R244 step 5). -/
def State.routeNext (s : State) (x : Proc) (rest : List (Nat × Nat)) (h : Nat × Nat) : State :=
  (s.modProc x.id fun y => { y with step := 5, todo := rest }).ask x.id h.1 reqRouteAdd 0x10 h.2 x.addr 0

/-- Addressing is done (R244 steps 6 to 8, R139, R246, R247) (DEDUCED, log 33). -/
def State.addressed (s : State) (x : Proc) : State :=
  let s := s.endProc x.id
  match x.purpose with
  | .assign i slot => ((s.moveRecord x.pos x.addr).step7 x.addr x.pos).finishFor x i slot .cmdOk 0
  | .readdress i slot => ((s.readdressed x.addr x.pos).finishFor x i slot .cmdOk 0).postReaddressed x.addr x.pos
  | .enum =>
    let s := (s.moveRecord x.pos x.addr).step7 x.addr x.pos
    match s.dev x.addr with
    | some d => s.postDevice .addressed 0 x.addr d.detail x.pos
    | none => s
  | .reenum z => (s.readdressed z x.pos).postReaddressed z x.pos
  | _ => s

/-- `result` of ADMIT_DEVICE (R139). -/
def DevRec.admitResult (d : DevRec) : Nat :=
  pack [(0, 16, d.cls.toNat), (16, 8, d.ep0Max), (24, 1, b2n d.hub), (25, 4, d.hubPorts), (29, 1, b2n d.rev3)]

/-- Record 0 is complete: the command is answered, or ADDR_SET follows (R139, R244 step 4). A command that the change to hardware
enumeration overtook leaves its device to the order (R258). -/
def State.admitted (s : State) (x : Proc) : State :=
  match x.purpose with
  | .admission i slot =>
    let s := (s.endProc x.id).finishFor x i slot .cmdOk (((s.dev 0).map (·.admitResult)).getD 0)
    if (s.port x.pos.port).enumHw then s.joinEnum x.pos none else s
  | _ => (s.modProc x.id fun y => { y with step := 4 }).askDefault x.id x.pos reqAddrSet 0 0 x.addr 0

/-- The identity block has been read (R139, R247): compared with the record, or written to record 0. For a hub the hub block is read
next, also where the controller re-addresses it by itself (R244 step 3, R247) (DEDUCED, log 32). -/
def State.identRead (s : State) (x : Proc) (data : List Byte) : State :=
  let same (z : Nat) : Bool := ((s.dev z).map fun d => d.cls == BitVec.ofNat 16 (numAt data 0 2) && d.ep0Max == numAt data 2 1).getD false
  let setAddr : State := (s.modProc x.id fun y => { y with step := 4 }).askDefault x.id x.pos reqAddrSet 0 0 x.addr 0
  match x.purpose with
  | .readdress i slot => if same x.addr then setAddr else (s.endProc x.id).finishFor x i slot .paramInvalid 0
  | .reenum z =>
    if same z then
      if ((s.dev z).map (·.hub)).getD false then (s.modProc x.id fun y => { y with step := 31 }).askDefault x.id x.pos reqIdent 0 0 1 8
      else setAddr
    else ((s.endProc x.id).detachDev z 5).joinEnum x.pos none
  | _ =>
    let d := s.identRecord x.pos data
    let s := (s.takeFrees 48).setDev 0 d
    if d.hub then (s.modProc x.id fun y => { y with step := 31 }).askDefault x.id x.pos reqIdent 0 0 1 8 else s.admitted x

/-- A clear-halt of endpoint `k` has succeeded (R54). -/
def State.unhalted (s : State) (k : Nat) : State := s.modEp k fun e => { e.clear with st := .running, recovering := false }

/-- What a port status word tells of a hub's port (R239, R254): a port suspended or resumed by whoever it was, one in service again, and one
that has a new device. -/
def HPort.note (x : HPort) (word : BitVec 32) : HPort :=
  let susp := bitOf word 3
  let fresh : Bool := bitOf word 24 && bitOf word 0 && !susp
  { x with word := word, suspended := susp, disabled := x.disabled && !bitOf word 2
           waking := !susp && !fresh && (x.waking || x.suspended), usable := fresh || (x.usable && !susp) }

/-- The port status word of a hub's port is kept (R239). -/
def State.noteWord (s : State) (hub hport : Nat) (word : BitVec 32) : State := s.modHPort hub hport (·.note word)

/-- The named port shows what the action was to bring about (R254). -/
def actDone (action : Nat) (word : BitVec 32) : Bool :=
  if action = actSuspend then bitOf word 3
  else if action = actResume then !bitOf word 3
  else if action = actPowerOff then !bitOf word 1
  else bitOf word 1

/-- A TREE_POWER or policy procedure reads the next port, or is done (R143, R254). -/
def State.treeNext (s : State) (x : Proc) : State :=
  match x.todo with
  | (h, p) :: _ => (s.modProc x.id fun y => { y with step := 2 }).ask x.id h reqQuery 0x10 p 0 4
  | [] =>
    let s := s.endProc x.id
    match x.purpose with
    | .treePower (some (i, slot)) _ => s.finishFor x i slot .cmdOk 0
    | _ => s

/-! ### Hubs (R248, R249) -/

/-- Consequences of a trip or a lost device below a hub port, in both modes (R247 to R251). A port switched off by order reports
`attached` 0
without `chg_attach` and has detached its branch already (R237, R250); a port that is not powered otherwise tells nothing of its device. -/
def State.hubLoss (s : State) (q : Pos) (word : BitVec 32) : State :=
  if bitOf word 25 then (s.detachBranch q 4).modHPort q.hub q.hport fun x => { x with usable := false }
  else if !bitOf word 0 && (bitOf word 24 || bitOf word 1) then s.detachBranch q 2
  else s

/-- A hub has taken a port out of service (R248): its branch is treated as a DISABLED root port (R83), and joins the order, in hardware
enumeration, to be reset 100 ms later, unless the same came in the 10 s before, both counted in subframes (DESIGN CHOICE, log 144). -/
def State.hubDisable (s : State) (q : Pos) : State :=
  let before := ((s.dev q.hub).bind fun d => kget d.hports q.hport).bind (·.babbleAt)
  let again : Bool := match before with
    | some t => decide (s.pl.subN ≤ t + 80000)
    | none => false
  let s := (s.unmark q).modHPort q.hub q.hport fun x => { x with disabled := true, babbleAt := some s.pl.subN }
  if (s.port q.port).enumHw && !again && !s.tree.failed.contains q && !s.tree.failedOnce.contains q then
    s.joinFrom q (s.awaitedAt q) (s.pl.subN + 800)
  else s

/-- A DEVICE event for a wake or a refused speed (R253). -/
def wordSpeed (word : BitVec 32) : Nat := fld word 11 10 * 64

/-- The device at a position, as `dev` of WAKE and HUB_CHANGE names it (R253): 0 where there is none. -/
def State.zoneAt (s : State) (q : Pos) : Nat := ((s.devAt q).map (·.1)).getD 0

/-- The procedure is a reset by command. -/
def Proc.resets (x : Proc) : Bool :=
  match x.purpose with
  | .devReset .. => true
  | _ => false

/-- The procedure enumerates its position, so that its step 2 takes `chg_reset` (R244, R248). -/
def Proc.enumerates (x : Proc) : Bool :=
  match x.purpose with
  | .enum | .reenum _ => true
  | _ => false

/-- A hub port's changes acted on in hardware mode, and cleared (R248). -/
def State.hubAct (s : State) (q : Pos) (word : BitVec 32) (owner : InstNo) : State :=
  let s := s.hubLoss q word
  let fresh : Bool := bitOf word 24 && bitOf word 0
  let s := if fresh then
      s.modDev q.hub fun d => { d with hports := kupd d.hports q.hport fun x => { x with refusedPosted := false } }
    else s
  let s := if fresh && !bitOf word 12 then s.attachAt q else s
  let s := if bitOf word 28 && !bitOf word 2 then s.hubDisable q else s
  let moving := (((s.dev q.hub).bind fun d => kget d.hports q.hport).map (·.moving)).getD false
  let s := if bitOf word 27 && !bitOf word 3 then
      if moving then s
      else
        let z := s.zoneAt q
        (s.postDevice .wake 0 z (wordSpeed word) q).postTenant owner .wake (if z = 0 then 0 else s.localDev owner z) (wordSpeed word) q
    else s
  let refused := (((s.dev q.hub).bind fun d => kget d.hports q.hport).map (·.refusedPosted)).getD false
  let s := if bitOf word 12 && bitOf word 0 && !refused then
      (s.postDevice .speedRefused 0 0 (wordSpeed word) q).modDev q.hub fun d =>
        { d with hports := kupd d.hports q.hport fun x => { x with refusedPosted := true } }
    else s
  let awaited := s.tree.procs.any fun x => x.pos == q && (x.step == 20 || x.step == 21 || x.step == 22) && x.enumerates
  let bits := fld word 28 24
  let bits := if awaited && bitOf word 26 then bits - 4 else bits
  if bits = 0 then s else s.fire q.hub reqAck 0x10 q.hport bits

/-- A hub port's changes told in host-assisted mode (R249) (DEDUCED, log 110). -/
def State.hubTell (s : State) (q : Pos) (word : BitVec 32) (before : BitVec 32) : State :=
  let posted := ((s.dev q.hub).bind fun d => kget d.hports q.hport).bind (·.posted)
  let s := if posted == some word then s
    else (s.postDevice .hubChange 0 (s.zoneAt q) word.toNat q).modDev q.hub fun d =>
      { d with hports := kupd d.hports q.hport fun x => { x with posted := some word } }
  let s := s.hubLoss q word
  if bitOf word 0 && !bitOf before 0 && !bitOf word 12 then s.attachAt q else s

/-- The port status word that HPORT_QUERY returned, acted on or told of (R248, R249) in the mode in which its reading was begun (R258). -/
def State.hubWord (s : State) (hub hport : Nat) (hw : Bool) (word : BitVec 32) : State :=
  match s.dev hub with
  | none => s
  | some d =>
    let q : Pos := ⟨d.port, hub, hport⟩
    let before := ((kget d.hports hport).map (·.word)).getD 0
    let s := s.noteWord hub hport word
    if hw then s.hubAct q word d.owner else s.hubTell q word before

/-- HPORT_QUERY of this port is being read. -/
def State.querying (s : State) (hub hport : Nat) : Bool :=
  s.tree.procs.any fun x => x.purpose == .query hub hport true || x.purpose == .query hub hport false

/-- HUB_PORT_QUERY (R248, R249): a poll has shown the port's bit, and HPORT_QUERY is read by a transfer of the controller's own. -/
def execHubPortQuery (hub hport : Nat) (s : State) : Answer :=
  match s.dev hub with
  | none => .next s
  | some d =>
    if !s.runs || !d.hub || !d.statusOn || d.st != .addressed || d.awaiting || hport = 0 || d.hubPorts < hport ||
        !bitOf d.bits hport || s.querying hub hport then .next s
    else
      let s := s.modDev hub fun d => { d with bits := d.bits &&& ~~~(BitVec.ofNat 16 (2 ^ hport)) }
      let (s, id) := s.newProc (.query hub hport (s.port d.port).hubHw) d.pos 0 0 []
      done (s.ask id hub reqQuery 0x10 hport 0 4)

/-! ### Procedures that go on -/

/-- A port of a TREE_POWER has reached its new state (R254): after power-on its branch enumerates anew, after a resume it is usable 1
ms later. -/
def State.treePortDone (s : State) (p : PortNo) (hub hport action : Nat) : State :=
  let s := s.modHPort hub hport fun x =>
    { x with moving := false, suspended := action == actSuspend, waking := action == actResume && !x.usable
             usable := action == actPowerOn || (action == actResume && x.usable) }
  if action = actPowerOn then s.forgive ⟨p, hub, hport⟩ else s

/-- A TREE_POWER or policy procedure ends before its ports have reached their new state: it leaves them as they were (R136). -/
def State.treeUndo (s : State) (x : Proc) : State :=
  s.each x.todo fun s h => s.modHPort h.1 h.2 fun y => { y with moving := false }

/-- A reset that joined the same reset of a position completes with it (R158): step 29 of its procedure. -/
def State.endJoined (s : State) (q : Pos) (st : Status) (result : Nat) : State :=
  s.each (s.tree.procs.filter fun y => y.pos == q && y.step == 29) fun s y =>
    match y.purpose with
    | .devReset i slot => (s.endProc y.id).finishFor y i slot st result
    | _ => s

/-- A transfer of a procedure has ended with SUCCESS and data. -/
def State.procOk (s : State) (x : Proc) (data : List Byte) : State :=
  let word := BitVec.ofNat 32 (numAt data 0 4)
  match x.purpose with
  | .fire => s.endProc x.id
  | .query hub hport hw => (s.endProc x.id).hubWord hub hport hw word
  | .unhaltCmd i slot k => ((s.endProc x.id).unhalted k).finishFor x i slot .cmdOk 0
  | .unhaltHw k => (s.endProc x.id).unhalted k
  | .unhaltEgress k => (s.endProc x.id).unhalted k
  | .devReset i slot =>
    if x.step = 2 then (s.resetPos x.pos).modProc x.id fun y => { y with step := 20 }
    else if x.step = 21 then (s.modProc x.id fun y => { y with step := 22 }).ask x.id x.pos.hub reqAck 0x10 x.pos.hport 4 0
    else
      let s := ((s.endProc x.id).finishFor x i slot .cmdOk 0).endJoined x.pos .cmdOk 0
      if (s.port x.pos.port).enumHw then s.joinEnum x.pos ((s.devAt x.pos).map (·.1)) else s
  | .treePower _ action =>
    if x.step = 1 then
      let s := if action = actPowerOff then s.each x.todo fun s h => s.detachBranch ⟨x.pos.port, h.1, h.2⟩ 3
        else if action = actSuspend then s.each x.todo fun s h => s.unmark ⟨x.pos.port, h.1, h.2⟩
        else s
      s.treeNext x
    else match x.todo with
      | (h, p) :: rest =>
        let s := s.noteWord h p word
        if actDone action word then
          let s := (s.treePortDone x.pos.port h p action).modProc x.id fun y => { y with todo := rest }
          s.treeNext { x with todo := rest }
        else s.treeNext x
      | [] => s.treeNext x
  | _ =>
    match x.step with
    | 1 =>
      if bitOf word 2 then s.beginAdmit x.id x.pos
      else match x.purpose with
        | .admission i slot => (s.endProc x.id).finishFor x i slot .paramInvalid 0
        | _ => s.endProc x.id
    | 2 => (s.resetPos x.pos).modProc x.id fun y => { y with step := 20 }
    | 21 =>
      if bitOf word 2 then (s.modProc x.id fun y => { y with step := 22 }).ask x.id x.pos.hub reqAck 0x10 x.pos.hport 4 0
      else if bitOf word 12 then
        -- speed_refused: the position is not enumerated (R248; DEDUCED, log 24)
        (((s.endProc x.id).unmark x.pos).dropRecord0 x.pos).fire x.pos.hub reqAck 0x10 x.pos.hport 4
      else s.enumFail x 0 2
    | 22 => s.beginAdmit x.id x.pos
    | 3 => s.identRead x data
    | 31 =>
      match x.purpose with
      | .reenum _ => s.admitted x
      | _ => (s.modDev 0 fun d => d.withHub data).admitted x
    | _ =>
      -- ADDR_SET or a ROUTE_ADD has ended
      match x.todo with
      | h :: rest => s.routeNext x rest h
      | [] => s.addressed x

/-- A device that a failed command leaves at the default address joins the order where enumeration has gone to hardware (R258). -/
def State.leftOver (s : State) (q : Pos) : State :=
  if (s.port q.port).enumHw && s.tree.marks.contains q then s.joinEnum q none else s

/-- A transfer of a procedure has ended with another status (R54, R136, R245) (DEDUCED, log 100). -/
def State.procFail (s : State) (x : Proc) (st : Status) : State :=
  match x.purpose with
  | .fire => s.endProc x.id
  | .query _ _ _ => s.endProc x.id
  | .unhaltCmd i slot k =>
    ((s.endProc x.id).modEp k fun e => if e.st == .running then { e with st := .halted } else e).finishFor x i slot .halted st.code
  | .unhaltHw k => (s.endProc x.id).modEp k fun e => { e with recovering := false }
  | .unhaltEgress k => (s.endProc x.id).modEp k fun e => { e with recovering := false }
  | .treePower (some (i, slot)) _ => ((s.endProc x.id).treeUndo x).finishFor x i slot .halted st.code
  | .treePower none _ => (s.endProc x.id).treeUndo x
  | .devReset i slot => ((s.endProc x.id).finishFor x i slot .halted st.code).endJoined x.pos .halted st.code
  | .admission i slot => (((s.endProc x.id).dropRecord0 x.pos).finishFor x i slot .halted st.code).leftOver x.pos
  | .assign i slot => ((s.endProc x.id).finishFor x i slot .halted st.code).leftOver x.pos
  | .readdress i slot => (s.endProc x.id).finishFor x i slot .halted st.code
  | .enum => s.enumFail x st.code x.r244
  | .reenum _ => s.enumFail x st.code x.r244

/-- CONTROLLER_CONTROL_TRANSFER_END (R444): the procedure that the ended transfer serves goes on. -/
def execControllerControlTransferEnd (id : Nat) (s : State) : Answer :=
  match s.ownXfer id with
  | none => .next s
  | some o =>
    match o.result with
    | none => .next s
    | some st =>
      let s := s.modTree fun t => { t with own := t.own.filter fun x => x.id != id }
      match s.tree.procs.find? fun x => x.id == o.proc with
      | none => .next s
      | some x => done (if st == .success then s.procOk x o.data else s.procFail x st).admitNext

/-! ### Attach and reset of root ports, as enumeration sees them -/

/-- ATTACH_DEBOUNCE_DONE (R62, R246): REST-P or REST-N for 100 ms; the position waits for its reset. -/
def execAttachDebounceDone (p : PortNo) (s : State) : Answer :=
  let x := s.port p
  if s.portLive p && x.st == .attaching && (x.line == .restP || x.line == .restN) then
    let s := s.modPort p fun x => { x with pullup := linePullup x.line x.pullup }
    done (((s.setPortSt p .attached false).flag p chgConnect).attachAt (rootPos p))
  else .next s

/-- A device awaiting re-addressing can be reached: its position is the root port's, is at the default address, or has reported it
attached since its hub was reset (R247). -/
def State.posReachable (s : State) (q : Pos) : Bool :=
  q.hub == 0 || s.tree.marks.contains q ||
  (((s.dev q.hub).bind fun d => kget d.hports q.hport).map fun x => bitOf x.word 0).getD false

/-- Devices awaiting re-addressing that can be reached join the order in hardware mode (R247) (DEDUCED, log 73), the lower hub address
and hub
port first (R242). -/
def State.queueReaddress (s : State) (p : PortNo) : State :=
  let zs := (s.devs.filter fun (z, d) => z != 0 && d.port == p && d.awaiting && s.posReachable d.pos).map fun (z, d) => (z, d.pos)
  let hubs := zs.foldl (fun l x => if l.contains x.2.hub then l else insertNat x.2.hub l) []
  let order := hubs.flatMap fun h => (List.range 16).flatMap fun k => zs.filter fun x => x.2.hub == h && x.2.hport == k
  s.each order fun s x => s.joinEnum x.2 (some x.1)

/-- RESET_RECOVERY_END (R66 instant 12, R217): the port is usable; a position being enumerated is admitted, and in hardware
mode reset devices wait to be addressed again. -/
def execResetRecoveryEnd (p : PortNo) (s : State) : Answer :=
  let x := s.port p
  if !(s.portLive p && x.st == .enabled && x.recovering) then .next s
  else
    let s := s.recoveryEnd p
    match s.tree.procs.find? fun y => y.pos == rootPos p && y.step == 2 with
    | some y => done (s.beginAdmit y.id y.pos)
    | none =>
      if (s.port p).enumHw then
        let s := if (s.devAt (rootPos p)).isNone then s.joinEnum (rootPos p) none else s
        done (s.queueReaddress p)
      else done s

/-- READDRESS_TIMEOUT (R247): no attach within 1 s. -/
def execReaddressTimeout (zone : Nat) (s : State) : Answer :=
  match s.dev zone with
  | some d => if s.runs && d.awaiting then done ((s.leaveEnum d.pos).detachDev zone 6) else .next s
  | none => .next s

/-! ### Orders by the manager's own transfers (R441) -/

/-- What the manager orders a hub by its own control transfer (R441): HPORT_ACT once its status stage has ended ANSWERED. In
hardware enumeration mode a position that it resets is addressed by the controller (R247) (DEDUCED, log 114); one that it disables is
disabled from then on (DEDUCED, log 145). -/
def State.managerOrder (s : State) (z : Nat) (setup : Nat) : State :=
  match s.dev z with
  | none => s
  | some d =>
    let sel := setup / 2 ^ 16 % 2 ^ 16
    let act := setup / 2 ^ 32 % 2 ^ 16
    let named := if sel = 0 then (List.range d.hubPorts).map (· + 1) else [sel]
    if setup % 256 != reqAct || setup / 256 % 256 != 0x10 || !d.hub then s
    else s.each named fun s k =>
      let q : Pos := ⟨d.port, z, k⟩
      if act = actReset then
        let s := s.resetPos q
        if (s.port q.port).enumHw then s.joinEnum q (s.awaitedAt q) else s
      else if act = actDisable then (s.unmark q).modHPort z k fun x => { x with disabled := true }
      else if act = actSuspend then (s.unmark q).modHPort z k fun x => { x with suspended := true, usable := false, waking := false }
      else if act = actPowerOff then (s.detachBranch q 3).modHPort z k fun x => { x with usable := false, waking := false }
      else if act = actPowerOn then (s.forgive q).modHPort z k fun x => { x with usable := x.usable || !x.suspended }
      else s

/-- The manager's control transfer on a hub whose status stage is on the line: the hub and the setup block. -/
def State.orderPending (s : State) (p : PortNo) : Option (Nat × Nat × Nat) :=
  (s.port p).round.bind fun r => match r.who with
    | .ep x => if r.kind == .stIn || r.kind == .stOut then
        (s.ep x).bind fun e => if e.inst = 0 then e.cur.map fun c => (x, e.zone, teSetup c.entry) else none
      else none
    | _ => none

/-- A packet received, with the orders that it completes (R441). -/
def State.received (s : State) (p : PortNo) (pkt : List Byte) (now : Nat) : State :=
  let mb := (((s.port p).round.bind fun r => s.wire r.who).map (·.mb)).getD 512
  let t := s.packetIn p (receive mb pkt) now
  match s.orderPending p with
  | some (x, z, setup) =>
    if t.deliveries.any fun d => d.ep == x && (d.fin == some .success || d.fin == some .short) then t.managerOrder z setup else t
  | none => t

/-- DATA_BLOCK_RECEIVED (R37, R41, R48). -/
def execDataBlockReceived (p : PortNo) (pkt : List Byte) (now : Nat) (s : State) : Answer := done (s.received p pkt now)

/-- ACK_RECEIVED (R38). -/
def execAckReceived (p : PortNo) (pkt : List Byte) (now : Nat) (s : State) : Answer := done (s.received p pkt now)

/-- STALL_RECEIVED (R53). -/
def execStallReceived (p : PortNo) (pkt : List Byte) (now : Nat) (s : State) : Answer := done (s.received p pkt now)

/-- CORRUPT_PACKET_RECEIVED (R34): a response that fails a check, judged from its bytes. -/
def execCorruptPacketReceived (p : PortNo) (pkt : List Byte) (now : Nat) (s : State) : Answer := done (s.received p pkt now)

/-! ### Branch power (R143, R254 to R256) -/

/-- The hub that a TREE_POWER names and whether the issuer may (R143): a tenant owns the hub and every device below the ports. -/
def State.treeHub (s : State) (i : InstNo) (e : CEntry) : Option (Nat × DevRec) :=
  let dev := if i = 0 then (s.dev (fld e 75 64)).map fun d => (fld e 75 64, d) else s.devOf i (fld e 75 64)
  dev.bind fun (z, d) =>
    let hp := fld e 79 76
    let q : Pos := ⟨d.port, z, hp⟩
    if z != 0 && d.hub && d.st == .addressed && !d.awaiting && decide (hp ≤ d.hubPorts) &&
        (i == 0 || (s.branchDevs q).all fun y => ((s.dev y).map fun d => d.owner == i).getD true) then some (z, d)
    else none

/-- An endpoint with `egress_safe` hangs in a branch that the override protects (R159). -/
def State.egressProtects (s : State) (q : Pos) : Bool :=
  s.egressHolds q.port && s.eps.any fun (_, e) => e.egressSafe && ((s.epDev e).map fun d => s.inBranch q d).getD false

/-- A TREE_POWER with an HPORT_ACT action (R143, R254, R255); `outranked` as for PORT_CONTROL (R157, R158). -/
def treePower (i : InstNo) (slot : BitVec 16) (outranked : Bool) (s : State) (e : CEntry) (action : Nat) : Reply :=
  match s.treeHub i e with
  | none => .ends s .paramInvalid 0
  | some (z, d) =>
    let hp := fld e 79 76
    let q : Pos := ⟨d.port, z, hp⟩
    let power : Bool := action == actPowerOn || action == actPowerOff
    if power && !d.perPort then .ends s .paramInvalid 0
    else if outranked || s.shedCmd || s.stepConflict d.pos || (action == actSuspend && s.periodicIn' q) ||
        ((action == actSuspend || action == actPowerOff) && s.egressProtects q) then .ends s .conflict 0
    else .waits ((s.wakeBranch d.pos).treeAct (some (i, slot)) z hp action)

/-- A TREE_POWER with an `action` of R140. -/
def treeForm (a : Nat) (e : CEntry) : Bool := fld e 83 80 == a

/-- TREE_POWER_SUSPEND (R254, R255). -/
def execTreePowerSuspend (i : InstNo) (o : RankedSlot) (s : State) : Answer :=
  carryOut i o.slot 0x21 (treeForm 1) s fun e => treePower i o.slot o.outranked s e actSuspend

/-- TREE_POWER_RESUME (R254). -/
def execTreePowerResume (i : InstNo) (o : RankedSlot) (s : State) : Answer :=
  carryOut i o.slot 0x21 (treeForm 2) s fun e => treePower i o.slot o.outranked s e actResume

/-- TREE_POWER_POWER_OFF (R221, R254). -/
def execTreePowerPowerOff (i : InstNo) (o : RankedSlot) (s : State) : Answer :=
  carryOut i o.slot 0x21 (treeForm 3) s fun e => treePower i o.slot o.outranked s e actPowerOff

/-- TREE_POWER_POWER_ON (R254); an `action` that is none of the four is PARAM_INVALID (R140). -/
def execTreePowerPowerOn (i : InstNo) (o : RankedSlot) (s : State) : Answer :=
  carryOut i o.slot 0x21 (fun e => fld e 83 80 == 0 || 4 ≤ fld e 83 80) s fun e =>
    if fld e 83 80 != 4 then .ends s .paramInvalid 0 else treePower i o.slot o.outranked s e actPowerOn

/-- HUB_BRANCH_USABLE (R254): 1 ms after the resume was seen complete. -/
def execHubBranchUsable (hub hport : Nat) (s : State) : Answer :=
  .next (s.modDev hub fun d =>
    { d with hports := kupd d.hports hport fun x => if x.waking then { x with usable := true, waking := false } else x })

/-- A branch is idle (R256): no running periodic endpoint, no entry taken or waiting, no command naming a device of it. -/
def State.branchIdle (s : State) (q : Pos) : Bool :=
  let zs := s.branchDevs q
  !(s.eps.any fun (_, e) => zs.contains e.zone &&
      ((e.kind == .periodic && e.st == .running) || e.cur.isSome || e.hasEntry)) &&
  !(s.tree.own.any fun x => zs.contains x.addr) &&
  !(allInsts.any fun i => (s.inst i).cmds.any fun c => (c.objs (s.tier1 i)).any fun o => match o with
    | .dev n => ((s.zoneOf i n).map zs.contains).getD false
    | .ep k => ((s.epOf i k).map fun x => zs.contains x.2.zone).getD false
    | .hubPorts n _ => ((s.zoneOf i n).map zs.contains).getD false
    | _ => false)

/-- The branch may be suspended by policy (R256): it is idle, and the override does not protect it (R159). -/
def State.branchRests (s : State) (q : Pos) : Bool :=
  s.branchIdle q && !s.egressProtects q && !(q.hub == 0 && s.egressHolds q.port)

/-- The highest branch on the way to a position, itself among them, that is wholly idle (R256) (DEDUCED, log 143). -/
def State.restAt (s : State) (q : Pos) : Option Pos :=
  (rootPos q.port :: (s.path q).map fun (h, k) => (⟨q.port, h, k⟩ : Pos)).find? s.branchRests

/-- TREE_IDLE_EXPIRY (R256): in hardware tree-power mode the highest idle branch is suspended. -/
def execTreeIdleExpiry (pos : Pos) (s : State) : Answer :=
  if !s.runs || s.shedCmd || !(s.port pos.port).treeHw || !s.usable pos.port || s.branchDown pos || !s.branchIdle pos then .next s
  else match s.restAt pos with
    | none => .next s
    | some q =>
      if q.hub = 0 then .next (s.modPort q.port fun x => { x with suspendPending := true })
      else done (s.treeAct none q.hub q.hport actSuspend)

/-! ### Resets of one position, and clear-halts -/

/-- The manager's suspend or disable of the root port is in force against a tenant's order (R157, R159); one by policy gives way (R256). -/
def State.managerHolds (s : State) (p : PortNo) : Bool :=
  let x := s.port p
  ((x.st == .suspending || x.st == .suspended) && !x.treeHw) || (x.st == .disabled && x.disableCause == 2)

/-- PORT_CONTROL_DEVICE_RESET (R142, R156, R159): at tier 1 the root port's reset, else HPORT_ACT RESET; `outranked` as for PORT_CONTROL. A
reset of the position that has not been carried out yet is joined (R158). -/
def execPortControlDeviceReset (i : InstNo) (o : RankedSlot) (s : State) : Answer :=
  carryOut i o.slot 0x20 (fun e => bitOf e 68) s fun e =>
    let n := fld e 91 80
    let dev := if i = 0 then (s.dev n).map fun d => (n, d) else s.devOf i n
    match dev with
    | none => .ends s .paramInvalid 0
    | some (z, d) =>
      if z = 0 || d.st != .addressed || (i != 0 && d.hub) || ceAction e != 3 then .ends s .paramInvalid 0
      else if o.outranked || s.shedCmd then .ends s .conflict 0
      else if d.tier ≤ 1 then
        if i != 0 && (s.egressHolds d.port || s.managerHolds d.port) then .ends s .conflict 0
        else if (s.port d.port).st == .resetting then .waits s
        else if !(s.port d.port).st.resettable then .ends s .conflict 0
        else .waits (s.startReset d.port)
      else if s.stepConflict ⟨d.port, d.parent, 0⟩ then .ends s .conflict 0
      else if s.tree.procs.any fun x => x.pos == d.pos && x.step == 2 && x.resets then
        .waits (s.newProc (.devReset i o.slot) d.pos 29 0 []).1
      else
        let (s, id) := (s.wakeBranch d.pos).newProc (.devReset i o.slot) d.pos 2 0 []
        .waits (s.ask id d.parent reqAct 0x10 d.phport actReset 0)

/-- The clear-halt exchange of an endpoint other than endpoint 0 begins (R54). -/
def State.startUnhalt (s : State) (pu : Purpose) (e : Ep) : State :=
  match s.epDev e with
  | none => s
  | some d =>
    let (s, id) := (s.wakeBranch d.pos).newProc pu d.pos 0 0 []
    s.ask id e.zone reqUnhalt 0x20 e.epid.toNat 0 0

/-- An endpoint 0 whose halt recovery clears runs as soon as its branch is usable (R54, R255). -/
def State.recoverWhenUp (s : State) : State :=
  s.each ((s.eps.filter fun (_, e) =>
    e.recovering && e.kind == .control && e.st == .halted && s.reachable e.zone && ((s.epPort e).map s.usable).getD false).map (·.1))
      State.unhalted

/-- RECOVERY_BACKOFF_EXPIRY (R19, R54, R255): in hardware error recovery a halt is cleared after its back-off, once the branch is usable. -/
def execRecoveryBackoffExpiry (ep : Nat) (s : State) : Answer :=
  match s.ep ep with
  | none => .next s
  | some e =>
    if !s.runs || !s.pl.recoverHw || e.st != .halted || e.recovering || (s.inst e.inst).halted then .next s
    else if e.kind == .control then
      let s := (s.modEp ep fun e => { e with recovering := true }).recoverWhenUp
      done (match s.epDev e with
        | some d => if ((s.ep ep).map (·.recovering)).getD false then s.wakeBranch d.pos else s
        | none => s)
    else done ((s.modEp ep fun e => { e with recovering := true }).startUnhalt (.unhaltHw ep) e)

/-! ### Doorbells, which wake a branch (R95, R256) -/

/-- The branch of the endpoint that a doorbell names is resumed, where the policy is in hardware. -/
def State.wakeFor (s : State) (i : InstNo) (w : Word) : State :=
  match s.epOf i (fld w 32 16 - 1) with
  | some (_, e) =>
    match s.epDev e with
    | some d => if fld w 32 16 != 0 && e.opening.isNone && e.hasEntry && s.runs then s.wakeBranch d.pos else s
    | none => s
  | none => s

/-- DOORBELL (R93 to R95, R409): nothing at all while the controller is halted. -/
def execDoorbell (i : InstNo) (w : Word) (s : State) : Answer :=
  if s.nativeRegs i then done (((s.written i).ring' i w).wakeFor i w) else .next s

/-- F_DOORBELL (R413): the native doorbell word with bits [63:32] zero. -/
def execFDoorbell (w : BitVec 32) (s : State) : Answer :=
  if s.regsOpen 0 && s.inCompat then done (((s.written 0).ring' 0 (w.setWidth 64)).wakeFor 0 (w.setWidth 64)) else .next s

end Sys2Proof.Machine
end

