-- ==== Sys2Proof/Machine/Endpoints.lean ====
section
/-!
DEFINITION. Endpoint commands (R138, R139): OPEN_ENDPOINT, MODIFY_ENDPOINT, CLOSE_ENDPOINT, RESET_ENDPOINT, HALT_CLEAR, SET_DEQUEUE,
and RELEASE_DEVICE.
-/
namespace Sys2Proof.Machine

/-! ### Fields in range (R138) -/

/-- Maximum block sizes of a kind (Transfer sequences, 02). -/
def blockOk (kind ep0 mb : Nat) : Bool :=
  match kind with
  | 0 => mb == ep0
  | 1 => decide (1 ≤ mb) && decide (mb ≤ 256)
  | 2 => mb == 64 || mb == 128 || mb == 256 || mb == 512
  | _ => false

/-- EPIDs of a kind (R23, R101). -/
def epidOk (kind epid : Nat) : Bool := if kind = 0 then epid == 0 else epid % 16 != 0

/-- `interval_exp` and `phase` of a kind (R138); `reach` asks for R26 and R173. -/
def schedOk (kind n phase : Nat) (reach : Bool) : Bool :=
  if kind = 1 then
    (phase == 0xFFFF || decide (phase < 2 ^ n)) && (!reach || (decide (3 ≤ n) && (phase == 0xFFFF || phase % 8 == 0)))
  else n == 0 && phase == 0

/-- The region is the issuer's and at least `mb` bytes long (R138). -/
def State.regionHolds (s : State) (i : InstNo) (d mb : Nat) : Bool :=
  match kget (s.inst i).regions d with
  | some r => r.valid && decide (mb ≤ 512 * r.units)
  | none => false

/-- A binding to a flow is the issuer's to make (R291). -/
def State.flowOk (s : State) (i : InstNo) (flow : Nat) : Bool :=
  flow != 0 && (s.group ⟨flow / 65536 % 16, by omega⟩).owner == i && (s.inst i).flowQuota != 0

/-- An endpoint's cost and schedule booked on its port (R173, R174): the phase, or none for NO_RESOURCES. -/
def State.book (s : State) (slot : Nat) (i : InstNo) (p : PortNo) (cost n phase : Nat) : Option Nat :=
  let bs := s.bookings.filter fun b => b.slot != slot
  let v := (s.port p).reckon
  let units := vget (s.inst i).units p
  let q := if phase = 0xFFFF then choosePhase bs i p v n cost units
    else if peakAt bs i p v n phase + cost ≤ units then some phase else none
  q.bind fun q => if s.pinsFit (⟨slot, i, p, cost, n, q⟩ :: bs) then some q else none

/-- The branch is suspended, on its way there or on its way back (R255). -/
def State.branchSuspends (s : State) (q : Pos) : Bool := s.branchDown q || (s.port q.port).suspendPending

/-! ### OPEN_ENDPOINT -/

/-- `kind` of a context (R101). -/
def epKind (k : Nat) : EpKind := if k = 0 then .control else if k = 1 then .periodic else .bulk

/-- The context that the OPEN_ENDPOINT of ring slot `slot` writes (R101, R139): sequence state and counts 0, running (DEDUCED, log 36). Until
the command's event is written the endpoint is not open to doorbells (R152) nor listed (R178). -/
def openedEp (i : InstNo) (slot : BitVec 16) (e : CEntry) (z cost phase : Nat) : Ep :=
  { inst := i, zone := z, epid := BitVec.ofNat 5 (fld e 100 96), kind := epKind (fld e 102 101), interval := fld e 106 103
    phase := phase, evtRing := ⟨fld e 95 93 % 8, by omega⟩, maxBlock := fld e 123 114, errThreshold := fld e 109 107, errCount := 0
    retryLimit := fld e 113 110, retryCount := 0, st := .running, nextSeq := 0, expectSeq := 0, silenceRun := 0
    trBase := BitVec.ofNat 64 (fld e 191 128), trSize := fld e 127 124, trHead := 0, trTail := 0, region := fld e 201 192
    heldValid := false, heldLen := 0, heldReplaced := 0, flowId := BitVec.ofNat 20 (fld e 237 218), flowEn := bitOf e 238
    egressSafe := bitOf e 239, svcCost := cost, commitRef := 0, blocksDone := 0, bytesDone := 0, cur := none, carry := []
    carryEot := false, backoff := false, backoffAt := 0, picked := false, delivering := false, lastSilence := false, missRun := false
    recovering := false, force := none, streamBlock := 0, newSched := none
    opening := some slot, newlyOpen := true }

/-- The parameters of an OPEN_ENDPOINT are suitable for a device (R138, R139, R291) (DEDUCED, log 35). -/
def State.openOk (s : State) (i : InstNo) (e : CEntry) (d : DevRec) : Bool :=
  let kind := fld e 102 101
  let ring : RingNo := ⟨fld e 95 93 % 8, by omega⟩
  d.st == .addressed && !d.awaiting && (s.ring i ring).enable && epidOk kind (fld e 100 96) &&
  schedOk kind (fld e 106 103) (fld e 217 202) ((s.port d.port).reckon == .reach) && fld e 109 107 != 0 &&
  blockOk kind d.ep0Max (fld e 123 114) && decide (fld e 127 124 ≤ 12) && s.regionHolds i (fld e 201 192) (fld e 123 114) &&
  (!bitOf e 238 || s.flowOk i (fld e 237 218))

/-- OPEN_ENDPOINT (R139, R152, R165, R173): the context is written, running; a periodic one is booked. -/
def execOpenEndpoint (i : InstNo) (slot : BitVec 16) (s : State) : Answer :=
  carryOut i slot 0x12 anyForm s fun e =>
    let ix := fld e 80 64
    match s.devOf i (fld e 92 81) with
    | none => .ends s .paramInvalid 0
    | some (z, d) =>
      if (s.inst i).epLimit ≤ ix || !s.openOk i e d then .ends s .paramInvalid 0
      else
        let k := (s.inst i).epBase + ix
        let periodic := fld e 102 101 == 1
        if (s.ep k).isSome || s.eps.any (fun (_, x) => x.zone == z && x.epid.toNat == fld e 100 96) ||
            (periodic && s.branchSuspends d.pos) then .ends s .conflict 0
        else if !periodic then .ends ((s.setEp k (openedEp i slot e z 0 0)).cacheIn k) .cmdOk 0
        else if (s.port d.port).converting then .notYet
        else
          let cost := svcCost (s.port d.port).reckon d.tier (fld e 123 114) (bitOf e 100)
          match s.book k i d.port cost (fld e 106 103) (fld e 217 202) with
          | none => .ends s .noResources 0
          | some q => .ends ((s.setEp k (openedEp i slot e z cost q)).cacheIn k) .cmdOk (cost + q * 2 ^ 16)

/-! ### Boundaries (R150, R207) -/

/-- No transaction or round of the endpoint is under way: a transaction boundary (R150) (DEDUCED, log 34). -/
def State.atBoundary (s : State) (k : Nat) : Bool :=
  !(allPorts.any fun p => match (s.port p).round with
    | some r => r.who == .ep k
    | none => false) &&
  !(allTrowels.any fun w => (s.trowel w).slots.any fun t => t.who == .ep k && t.started)

/-! ### MODIFY_ENDPOINT -/

/-- A field that `mask` selects, else the one the endpoint has. -/
def masked (e : CEntry) (bit new old : Nat) : Nat := if bitOf e bit then new else old

/-- MODIFY_ENDPOINT (R139, R150, R178): the fields set in `mask` change; a new schedule waits for the frame boundary (DEDUCED, log 38). -/
def execModifyEndpoint (i : InstNo) (slot : BitVec 16) (s : State) : Answer :=
  carryOut i slot 0x13 anyForm s fun c =>
    match s.epOf i (fld c 80 64) with
    | none => .ends s .paramInvalid 0
    | some (k, e) =>
      match s.epDev e with
      | none => .ends s .paramInvalid 0
      | some d =>
        let (n0, q0) := e.newSched.getD (e.interval, e.phase)
        let n := masked c 81 (fld c 106 103) n0
        let q := masked c 82 (fld c 217 202) q0
        let mb := masked c 85 (fld c 123 114) e.maxBlock
        let err := masked c 83 (fld c 109 107) e.errThreshold
        let ring : RingNo := if bitOf c 86 then ⟨fld c 95 93 % 8, by omega⟩ else e.evtRing
        let kind := e.kind.ctorIdx
        let sched : Bool := bitOf c 81 || bitOf c 82
        let p := d.port
        if (sched && !schedOk kind n q ((s.port p).reckon == .reach)) || err = 0 || !blockOk kind d.ep0Max mb ||
            !(s.ring i ring).enable || (bitOf c 85 && !s.regionHolds i e.region mb) ||
            (bitOf c 87 && bitOf c 238 && !s.flowOk i (fld c 237 218)) then .ends s .paramInvalid 0
        else if (bitOf c 85 || bitOf c 86) && (e.trHead != e.trTail || e.heldValid) then .ends s .conflict 0
        else if !s.atBoundary k then .notYet
        else
          let put (e : Ep) : Ep :=
            { e with
              errThreshold := err, retryLimit := masked c 84 (fld c 113 110) e.retryLimit, maxBlock := mb, evtRing := ring
              flowId := if bitOf c 87 then BitVec.ofNat 20 (fld c 237 218) else e.flowId
              flowEn := if bitOf c 87 then bitOf c 238 else e.flowEn
              egressSafe := if bitOf c 88 then bitOf c 239 else e.egressSafe }
          if e.kind == .periodic && (sched || bitOf c 85) then
            if (s.port p).converting then .notYet
            else
              let cost := svcCost (s.port p).reckon d.tier mb e.inward
              match s.book k i p cost n q with
              | none => .ends s .noResources 0
              | some q =>
                .ends ((s.touch k).setEp k { put e with svcCost := cost, newSched := if sched then some (n, q) else e.newSched }) .cmdOk 0
          else .ends ((s.touch k).setEp k (put e)) .cmdOk 0

/-! ### CLOSE_ENDPOINT, RESET_ENDPOINT, HALT_CLEAR, SET_DEQUEUE -/

/-- The endpoint is bound to an armed commit (R192). -/
def State.armedOn (s : State) (k : Nat) : Bool :=
  s.commits.any fun (_, c) => c.phase == .armed && c.slots.any fun x => x.ep == k

/-- What the controller's own recovery of an endpoint was for is gone with it. -/
def State.forgetRecovery (s : State) (k : Nat) : State :=
  let off (x : Proc) : Proc :=
    match x.purpose with
    | .unhaltHw j | .unhaltEgress j => if j = k then { x with purpose := .fire } else x
    | _ => x
  s.modTree fun t => { t with procs := t.procs.map off }

/-- Holders leave the lists of the spans to come and of the span that runs. -/
def State.unlist (s : State) (gone : Holder → Bool) : State :=
  s.each allPorts fun s p =>
    let x := s.port p
    if x.cand.any gone || x.list.any gone || x.skim.any gone then
      s.modPort p fun x => { x with cand := x.cand.filter fun h => !gone h, list := x.list.filter fun h => !gone h
                                    skim := x.skim.filter fun h => !gone h }
    else s

/-- A context leaves the table, the cache and the lists. -/
def State.dropEp (s : State) (k : Nat) : State :=
  (({ s with eps := kdel s.eps k }).modMem fun m =>
    { m with cache := m.cache.filter (· != k), reading := m.reading.filter (· != k) }).unlist fun h => h == Holder.ep k

/-- CLOSE_ENDPOINT (R139, R150 to R152, R195, R207): at a block boundary the entry in progress completes with STOPPED, the held
block goes, the context is written back and closed. -/
def execCloseEndpoint (i : InstNo) (slot : BitVec 16) (s : State) : Answer :=
  carryOut i slot 0x14 anyForm s fun c =>
    match s.epOf i (fld c 80 64) with
    | none => .ends s .paramInvalid 0
    | some (k, _) =>
      if s.armedOn k then .ends s .conflict 0
      else if s.midWait (.ep k) then .notYet
      else
        let s := ((s.stopEp k .stopped).endSlot k .stopped).modEp k fun e =>
          { e with st := .closed, heldValid := false, heldLen := 0, commitRef := 0 }
        let head := ((s.ep k).map (·.trHead.toNat)).getD 0
        .ends (((s.writeBack k).dropEp k).forgetRecovery k) .cmdOk head

/-- An endpoint is detached or awaits re-addressing (R139). -/
def Ep.away (e : Ep) : Bool := e.st == .detached || e.st == .stopped

/-- The Linril step of a command on the endpoint cannot run now (R255, host-assisted tree power); endpoint 0 needs none. -/
def State.unhaltConflict (s : State) (e : Ep) : Bool :=
  e.kind != .control && ((s.epDev e).map fun d => s.stepConflict d.pos).getD true

/-- RESET_ENDPOINT (R54, R139, R156): the entry in progress ends as CLOSE_ENDPOINT ends it, then both ends' sequence state. -/
def execResetEndpoint (i : InstNo) (slot : BitVec 16) (s : State) : Answer :=
  carryOut i slot 0x15 anyForm s fun c =>
    match s.epOf i (fld c 80 64) with
    | none => .ends s .paramInvalid 0
    | some (k, e) =>
      if e.away || s.shedCmd || s.unhaltConflict e then .ends s .conflict 0
      else if s.midWait (.ep k) then .notYet
      else
        let s := ((s.touch k).stopEp k .stopped).endSlot k .stopped
        if e.kind == .control then .ends (s.unhalted k) .cmdOk 0
        else .waits (s.startUnhalt (.unhaltCmd i slot k) e)

/-- HALT_CLEAR (R54, R139, R156): nothing on a running endpoint; endpoint 0 needs no exchange (DEDUCED, log 39). -/
def execHaltClear (i : InstNo) (slot : BitVec 16) (s : State) : Answer :=
  carryOut i slot 0x16 anyForm s fun c =>
    match s.epOf i (fld c 80 64) with
    | none => .ends s .paramInvalid 0
    | some (k, e) =>
      if e.away || s.shedCmd then .ends s .conflict 0
      else if e.st != .halted then .ends s .cmdOk 0
      else if s.unhaltConflict e then .ends s .conflict 0
      else if e.kind == .control then .ends ((s.touch k).unhalted k) .cmdOk 0
      else .waits ((s.touch k).startUnhalt (.unhaltCmd i slot k) e)

/-- SET_DEQUEUE (R139): `tr_head` of a halted endpoint, once the entry that its halt ended has completed; the skipped entries post nothing
(DEDUCED, log 40). -/
def execSetDequeue (i : InstNo) (slot : BitVec 16) (s : State) : Answer :=
  carryOut i slot 0x17 anyForm s fun c =>
    match s.epOf i (fld c 80 64) with
    | none => .ends s .paramInvalid 0
    | some (k, e) =>
      let new := fld c 111 96
      let size := e.ringSize
      let ahead (x : Nat) : Nat := (x + size - e.trHead.toNat % size) % size
      if size ≤ new || ahead e.trTail.toNat < ahead new then .ends s .paramInvalid 0
      else if e.st != .halted then .ends s .conflict 0
      else if e.cur.isSome then .notYet
      else .ends ((s.touch k).modEp k fun e => { e with trHead := BitVec.ofNat 16 new }) .cmdOk 0

/-! ### RELEASE_DEVICE -/

/-- RELEASE_DEVICE (R139): the device's contexts close without events, and its map entry, address and record are free. -/
def execReleaseDevice (i : InstNo) (slot : BitVec 16) (s : State) : Answer :=
  carryOut i slot 0x18 anyForm s fun c =>
    let z := fld c 75 64
    match (if z = 0 then none else s.dev z) with
    | none => .ends s .paramInvalid 0
    | some d =>
      if d.st != .detached then .ends s .conflict 0
      else
        let s := s.each (s.epsOf z) fun s k => (s.dropEp k).forgetRecovery k
        let s := s.modInst d.owner fun n => { n with devMap := n.devMap.filter fun e => e.2 != z }
        .ends { s with devs := kdel s.devs z } .cmdOk 0

end Sys2Proof.Machine
end

