-- ==== Sys2Proof/Machine/Stencil.lean ====
section
/-!
DEFINITION. The stencil engine (09): starting, ending and stopping channels, the parameter block, program fetch, and the eight
instructions. A channel's instruction is one command.
-/
namespace Sys2Proof.Machine

/-! ### Events and ends (R278, R280, R281) -/

/-- Kinds of STENCIL event (R278). -/
def kEnd : Nat := 1
def kSignal : Nat := 2
def kCountZero : Nat := 3
def kStoppedOwner : Nat := 4
def kStoppedManager : Nat := 5
def kStoppedShed : Nat := 6
def kFault : Nat := 7

/-- Fault codes (R280). -/
def fBadOpcode : Nat := 0x01
def fReservedSet : Nat := 0x02
def fPcRange : Nat := 0x03
def fBadPointer : Nat := 0x04
def fOutsideRegion : Nat := 0x05
def fLength : Nat := 0x06
def fGateInvalid : Nat := 0x07
def fChanForeign : Nat := 0x08
def fHawkUe : Nat := 0x09
def fParam : Nat := 0x0A

/-- The channel is IDLE again (R263); its registers and last status stay. -/
def Chan.idle (x : Chan) : Chan := { x with cstate := .idle, ready := false, wait := none, resv := none, line := none, moved := 0, hit
:= false }

/-- A program ends with an event of a kind into its reserved slot (R264, R278). -/
def State.endChan (s : State) (c : ChanNo) (kind mark fault : Nat) : State :=
  let x := s.chan c
  let ev := s.stencilEvent c kind mark fault s.stamp
  let s := s.setChan c { x.idle with fault := if kind = kFault then BitVec.ofNat 8 fault else x.fault }
  match x.resv with
  | some e =>
    s.postVec x.owner e ev (kind == kFault && !x.vecEn) (if kind == kFault && x.vecEn then some x.vector.toNat else none)
  | none => s

/-- An instruction completes or faults (class STN_INSTR, R343). -/
def State.countInstr (s : State) (c : ChanNo) : State :=
  s.count { cls := 0x12, inst := some (s.chan c).owner, chan := some c.val }

/-- A fault ends the program (R280). -/
def State.faultChan (s : State) (c : ChanNo) (code : Nat) : State := s.endChan c kFault 0 code

/-- A stop of a channel (R281): a PENDING one has reserved nothing. -/
def State.stopChan (s : State) (c : ChanNo) (kind : Nat) : State :=
  match (s.chan c).cstate with
  | .idle => s
  | .pending => s.modChan c (·.idle)
  | _ => s.endChan c kind 0 0

/-- An interrupt while the channel's program stays as it is (R278): unsolicited, merged by channel and kind. -/
def State.raise (s : State) (c : ChanNo) (kind mark : Nat) : State :=
  let x := s.chan c
  s.unsolicited x.owner x.evtRing (.stencil c kind) (s.stencilEvent c kind mark 0 s.stamp)

/-! ### Starting (R264, R265) -/

/-- STENCIL_START (R264, R282): by the owner; in COMPAT every start is ignored. -/
def execStencilStart (i : InstNo) (c : ChanNo) (s : State) : Answer :=
  let s := s.written i
  if !s.nativeRegs i || (s.chan c).owner != i then .next s
  else if (s.chan c).cstate == .idle then .next (s.modChan c fun x => { x with cstate := .pending })
  else .next (s.modChan c fun x => { x with startIgnored := satInc x.startIgnored })

/-- The channel is gated by shedding (R282). -/
def State.gated (s : State) (c : ChanNo) : Bool := s.mem.hiGated && decide (8 ≤ c.val)

/-- STENCIL_BEGIN (R264): one slot is reserved, and the parameter block is read. -/
def execStencilBegin (c : ChanNo) (s : State) : Answer :=
  let x := s.chan c
  if x.cstate != .pending || !(s.ring x.owner x.evtRing).hasCredit || s.gated c || !s.servedNow x.owner || !s.canWrite x.owner then .next s
  else
    let s := s.setChan c
      { x with cstate := .running, ready := false, flag := false, loops := Vector.replicate 4 0, post := 0, pc := 0, wait := none
               tagBegin := x.tag, resv := some x.evtRing, line := none, moved := 0, hit := false }
    done ((s.reserve x.owner x.evtRing).hostRead x.owner x.paramAddr.toNat 128 none (some c.val))

/-- Pointer k and stride k of a parameter block (R265). -/
def paramPtr (bytes : List Byte) (k : Nat) : Word := BitVec.ofNat 64 (numAt bytes (8 * k) 8)
def paramStride (bytes : List Byte) (k : Nat) : BitVec 32 := BitVec.ofNat 32 (numAt bytes (64 + 4 * k) 4)

/-- A pointer's space (R265): 1 host memory, 2 hawk. -/
def ptrSpace (w : Word) : Nat := fld w 63 62

/-- The region that a hawk pointer names. -/
def State.ptrRegion (s : State) (i : InstNo) (w : Word) : Option Region :=
  (kget (s.inst i).regions (fld w 57 48)).bind fun r => if r.valid then some r else none

/-- A pointer of a parameter block is well formed (R265). -/
def State.ptrOk (s : State) (i : InstNo) (w : Word) : Bool :=
  match ptrSpace w with
  | 2 => fld w 61 58 == 0 && fld w 47 32 == 0 && (s.ptrRegion i w).isSome
  | 3 => false
  | _ => true

/-- PARAM_BLOCK_READ_DONE (R265): the block is checked, and execution starts at word 0. -/
def execParamBlockReadDone (c : ChanNo) (bytes : List Byte) (s : State) : Answer :=
  let x := s.chan c
  if (x.cstate != .running && x.cstate != .paused) || x.ready || bytes.length != 128 || !s.runs then .next s
  else if !allZero (bytes.drop 96) || !((List.range 8).all fun k => s.ptrOk x.owner (paramPtr bytes k)) then done (s.faultChan c fParam)
  else
    .next (s.setChan c
      { x with ready := true, ptrs := Vector.ofFn fun k => paramPtr bytes k, strides := Vector.ofFn fun k => paramStride bytes k })

/-! ### Stops and registers (R262, R277, R281) -/

/-- STENCIL_STOP (R281). -/
def execStencilStop (i : InstNo) (c : ChanNo) (s : State) : Answer :=
  let s := s.written i
  if !s.nativeRegs i || (s.chan c).owner != i then .next s else done (s.stopChan c kStoppedOwner)

/-- STENCIL_MANAGER_STOP (R281). -/
def execStencilManagerStop (c : ChanNo) (s : State) : Answer :=
  if s.nativeRegs 0 then done ((s.written 0).stopChan c kStoppedManager) else .next s

/-- A channel passes to an owner (R262): its settings take their reset values. -/
def Chan.giveTo (x : Chan) (i : InstNo) : Chan :=
  if x.owner = i then x
  else { x with owner := i, progWords := 0, vecEn := false, vector := 0, evtRing := 0, progAddr := 0, store := false, paramAddr := 0
                tag := 0, count := 0, tagBegin := 0 }

/-- STN_OWNER_WRITE (R262, R281, R287): the owner of an IDLE channel; `stop` in the same word stops one that is not. -/
def execStnOwnerWrite (c : ChanNo) (w : Word) (s : State) : Answer :=
  if !s.nativeRegs 0 then .next s
  else
    let s := s.written 0
    if (s.chan c).cstate == .idle then .next (s.modChan c (·.giveTo ⟨fld w 5 0 % 64, by omega⟩))
    else if bitOf w 8 then done (s.stopChan c kStoppedManager)
    else .next s

/-- STN_COUNT_WRITE (R277, R286); `decs` decrements of the same cycle, which come after it, are discarded. -/
def execStnCountWrite (i : InstNo) (c : ChanNo) (o : CountWrite) (s : State) : Answer :=
  let s := s.written i
  if !s.nativeRegs i || (s.chan c).owner != i then .next s
  else .next (s.modChan c fun x => { x with count := o.word.setWidth 32, discard := o.decs })

/-! ### Fetch (R267, R276, R280) -/

/-- The channel executes: begun, its parameter block checked, not paused (R263, R282). -/
def State.chanRuns (s : State) (c : ChanNo) : Bool := s.runs && (s.chan c).cstate == .running && (s.chan c).ready

/-- A word index lies in the program (R280). -/
def Chan.inProgram (x : Chan) (n : Int) : Bool := decide (0 ≤ n) && decide (n < x.progWords.toNat)

/-- The instruction at `pc` can be fetched (R280). -/
def State.pcOk (s : State) (x : Chan) : Bool :=
  x.inProgram x.pc.toNat && (!x.store || decide (x.progAddr.toNat + 8 * x.pc.toNat + 8 ≤ 1024 * (s.inst x.owner).stSize))

/-- Host address of the instruction at `pc`. -/
def Chan.at' (x : Chan) : Nat := x.progAddr.toNat + 8 * x.pc.toNat

/-- The line of a host program that holds the instruction at `pc` is to be read (R276): it was entered from another line or by a taken
branch. -/
def Chan.entersLine (x : Chan) : Bool := !x.store && x.line != some (x.at' / 64)

/-- The word at `pc`: from the stencil store, from the line read last, or from the line that the host's read gives now (R276) (DEDUCED,
log 53). -/
def State.progWord (s : State) (x : Chan) (line : List Byte) : Word :=
  if x.store then BitVec.ofNat 64 (leNat (s.storeRead (1024 * (s.inst x.owner).stBase + x.at') 8))
  else BitVec.ofNat 64 (numAt (if x.entersLine then line else x.lineData) (x.at' % 64) 8)

/-- The line of a host program is read when it is entered, and kept (R276). -/
def State.lineRead (s : State) (c : ChanNo) (line : List Byte) : State :=
  let x := s.chan c
  if x.entersLine then
    (s.hostRead x.owner (64 * (x.at' / 64)) 64 none (some c.val)).modChan c fun x =>
      { x with line := some (x.at' / 64), lineData := line }
  else s

/-- Ranges of reserved bits of each instruction (R268 to R274). -/
def stnReserved : Nat → List (Nat × Nat)
  | 1 => [(39, 14)]
  | 3 => [(23, 17)]
  | 4 => [(63, 48), (7, 6)]
  | 5 => [(7, 6)]
  | 6 => [(63, 48), (31, 24)]
  | 7 => [(63, 48), (31, 7)]
  | 8 => [(63, 48), (31, 5)]
  | _ => []

/-- Reserved codes, and fields that are reserved in a form of the instruction (R267 to R274) (DEDUCED, log 45). -/
def stnCodeBad (w : Word) : Bool :=
  match fld w 3 0 with
  | 1 => fld w 13 12 == 3 || fld w 11 10 == 3
  | 2 => fld w 8 7 == 3
  | 3 => fld w 15 14 == 3 || fld w 13 12 == 3 || fld w 11 10 == 3 || (fld w 15 14 == 0 && fld w 63 48 != 0)
  | 5 =>
    match fld w 5 4 with
    | 0 => fld w 39 24 != 0
    | 1 => fld w 39 24 != 0 || fld w 23 20 != 0
    | 2 => fld w 23 12 != 0
    | _ => true
  | 6 => (!bitOf w 6 && fld w 23 20 != 0) || (!bitOf w 4 && fld w 19 8 != 0)
  | 7 => fld w 5 4 == 3
  | _ => false

/-- What an instruction comes to. -/
inductive Did where
  /-- It completed, with the next word index. -/
  | to (s : State) (pc : Nat) (taken : Bool)
  /-- It ends with a fault. -/
  | bad (s : State) (code : Nat)
  /-- It left the sequence: WAIT began, or END ended the program. -/
  | left (s : State)
  /-- It cannot act yet: its data is not there, or the function cannot write (R125). -/
  | notYet
  deriving DecidableEq, Repr

/-- The channel executes the instruction at its `pc` when that is the one of the row (R267, R275, R280). -/
def stencilStep (c : ChanNo) (op : Nat) (line : List Byte) (s : State) (body : State → Word → Did) : Answer :=
  let x := s.chan c
  if !s.chanRuns c then .next s
  else if !s.pcOk x then done ((s.countInstr c).faultChan c fPcRange)
  else if x.entersLine && line.length != 64 then .next s
  else
    let w := s.progWord x line
    let o := fld w 3 0
    let t := s.lineRead c line
    if o = 0 || 8 < o then done ((t.countInstr c).faultChan c fBadOpcode)
    else if o != op then .next s
    else if (stnReserved o).any (fun r => fld w r.1 r.2 != 0) || stnCodeBad w then done ((t.countInstr c).faultChan c fReservedSet)
    else match body t w with
      | .to t pc taken =>
        done ((t.countInstr c).modChan c fun x =>
          { x with pc := BitVec.ofNat 16 pc, line := if taken then none else x.line, moved := 0, hit := false })
      | .bad t code => done ((t.countInstr c).faultChan c code)
      | .left t => done t
      | .notYet => .next s

/-! ### Pointers and areas (R265, R266, R268) -/

/-- Pointer k of a channel. -/
def Chan.ptr (x : Chan) (k : Nat) : Word := vget x.ptrs ⟨k % 8, by omega⟩

/-- An access of `len` bytes through pointer `k` faults (R280). -/
def State.accessFault (s : State) (x : Chan) (k len : Nat) : Option Nat :=
  let w := x.ptr k
  match ptrSpace w with
  | 1 => none
  | 2 => match s.ptrRegion x.owner w with
    | some r => if fld w 31 0 + len ≤ 512 * r.units then none else some fOutsideRegion
    | none => some fOutsideRegion
  | _ => some fBadPointer

/-- Pointer `k` names hawk. -/
def Chan.inHawk (x : Chan) (k : Nat) : Bool := ptrSpace (x.ptr k) == 2

/-- Private hawk offset, or host address, of pointer `k` (DEDUCED, log 47). -/
def State.areaAt (s : State) (x : Chan) (k : Nat) : Nat :=
  let w := x.ptr k
  if x.inHawk k then 512 * ((s.ptrRegion x.owner w).map (·.base)).getD 0 + fld w 31 0 else fld w 61 0

/-- An increment of pointer `k` (R265, R267). -/
def Chan.advance (x : Chan) (k code len : Nat) : Chan :=
  let k : Fin 8 := ⟨k % 8, by omega⟩
  let w := vget x.ptrs k
  let step : Int := match code with
    | 1 => len
    | 2 => (vget x.strides k).toInt
    | _ => 0
  let n := if ptrSpace w = 2 then 32 else 62
  let low := ((fld w (n - 1) 0 : Int) + step) % (2 ^ n : Int)
  { x with ptrs := vset x.ptrs k (BitVec.ofNat 64 ((w.toNat >>> n) * 2 ^ n + low.toNat)) }

/-- `len` bytes of an area from offset `off` read: hawk bytes, or those that the host returned. -/
def State.areaBytes (s : State) (x : Chan) (k off len : Nat) (host : List Byte) : List Byte :=
  if x.inHawk k then s.hawkRead x.owner (s.areaAt x k + off) len else host

/-- The data of an area is there: in the hawk, or as the host has returned it. -/
def Chan.dataHere (x : Chan) (k len : Nat) (host : List Byte) : Bool := x.inHawk k || host.length == len

/-- The read of part of an area, in bursts of at most 512 bytes (R275), recorded and counted. -/
def State.areaRead (s : State) (c : ChanNo) (k off len : Nat) : State :=
  let x := s.chan c
  let a := s.areaAt x k + off
  if x.inHawk k then s.countHawk x.owner a len none (some c.val)
  else s.each (List.range ((len + 511) / 512)) fun s j =>
    s.hostRead x.owner (a + 512 * j) (min 512 (len - 512 * j)) none (some c.val)

/-- What a step of an instruction of `len` bytes carries out: at most `bursts` bursts of 512 bytes, after those carried out before
(R275). -/
def Chan.part (x : Chan) (len bursts : Nat) : Nat := min (len - x.moved) (512 * bursts)

/-- Bytes written to an area at a distance from its start, host writes in bursts of at most 512 bytes (R275). -/
def State.areaWrite (s : State) (c : ChanNo) (k off : Nat) (bs : List Byte) : State :=
  let x := s.chan c
  let a := s.areaAt x k + off
  if bs.isEmpty then s
  else if x.inHawk k then (s.hawkWrite x.owner a bs).countHawk x.owner a bs.length none (some c.val)
  else
    s.each (List.range ((bs.length + 511) / 512)) fun s j =>
      s.hostWriteBy x.owner (a + 512 * j) (bytesAt bs (512 * j) 512) none (some c.val)

/-- The bytes of a step's read, from offset `off`, that were carried out before the burst that met an uncorrectable word (R280) (DEDUCED,
log 49). -/
def State.beforeUe (s : State) (x : Chan) (k off : Nat) (ecc : Ecc) : Nat :=
  match ecc with
  | .uncorrectable a => match s.hawkPrivate x.owner a.toNat with
    | some o => (o - s.areaAt x k) / 512 * 512 - off
    | none => 0
  | _ => 0

/-- Two areas of one space overlap (R268) (DESIGN CHOICE, log 50). -/
def State.overlap (s : State) (x : Chan) (k j len : Nat) : Bool :=
  x.inHawk k == x.inHawk j && decide (s.areaAt x k < s.areaAt x j + len) && decide (s.areaAt x j < s.areaAt x k + len)

/-- Each byte of an overlapping MOVE holds the old or the copied value: which, is free (R268). -/
def State.overlapWrite (s : State) (c : ChanNo) (k off : Nat) (bs : List Byte) : State :=
  s.each bs.zipIdx fun s b => (if s.freeNat % 2 = 0 then s else s.areaWrite c k (off + b.2) [b.1]).takeFree

/-! ### The instructions -/

/-- The word after `pc`. -/
def Chan.following (x : Chan) : Nat := x.pc.toNat + 1

/-- A step of an instruction of `len` bytes is carried out: the instruction goes on with its next burst, or completes (R275). -/
def State.burstDone (s : State) (c : ChanNo) (off len : Nat) (f : Chan → Chan) : Did :=
  if len ≤ off then .to (s.modChan c f) (s.chan c).following false else .left (s.modChan c fun x => { x with moved := off })

/-- STENCIL_MOVE (R268, R275, R280) (DESIGN CHOICE, log 46): at most `bursts` further bursts of it. -/
def execStencilMove (c : ChanNo) (row : StnRow) (src : List Byte) (ecc : Ecc) (s : State) : Answer :=
  stencilStep c 1 row.line s fun s w =>
    let x := s.chan c
    let len := fld w 63 40
    let ps := fld w 9 7
    let pd := fld w 6 4
    let off := x.moved
    let n := x.part len row.bursts
    match s.accessFault x ps len, s.accessFault x pd len with
    | some f, _ => .bad s f
    | none, some f => .bad s f
    | none, none =>
      if !x.dataHere ps n src || (!x.inHawk pd && !s.canWrite x.owner) then .notYet
      else
        let bs := s.areaBytes x ps off n src
        let hawkEcc := if x.inHawk ps then ecc else .ok
        let s := (s.areaRead c ps off n).noteEccBy (some x.owner) hawkEcc none (some c.val)
        if eccBad hawkEcc then .bad (s.areaWrite c pd off (bs.take (s.beforeUe x ps off ecc))) fHawkUe
        else
          let s := if s.overlap x ps pd len then s.overlapWrite c pd off bs else s.areaWrite c pd off bs
          s.burstDone c (off + n) len fun x => (x.advance ps (fld w 13 12) len).advance pd (fld w 11 10) len

/-- The bytes that a FILL writes (R269). -/
def fillBytes (w : Word) : List Byte :=
  (List.replicate (fld w 31 11) (leBytes (2 ^ fld w 10 9) (fld w 63 32))).flatten

/-- STENCIL_FILL (R269, R275): at most `bursts` further bursts of it. -/
def execStencilFill (c : ChanNo) (row : StnRow) (s : State) : Answer :=
  stencilStep c 2 row.line s fun s w =>
    let x := s.chan c
    let len := fld w 31 11 * 2 ^ fld w 10 9
    let pd := fld w 6 4
    let off := x.moved
    let n := x.part len row.bursts
    match s.accessFault x pd len with
    | some f => .bad s f
    | none =>
      if !x.inHawk pd && !s.canWrite x.owner then .notYet
      else (s.areaWrite c pd off (bytesAt (fillBytes w) off n)).burstDone c (off + n) len (·.advance pd (fld w 8 7) len)

/-- Unsigned elements of `k` bytes. -/
def elements (k : Nat) : (n : Nat) → List Byte → List Nat
  | 0, _ => []
  | n + 1, l => leNat (l.take k) :: elements k n (l.drop k)

/-- The result of a CMP (R270). -/
def differs (mode tol : Nat) (a b : List Byte) : Bool :=
  match mode with
  | 0 => a != b
  | m =>
    let k := 2 * m
    let n := a.length / k
    ((elements k n a).zip (elements k n b)).any fun (u, v) => decide (tol < max u v - min u v)

/-- STENCIL_CMP (R270, R275, R280): at most `bursts` further bursts of it; the flag is set at its end. -/
def execStencilCmp (c : ChanNo) (row : StnRow) (a b : List Byte) (ecc : Ecc) (s : State) : Answer :=
  stencilStep c 3 row.line s fun s w =>
    let x := s.chan c
    let len := fld w 47 24
    let pa := fld w 6 4
    let pb := fld w 9 7
    let mode := fld w 15 14
    let off := x.moved
    let n := x.part len row.bursts
    if mode != 0 && len % (2 * mode) != 0 then .bad s fLength
    else match s.accessFault x pa len, s.accessFault x pb len with
      | some f, _ => .bad s f
      | none, some f => .bad s f
      | none, none =>
        if !x.dataHere pa n a || !x.dataHere pb n b then .notYet
        else
          let hawkEcc := if x.inHawk pa || x.inHawk pb then ecc else .ok
          let t := ((s.areaRead c pa off n).areaRead c pb off n).noteEccBy (some x.owner) hawkEcc none (some c.val)
          if eccBad hawkEcc then .bad t fHawkUe
          else
            let hit := x.hit || differs mode (fld w 63 48) (s.areaBytes x pa off n a) (s.areaBytes x pb off n b)
            (t.modChan c fun x => { x with hit := hit }).burstDone c (off + n) len fun x =>
              let x := (x.advance pa (fld w 11 10) len).advance pb (fld w 13 12) len
              { x with flag := hit || (bitOf w 16 && x.flag) }

/-- A displacement from the instruction that holds it (R267). -/
def Chan.target (x : Chan) (w : Word) : Int := x.pc.toNat + (BitVec.ofNat 16 (fld w 47 32)).toInt

/-- STENCIL_LOOP (R271). With a `count` of 0 the counter's value after the decrement is not stated, and is free. -/
def execStencilLoop (c : ChanNo) (line : List Byte) (s : State) : Answer :=
  stencilStep c 4 line s fun s w =>
    let x := s.chan c
    let lc : Fin 4 := ⟨fld w 5 4 % 4, by omega⟩
    let old := vget x.loops lc
    let open' : Bool := old == 0 && fld w 31 8 == 0
    let n : BitVec 24 := if open' then BitVec.ofNat 24 s.freeNat
      else if old = 0 then BitVec.ofNat 24 (fld w 31 8) - 1 else old - 1
    let s := if open' then s.takeFree else s
    if n != 0 && !x.inProgram (x.target w) then .bad s fPcRange
    else
      let s := s.modChan c fun x => { x with loops := vset x.loops lc n }
      if n = 0 then .to s x.following false else .to s (x.target w).toNat true

/-- The gate is held by the channel's owner (R266). -/
def State.holdsGate (s : State) (i : InstNo) (g : Nat) : Bool := ((kget s.disp.gates g).map (·.owner == i)).getD false

/-- The gate was cancelled in the cycle in which a SIGNAL decrements it (R302). -/
def State.absorbs (s : State) (g : Nat) : Bool := s.disp.absorb.contains g

/-- STENCIL_WAIT (R272). A TICK of 0 names no tick, so the number of ticks is free. -/
def execStencilWait (c : ChanNo) (line : List Byte) (s : State) : Answer :=
  stencilStep c 5 line s fun s w =>
    let x := s.chan c
    let begin' (s : State) (o : WaitOn) : Did :=
      .left (s.modChan c fun x => { x with cstate := .waiting, wait := some o, timeout := BitVec.ofNat 24 (fld w 63 40) })
    match fld w 5 4 with
    | 0 =>
      if fld w 23 8 = 0 then begin' s.takeFree (.tick (s.freeNat % 65536)) else begin' s (.tick (fld w 23 8))
    | 1 => if s.holdsGate x.owner (fld w 19 8) then begin' s (.gate (fld w 19 8)) else .bad s fGateInvalid
    | _ =>
      let d : ChanNo := ⟨fld w 11 8 % 16, by omega⟩
      if (s.chan d).owner = x.owner then begin' s (.chan d (BitVec.ofNat 16 (fld w 39 24))) else .bad s fChanForeign

/-- The condition of a WAIT holds (R272). -/
def State.waitHolds (s : State) (i : InstNo) (o : WaitOn) : Bool :=
  match o with
  | .tick n => n == 0
  | .gate g => match kget s.disp.gates g with
    | some x => x.owner == i && x.count == 0
    | none => false
  | .chan d v => decide (((s.chan d).post - v).toNat < 2 ^ 15)

/-- A WAIT ends, and the channel goes on after it with the flag as given. -/
def State.endWait (s : State) (c : ChanNo) (flag : Bool) : State :=
  (s.countInstr c).modChan c fun x =>
    { x with cstate := if x.cstate == .waiting then .running else x.cstate, wait := none, flag := flag, pc := x.pc + 1 }

/-- STENCIL_WAIT_SATISFIED (R272). -/
def execStencilWaitSatisfied (c : ChanNo) (s : State) : Answer :=
  let x := s.chan c
  match x.wait with
  | some o => if s.runs && x.cstate == .waiting && s.waitHolds x.owner o then done (s.endWait c false) else .next s
  | none => .next s

/-- STENCIL_WAIT_TIMEOUT (R272): the flag is set, unless the condition has come to hold first. -/
def execStencilWaitTimeout (c : ChanNo) (s : State) : Answer :=
  let x := s.chan c
  if s.runs && x.cstate == .waiting && x.timeout != 0 then
    done (s.endWait c !((x.wait.map (s.waitHolds x.owner)).getD false))
  else .next s

/-- A decrement of a channel's count register (R277): one of the cycle of a write to it is discarded. -/
def State.countDown (s : State) (d : ChanNo) : State :=
  let x := s.chan d
  if x.discard != 0 then s.modChan d fun x => { x with discard := x.discard - 1 }
  else if x.count = 0 then s
  else
    let s := s.modChan d fun x => { x with count := x.count - 1 }
    if x.count = 1 && (s.ring x.owner x.evtRing).enable then s.raise d kCountZero 0 else s

/-- STENCIL_SIGNAL (R273, R275): every action in one cycle (DEDUCED, log 48). -/
def execStencilSignal (c : ChanNo) (line : List Byte) (s : State) : Answer :=
  stencilStep c 6 line s fun s w =>
    let x := s.chan c
    let d : ChanNo := ⟨fld w 23 20 % 16, by omega⟩
    if bitOf w 4 && !s.holdsGate x.owner (fld w 19 8) && !s.absorbs (fld w 19 8) then .bad s fGateInvalid
    else if bitOf w 6 && (s.chan d).owner != x.owner then .bad s fChanForeign
    else
      let s := if bitOf w 7 then s.modChan c fun x => { x with post := x.post + 1 } else s
      let s := if bitOf w 6 then s.countDown d else s
      let s := if bitOf w 5 then s.raise c kSignal (fld w 47 32) else s
      let s := if bitOf w 4 then s.gateDec x.owner (fld w 19 8) (some c.val) else s
      .to s x.following false

/-- STENCIL_JUMP (R274). -/
def execStencilJump (c : ChanNo) (line : List Byte) (s : State) : Answer :=
  stencilStep c 7 line s fun s w =>
    let x := s.chan c
    let taken : Bool := match fld w 5 4 with
      | 0 => true
      | 1 => x.flag
      | _ => !x.flag
    if !taken then .to s x.following false
    else if !x.inProgram (x.target w) then .bad s fPcRange
    else .to (s.modChan c fun x => { x with flag := x.flag && !bitOf w 6 }) (x.target w).toNat true

/-- STENCIL_END (R274, R278): END is posted unless `quiet`, which releases the slot. -/
def execStencilEnd (c : ChanNo) (line : List Byte) (s : State) : Answer :=
  stencilStep c 8 line s fun s w =>
    let s := s.countInstr c
    let x := s.chan c
    if bitOf w 4 then
      let s := s.setChan c x.idle
      .left (match x.resv with
        | some e => s.unreserve x.owner e
        | none => s)
    else .left (s.endChan c kEnd (fld w 47 32) 0)

/-- Gate `g` is freed: a channel that awaits it faults (R272, R301, R302) (DEDUCED, log 52), but goes on where its count was zero before
(`zero`), so that the WAIT's condition already held. -/
def State.gateGone (s : State) (g : Nat) (zero : Bool) : State :=
  s.each allChans fun s c =>
    if (s.chan c).wait == some (.gate g) then (if zero then s.endWait c false else (s.countInstr c).faultChan c fGateInvalid) else s

/-- The samples still being placed are written, and what a cycle's write left over for its own cycle goes (R346 to R348). -/
def State.settleCtrs (s : State) : State :=
  let s := s.modCnt fun c =>
    { c with sample := c.sample.settled true, ctrs := c.ctrs.map fun (x : Counter) => { x with discard := 0 } }
  s.each allInsts fun s i =>
    let n := s.inst i
    if n.sample.placing.isNone && !n.ctrs.toList.any (·.discard != 0) then s
    else s.modInst i fun n =>
      { n with sample := n.sample.settled false, ctrs := n.ctrs.map fun (x : Counter) => { x with discard := 0 } }

/-- What a lath cycle's write or cancel leaves over for its own cycle does not outlast the subframe (R277, R302, R346). -/
def State.cycleEnds (s : State) : State :=
  let s := s.settleCtrs.modDisp fun d => { d with absorb := [] }
  s.each allChans fun s c => if (s.chan c).discard = 0 then s else s.modChan c fun x => { x with discard := 0 }

/-- A tick reaches every WAIT TICK (R272) (DEDUCED, log 51). -/
def State.tickWaits (s : State) : State :=
  s.each allChans fun s c =>
    match (s.chan c).wait with
    | some (.tick n) => if (s.chan c).cstate == .waiting then s.modChan c fun x => { x with wait := some (.tick (n - 1)) } else s
    | _ => s

end Sys2Proof.Machine
end

