-- ==== Sys2Proof/Machine/Shares.lean ====
section
/-!
DEFINITION. Stencils, gates, commits and counter grants (R144, R145), and the manager's shares (R146 to R148, R316, R317).
-/
namespace Sys2Proof.Machine

/-! ### STENCIL_LOAD (R145, R283) -/

/-- The bytes of the stencil store that a channel not IDLE executes from (R283). -/
def State.progRange (s : State) (c : ChanNo) : Option (Nat × Nat) :=
  let x := s.chan c
  if x.store && x.cstate != .idle then
    let lo := 1024 * (s.inst x.owner).stBase + x.progAddr.toNat
    some (lo, lo + 8 * x.progWords.toNat)
  else none

/-- STENCIL_LOAD (R145): the words are read from host memory (DEDUCED, log 25). -/
def execStencilLoad (i : InstNo) (slot : BitVec 16) (s : State) : Answer :=
  carryOut i slot 0x30 anyForm s fun e =>
    let off := fld e 79 64
    let len := 8 * fld e 95 80
    let n := s.inst i
    let lo := 1024 * n.stBase + off
    if len = 0 || off % 8 != 0 || 1024 * n.stSize < off + len then .ends s .paramInvalid 0
    else if allChans.any fun c => match s.progRange c with
        | some (a, b) => decide (a < lo + len) && decide (lo < b)
        | none => false then .ends s .busy 0
    else .waits (s.hostRead i (fld e 191 128) len none none)

/-! ### Gates (R145, R291, R299 to R301) -/

/-- Gates that an instance holds, COUNTING or ZERO (R316). -/
def State.gatesHeld (s : State) (i : InstNo) : Nat := (s.disp.gates.filter fun g => g.2.owner == i).length

/-- GATE_CREATE (R145, R289, R291, R299). -/
def execGateCreate (i : InstNo) (slot : BitVec 16) (s : State) : Answer :=
  carryOut i slot 0x31 anyForm s fun e =>
    let count := fld e 79 64
    let task := bitOf e 80
    let g : GroupNo := ⟨fld e 84 81 % 16, by omega⟩
    if count = 0 || (task && (s.group g).owner != i) then .ends s .paramInvalid 0
    else if (s.inst i).gateQuota ≤ s.gatesHeld i || (task && !s.itemRoom i) then .ends s .noResources 0
    else match kfree s.disp.gates 4096 with
      | none => .ends s .noResources 0
      | some k =>
        let flow := BitVec.ofNat 20 (fld e 104 85)
        let tag := BitVec.ofNat 64 (fld e 191 128)
        let t : Option Task := if task then some ⟨g, flow, tag, s.freeItem⟩ else none
        let s := if task then
            s.reserveItem { owner := i, group := g, flow := flow, src := 2, tag := tag, bytes := 0, status := 0, ringIndex := 0
                            ep := 0, gate := BitVec.ofNat 12 k, st := .reserved, stamp := 0, ready := 0, seq := 0 }
          else s
        .ends (s.modDisp fun d => { d with absorb := d.absorb.filter (· != k), gates := kset d.gates k ⟨i, BitVec.ofNat 16 count, t⟩ }) .cmdOk k

/-- The task item of a gate, while it is in the store. -/
def State.taskItem (s : State) (g : Nat) (x : Gate) : Option (Nat × Item) :=
  x.task.bind fun t => (kget s.disp.items t.item).bind fun a =>
    if a.src = 2 && a.gate.toNat = g && a.owner = x.owner then some (t.item, a) else none

/-- GATE_CANCEL (R145, R197, R301): the gate is freed, and its task and an armed commit are withdrawn as their state lets them. Where the
`decs` decrements of the same cycle, which come after it, would bring the gate to zero, the cancel prevails (R302). -/
def execGateCancel (i : InstNo) (o : CancelSlot) (s : State) : Answer :=
  carryOut i o.slot 0x32 anyForm s fun e =>
    let g := fld e 75 64
    match kget s.disp.gates g with
    | none => .ends s .paramInvalid 0
    | some x =>
      if x.owner != i then .ends s .paramInvalid 0
      else
        let t := s.taskItem g x
        let served : Bool := match t with
          | some (_, a) => (match a.st with | .inService _ => true | _ => false)
          | none => x.task.isSome
        let zeroed : Bool := x.count != 0 && decide (x.count.toNat ≤ o.decs)
        let s := s.trace { kind := 0x07, detail := if zeroed then 2 else b2n served, gate := g, inst := i.val }
        let s := match t with
          | some (k, _) => if served then s else s.withdrawItem k
          | none => s
        let s := s.modDisp fun d => { d with gates := kdel d.gates g, absorb := List.replicate o.decs g ++ d.absorb.filter (· != g) }
        let s := s.gateGone g (x.count == 0)
        let s := s.each (s.commits.filter fun c => c.2.gate == g && c.2.phase == .armed) fun s c => s.endCommit c.1 c.2 .cancelled
        .ends s .cmdOk (b2n served)

/-! ### COMMIT_ARM (R145, R189 to R191) -/

/-- The release subframe of a COMMIT_ARM: the first frame at or after the current one whose bits [31:0] are `frame`; with the frames
that it lies ahead. -/
def State.release (s : State) (e : CEntry) : Nat × Nat :=
  let ahead := (fld e 95 64 + 2 ^ 32 - s.frame % 2 ^ 32) % 2 ^ 32
  (8 * (s.frame + ahead) + fld e 98 96, ahead)

/-- The cut-off of a subframe has passed (R163). -/
def State.cutPassed (s : State) (n : Nat) : Bool := decide (n ≤ s.pl.subN) || (n == s.pl.subN + 1 && s.pl.cutDone)

/-- `evt_ring` of a COMMIT_ARM. -/
def armRing (e : CEntry) : RingNo := ⟨fld e 113 111 % 8, by omega⟩

/-- The command's own parameters, its gate and its ring are suitable (R145). -/
def State.armOk (s : State) (i : InstNo) (e : CEntry) : Bool :=
  let (n, ahead) := s.release e
  decide (1 ≤ fld e 205 192) && decide (ahead ≤ 65536) && !s.cutPassed n && s.holdsGate i (fld e 110 99) && (s.ring i (armRing e)).enable

/-- A slot-list entry (R190): endpoint index, region and offset. -/
structure ListEntry where
  ep : Nat
  region : Nat
  off : Nat
  word : Nat
  deriving DecidableEq, Repr

/-- The entries of a slot list. -/
def slotList (data : List Byte) (count : Nat) : List ListEntry :=
  (List.range count).map fun j =>
    let w := numAt data (8 * j) 8
    ⟨w % 2 ^ 17, w / 2 ^ 17 % 2 ^ 10, w / 2 ^ 32, w⟩

/-- The code of a malformed list entry (R190); a slot of an endpoint that is not open has no stated size and is taken as one byte
(DEDUCED, log 41). -/
def State.listBad (s : State) (i : InstNo) (x : ListEntry) : Option Nat :=
  let mb := ((s.epOf i x.ep).map (·.2.maxBlock)).getD 1
  if x.word / 2 ^ 27 % 32 != 0 then some mReservedSet
  else if x.off % 8 != 0 then some mMisaligned
  else match kget (s.inst i).regions x.region with
    | some r => if r.valid && decide (x.off + mb ≤ 512 * r.units) then none else some mOutsideHawk
    | none => some mOutsideHawk

/-- The listed endpoint is suitable for a release in subframe `n` (R189): due by the schedule that holds then. -/
def State.suits (s : State) (i : InstNo) (n : Nat) (x : ListEntry) : Bool :=
  match s.epOf i x.ep with
  | some (_, e) =>
    let (v, q) := if 8 * (s.frame + 1) < n then e.newSched.getD (e.interval, e.phase) else (e.interval, e.phase)
    e.kind == .periodic && !e.inward &&
    match s.epPort e with
    | some p => dueAt (s.port p).reckon v q n
    | none => false
  | none => false

/-- The commit's number of a slot's endpoint, as `commit_ref` holds it (R191). -/
def commitRefOf (n addr : Nat) : BitVec 32 := BitVec.ofNat 32 (2 ^ 31 + n * 2 ^ 23 + addr / 8)

/-- The listed endpoints are checked and bound, and one event slot is reserved (R145). -/
def State.bindCommit (s : State) (i : InstNo) (e : CEntry) (data : List Byte) : State × Status × Nat :=
  let l := slotList data (fld e 205 192)
  let (n, _) := s.release e
  let ring := armRing e
  let k (x : ListEntry) : Nat := (s.inst i).epBase + x.ep
  if !s.armOk i e || !(l.all (s.suits i n)) || !(l.map (·.ep)).Nodup then (s, .paramInvalid, 0)
  else if l.any fun x => s.armedOn (k x) then (s, .conflict, 0)
  else if 256 ≤ (s.commits.filter fun c => c.2.phase == .armed).length || !(s.ring i ring).hasCredit then (s, .noResources, 0)
  else match kfree s.commits 256 with
    | none => (s, .noResources, 0)
    | some num =>
      let addr (x : ListEntry) : Nat := 512 * ((kget (s.inst i).regions x.region).map (·.base)).getD 0 + x.off
      let c : Commit :=
        { inst := i, gate := fld e 110 99, ring := ring, subN := n
          slots := l.map fun x => ⟨k x, addr x, false, false, none⟩, phase := .armed }
      let s := s.each l fun s x => s.modEp (k x) fun y => { y with commitRef := commitRefOf num (addr x) }
      (({ s with commits := kset s.commits num c }).reserve i ring, .cmdOk, num)

/-- A COMMIT_ARM that has read its list binds and completes, unless an earlier command names a listed endpoint (R149). -/
def State.armOn (s : State) (i : InstNo) (c : Cmd) : Option State :=
  match c.phase with
  | .read data =>
    if ceOp c.entry == 0x33 && s.runs && !(s.inst i).halted && s.clear i c then
      let (t, st, num) := s.bindCommit i c.entry data
      some (t.finish i c.slot st num)
    else none
  | _ => none

/-- COMMIT_ARM (R145, R149): its own parameters are checked and the slot list is read; with the list read, it binds. -/
def execCommitArm (i : InstNo) (slot : BitVec 16) (s : State) : Answer :=
  match (s.cmd i slot).bind (s.armOn i) with
  | some t => done t
  | none =>
    carryOut i slot 0x33 anyForm s fun e =>
      if !s.armOk i e then .ends s .paramInvalid 0
      else .waits (s.hostRead i (fld e 191 128) (8 * fld e 205 192) none none)

/-! ### COUNTER_GRANT (R350) -/

/-- COUNTER_GRANT_MANAGER (R145, R147, R350): `allowed` of an instance; a bit taken away goes from `user_read` too (DEDUCED, log 43). -/
def execCounterGrantManager (i : InstNo) (slot : BitVec 16) (s : State) : Answer :=
  if i != 0 then .next s
  else
    carryOut i slot 0x34 anyForm s fun e =>
      match s.instOf (fld e 69 64) with
      | none => .ends s .paramInvalid 0
      | some j =>
        let m := BitVec.ofNat 4 (fld e 73 70)
        .ends (s.modInst j fun n =>
          if bitOf e 74 then { n with allowed := n.allowed ||| m }
          else { n with allowed := n.allowed &&& ~~~m, userRead := n.userRead &&& ~~~m }) .cmdOk 0

/-- COUNTER_GRANT_TENANT (R145, R350): an instance's own `user_read`, for counters that the manager allows. -/
def execCounterGrantTenant (i : InstNo) (slot : BitVec 16) (s : State) : Answer :=
  carryOut i slot 0x34 (fun e => i != 0 || fld e 69 64 == 0) s fun e =>
    let m := BitVec.ofNat 4 (fld e 73 70)
    let n := s.inst i
    if m &&& ~~~n.allowed != 0 then .ends s .notPermitted 0
    else if fld e 69 64 != 0 then .ends s .paramInvalid 0
    else .ends (s.modInst i fun n => { n with userRead := if bitOf e 74 then n.userRead ||| m else n.userRead &&& ~~~m }) .cmdOk 0

/-! ### Shares (R146 to R148, R226, R316, R317) -/

/-- Ranges that share a number; an empty range shares none. -/
def meetRange (a n b m : Nat) : Bool := n != 0 && m != 0 && decide (a < b + m) && decide (b < a + n)

/-- The open endpoints of an instance, by local index. -/
def State.openOf (s : State) (i : InstNo) : List Nat :=
  (s.eps.filter fun e => e.2.inst == i).map fun e => e.1 - (s.inst i).epBase

/-- Programs of the instance's channels that are not IDLE lie inside a store allotment (R283, R316). -/
def State.progsInside (s : State) (i : InstNo) (base size : Nat) : Bool :=
  allChans.all fun c => (s.chan c).owner != i || match s.progRange c with
    | some (a, b) => decide (1024 * base ≤ a) && decide (b ≤ 1024 * (base + size))
    | none => true

/-- SET_SHARE (R12, R146 to R148, R316, R317): what is beyond a capacity of R12 is NO_RESOURCES (DEDUCED, log 149). -/
def execSetShare (i : InstNo) (slot : BitVec 16) (s : State) : Answer :=
  carryOut i slot 0x40 anyForm s fun e =>
    let weight := fld e 79 70
    let base := fld e 96 80
    let limit := fld e 113 97
    let gates := fld e 125 114
    let flows := fld e 142 128
    let sb := fld e 149 144
    let ss := fld e 156 150
    match s.instOf (fld e 69 64) with
    | none => .ends s .paramInvalid 0
    | some j =>
      let others := allInsts.filter (· != j)
      let n := s.inst j
      let sum (f : Inst → Nat) : Nat := (others.map fun k => f (s.inst k)).sum
      if weight = 0 || 1000 < weight || 131072 < base + limit || 16384 < flows then .ends s .paramInvalid 0
      else if others.any fun k => meetRange base limit (s.inst k).epBase (s.inst k).epLimit ||
          meetRange sb ss (s.inst k).stBase (s.inst k).stSize then .ends s .conflict 0
      else if 4096 < sum (·.gateQuota) + gates || 16384 < sum (·.flowQuota) + flows || 64 < sb + ss then .ends s .noResources 0
      else if (!(s.openOf j).isEmpty && base != n.epBase) || (s.openOf j).any (fun x => decide (limit ≤ x)) ||
          gates < s.gatesHeld j || flows < s.itemsHeld j || !s.progsInside j sb ss then .ends s .shareBelowReserved 0
      else
        let old (a : Nat) : Bool := decide (1024 * n.stBase ≤ a) && decide (a < 1024 * (n.stBase + n.stSize))
        let fresh (a : Nat) : Bool := decide (1024 * sb ≤ a) && decide (a < 1024 * (sb + ss)) && !old a
        let s := s.modMem fun m => { m with store := m.store.filter fun x => !fresh x.1 }
        .ends (s.modInst j fun n =>
          { n with weight := weight, epBase := base, epLimit := limit, gateQuota := gates, flowQuota := flows, stBase := sb, stSize := ss
                   deficit := n.deficit.map fun (d : Int) => if (weight : Int) < d then (weight : Int) else d }) .cmdOk 0

/-- SET_RESERVATION (R148, R172, R175, R316). -/
def execSetReservation (i : InstNo) (slot : BitVec 16) (s : State) : Answer :=
  carryOut i slot 0x41 anyForm s fun e =>
    let p : PortNo := ⟨fld e 74 70 % 32, by omega⟩
    let units := fld e 95 80
    match s.instOf (fld e 69 64) with
    | none => .ends s .paramInvalid 0
    | some j =>
      if (s.port p).converting then .notYet
      else if periodicLimit (s.port p).reckon < ((allInsts.filter (· != j)).map fun k => vget (s.inst k).units p).sum + units then
        .ends s .noResources 0
      else if units < s.bookedPeak j p then .ends s .shareBelowReserved 0
      else .ends (s.modInst j fun n => { n with units := vset n.units p units }) .cmdOk 0

/-- ASSIGN_DEVICE (R97, R148, R252): the owner and the map entry; the manager, the former owner and the new one are told (DEDUCED, log 42)
(DEDUCED, log 105). -/
def execAssignDevice (i : InstNo) (slot : BitVec 16) (s : State) : Answer :=
  carryOut i slot 0x42 anyForm s fun e =>
    let z := fld e 83 72
    let x := fld e 95 84
    match s.instOf (fld e 69 64), (if z = 0 then none else s.dev z) with
    | some j, some d =>
      if (j == 0) != (x == 0) then .ends s .paramInvalid 0
      else if s.eps.any (fun (_, y) => y.zone == z && y.inst == d.owner) || (kget (s.inst j).devMap x).isSome || d.st != .addressed then
        .ends s .conflict 0
      else
        let ix := s.localDev d.owner z
        let s := s.modInst d.owner fun n => { n with devMap := kdel n.devMap ix }
        let s := s.modDev z fun d => { d with owner := j }
        let s := if j = 0 then s else s.modInst j fun n => { n with devMap := kset n.devMap x z }
        let s := if d.owner = 0 then s else (s.postDevice .withdrawn 0 z 0 d.pos).postTenant d.owner .withdrawn ix 0 d.pos
        .ends (if j = 0 then s else (s.postDevice .assigned 0 z 0 d.pos).postTenant j .assigned x 0 d.pos) .cmdOk 0
    | _, _ => .ends s .paramInvalid 0

/-- The carved extent of an instance (R227). -/
def Inst.carved (n : Inst) : Nat := n.regions.foldl (fun a r => if r.2.valid then max a (r.2.base + r.2.units) else a) 0

/-- 1 plus the highest valid descriptor number, or 0. -/
def Inst.highRegion (n : Inst) : Nat := n.regions.foldl (fun a r => if r.2.valid then max a (r.1 + 1) else a) 0

/-- Physical units that no map holds, lowest first (log 17). -/
def State.freeUnits (s : State) : List Nat :=
  let held := allInsts.flatMap fun i => (s.inst i).unitMap
  (List.range 32768).filter fun u => !held.contains u

/-- Physical units zeroed (R226). -/
def State.zeroUnits (s : State) (us : List Nat) : State :=
  s.modMem fun m => { m with hawk := m.hawk.filter fun x => !us.contains (x.1 / 512) }

/-- An instance's hawk quota set (R226): units added at the top read 0, and those removed from the top are zeroed. -/
def State.setQuota (s : State) (i : InstNo) (units regions : Nat) : State :=
  let map := (s.inst i).unitMap
  let s := s.zeroUnits (map.drop units)
  let map := if units ≤ map.length then map.take units else map ++ s.freeUnits.take (units - map.length)
  s.modInst i fun n => { n with unitMap := map, regionQuota := regions, regions := n.regions.filter fun r => decide (r.1 < regions) }

/-- HAWK_QUOTA (R148, R226, R227). -/
def execHawkQuota (i : InstNo) (slot : BitVec 16) (s : State) : Answer :=
  carryOut i slot 0x43 anyForm s fun e =>
    let units := fld e 95 80
    let regions := fld e 106 96
    match s.instOf (fld e 69 64) with
    | none => .ends s .paramInvalid 0
    | some j =>
      let others := allInsts.filter (· != j)
      let sum (f : Inst → Nat) : Nat := (others.map fun k => f (s.inst k)).sum
      if 32768 < units || 1024 < regions then .ends s .paramInvalid 0
      else if 32768 < sum (·.unitMap.length) + units || 1024 < sum (·.regionQuota) + regions then .ends s .noResources 0
      else if units < (s.inst j).carved || regions < (s.inst j).highRegion then .ends s .shareBelowReserved 0
      else .ends (s.setQuota j units regions) .cmdOk 0

end Sys2Proof.Machine
end

