-- ==== Sys2Proof/Machine/Dispatcher.lean ====
section
/-!
DEFINITION. The dispatcher's rows (10): delivery of items to queues (R294, R295), release (R297), its registers (R292, R293, R303, R305,
R307 to R311), and the core statistics (R306).
-/
namespace Sys2Proof.Machine

/-! ### Delivery (R294 to R296) -/

/-- A queue that group `g` delivers to: mapped to it and owned alike (R292, R293) (DEDUCED, log 55). -/
def State.serves (s : State) (g : GroupNo) (q : QueueNo) : Bool :=
  (s.queue q).group == g && (s.queue q).owner == (s.group g).owner && (s.queue q).enable

/-- The queue can take one more item (R294). -/
def State.queueRoom (s : State) (q : QueueNo) : Bool :=
  decide ((s.queue q).depth < (s.queue q).depthMax.toNat) && (s.ring (s.queue q).owner (s.queue q).evtRing).hasCredit

/-- `choose` of R294: weighted least loaded, ties to the lowest number. -/
def State.chooseQueue (s : State) (g : GroupNo) : Option QueueNo :=
  allQueues.foldl (fun best q =>
    if s.serves g q && s.queueRoom q then
      match best with
      | none => some q
      | some b =>
        if ((s.queue q).depth + 1) * (s.queue b).weight.toNat < ((s.queue b).depth + 1) * (s.queue q).weight.toNat then some q
        else some b
    else best) none

/-- `detail` of a STALL record (R304): no queue enabled, every queue full, or no ring credit. -/
def State.stallDetail (s : State) (g : GroupNo) : Nat :=
  let qs := allQueues.filter (s.serves g)
  if qs.isEmpty then 1
  else if qs.all fun q => decide ((s.queue q).depthMax.toNat ≤ (s.queue q).depth) then 2
  else 3

/-- The body of a DISPATCH event (R296). -/
def dispatchEvent (x : Item) (handle queue : Nat) : Event :=
  let done := x.src == 1
  BitVec.ofNat 256 (pack
    ([(0, 8, 0x09), (26, 2, x.src.toNat), (28, 4, x.group.val), (44, 20, x.flow.toNat), (81, 6, queue), (96, 32, x.stamp.toNat),
      (128, 16, handle), (192, 64, x.tag.toNat)] ++
     if done then [(64, 17, x.ep.toNat), (144, 16, x.ringIndex.toNat), (160, 8, x.status.toNat), (168, 24, x.bytes.toNat)]
     else [(32, 12, x.gate.toNat)]))

/-- A stall of group `g` is noted, once per stall period (R294) (DEDUCED, log 57). -/
def State.noteStall (s : State) (g : GroupNo) (k : Nat) (x : Item) : State :=
  if (s.group g).stalled then s
  else (s.trace { s.itemRec k x 0x05 (s.stallDetail g) with queue := 0 }).modGroup g fun y => { y with stalled := true }

/-- Item `k` of group `g` is delivered to queue `q` (R295, R298): later items of its flow wait parked. -/
def State.deliverItem (s : State) (g : GroupNo) (k : Nat) (x : Item) (q : QueueNo) : State :=
  let s := s.modGroup g fun y => { y with fifo := y.fifo.filter (· != k), stalled := false }
  let wait := (s.pl.cycle - x.ready).toNat
  let s := s.modDisp fun d => { d with items := kset d.items k { x with st := .inService q }, lastGroup := g }
  let s := s.modQueue q fun y => { y with depth := y.depth + 1, accN := y.accN + 1, accWait := y.accWait + wait }
  let s := s.trace { s.itemRec k x 0x03 (s.queue q).depth with queue := q.val }
  let y := s.queue q
  let s := s.reserve x.owner y.evtRing
  let s := s.postVec x.owner y.evtRing (dispatchEvent x (s.handle k) q.val) false (if y.vecEn then some y.vector.toNat else none)
  let s := s.count { cls := 0x14, inst := some x.owner }
  s.each (s.group g).fifo fun s j =>
    match kget s.disp.items j with
    | some z => if z.sameFlow x then (s.modGroup g fun y => { y with fifo := y.fifo.filter (· != j) }).parkItem j z else s
    | none => s

/-- Group `g` is tried in a DISPATCH cycle: the state, and whether it delivered. -/
def State.tryGroup (s : State) (g : GroupNo) : State × Bool :=
  match (s.group g).fifo.head? with
  | none => (s.modGroup g fun y => { y with stalled := false }, false)
  | some k =>
    match kget s.disp.items k with
    | none => (s, false)
    | some x =>
      if !s.servedNow x.owner || !s.canWrite x.owner then (s, false)
      else match s.chooseQueue g with
        | none => (s.noteStall g k x, false)
        | some q => (s.deliverItem g k x q, true)

/-- Groups in turn until one delivers. -/
def dispatchCycle : List GroupNo → State → State
  | [], s => s
  | g :: l, s =>
    let r := s.tryGroup g
    if r.2 then r.1 else dispatchCycle l r.1

/-- DISPATCH_DELIVER (R294): one DISPATCH cycle. -/
def execDispatchDeliver (s : State) : Answer :=
  if !s.runs then .next s
  else done (dispatchCycle ((allGroups.drop (s.disp.lastGroup.val + 1)) ++ (allGroups.take (s.disp.lastGroup.val + 1))) s)

/-! ### Release (R297) -/

/-- The item that a DSP_RELEASE word names, if the release is accepted. -/
def State.released (s : State) (i : InstNo) (w : Word) : Option (Nat × Item) :=
  let k := fld w 29 16
  let q : QueueNo := ⟨fld w 5 0 % 64, by omega⟩
  if fld w 63 32 != 0 || fld w 15 6 != 0 then none
  else (kget s.disp.items k).bind fun x =>
    if x.owner == i && x.st == .inService q && s.handle k == fld w 31 16 then some (k, x) else none

/-- DSP_RELEASE (R297, R308). -/
def execDspRelease (i : InstNo) (w : Word) (s : State) : Answer :=
  if !s.nativeRegs i then .next s
  else
    let s := s.written i
    let q : QueueNo := ⟨fld w 5 0 % 64, by omega⟩
    match s.released i w with
    | none =>
      let s := s.modInst i fun n => { n with badReleases := satInc n.badReleases }
      done (s.trace { kind := 0x09, item := fld w 31 16, queue := q.val, inst := i.val })
    | some (k, x) =>
      let s := s.modQueue q fun y => { y with depth := y.depth - 1 }
      let s := s.trace { s.itemRec k x 0x04 (s.queue q).depth with queue := q.val }
      done ((s.dropItem k).unpark x)

/-! ### Registers (R292, R293, R307 to R311) -/

/-- DSP_GROUP_WRITE (R292): ignored while the group has a pending item or a queue with an item in service. -/
def execDspGroupWrite (g : GroupNo) (w : Word) (s : State) : Answer :=
  if !s.nativeRegs 0 then .next s
  else
    let s := s.written 0
    if !(s.group g).fifo.isEmpty || allQueues.any fun q => (s.queue q).group == g && (s.queue q).depth != 0 then .next s
    else .next (s.modGroup g fun y => { y with owner := ⟨fld w 5 0 % 64, by omega⟩ })

/-- DSP_QMAP_WRITE (R292). -/
def execDspQmapWrite (q : QueueNo) (w : Word) (s : State) : Answer :=
  if !s.nativeRegs 0 then .next s
  else
    let s := s.written 0
    let g : GroupNo := ⟨fld w 9 6 % 16, by omega⟩
    let i : InstNo := ⟨fld w 5 0 % 64, by omega⟩
    if (s.group g).owner != i || (s.queue q).depth != 0 then .next s
    else .next (s.modQueue q fun y => { y with owner := i, group := g })

/-- A queue's configuration after a write (R293, R309); `vf` tells a virtual function (DEDUCED, log 56). -/
def Queue.configure (y : Queue) (w : Word) (vf : Bool) : Queue :=
  let idle := y.depth = 0
  { y with
    enable := bitOf w 31
    depthMax := if fld w 30 23 = 0 then y.depthMax else BitVec.ofNat 8 (fld w 30 23)
    weight := if fld w 22 19 = 0 then y.weight else BitVec.ofNat 4 (fld w 22 19)
    evtRing := if idle then ⟨fld w 18 16 % 8, by omega⟩ else y.evtRing
    vecEn := if idle then bitOf w 15 else y.vecEn
    vector := if idle && !(vf && decide (15 < fld w 13 8)) then BitVec.ofNat 6 (fld w 13 8) else y.vector }

/-- DSP_QCFG_WRITE (R293, R307, R309): by the queue's owner or the manager (DEDUCED, log 54). -/
def execDspQcfgWrite (i : InstNo) (q : QueueNo) (w : Word) (s : State) : Answer :=
  if !s.nativeRegs i then .next s
  else
    let s := s.written i
    if (s.queue q).owner != i && i != 0 then .next s
    else .next (s.modQueue q fun y => y.configure w (y.owner != 0))

/-- DSP_TRACE_ENABLE (R303, R311): a write of DSP_TRACE_CFG; setting `enable` sets both indices to 0. -/
def execDspTraceEnable (w : Word) (s : State) : Answer :=
  if !s.nativeRegs 0 then .next s
  else
    let put (t : Trace) : Trace :=
      { t with
        kinds := BitVec.ofNat 16 (fld w 63 48)
        size := if t.enable || 12 < fld w 3 0 then t.size else BitVec.ofNat 4 (fld w 3 0)
        enable := bitOf w 8
        head := if bitOf w 8 && !t.enable then 0 else t.head
        tail := if bitOf w 8 && !t.enable then 0 else t.tail
        lost := if bitOf w 8 && !t.enable then 0 else t.lost }
    .next ((s.written 0).modDisp fun d => { d with trace := put d.trace })

/-- DSP_TRACE_HEAD_WRITE (R305, R311): `head`; once space has returned a LOST record tells what was lost. -/
def execDspTraceHeadWrite (w : Word) (s : State) : Answer :=
  if !s.nativeRegs 0 then .next s
  else
    let s := (s.written 0).modDisp fun d => { d with trace := { d.trace with head := BitVec.ofNat 20 (fld w 51 32) } }
    if s.disp.trace.enable && !s.disp.trace.stopped then done s.traceLost else .next s

/-! ### Core statistics (R306) -/

/-- A queue's windowed fields replaced by those of the window that ends. Cycles of 1.2 GHz are turned to ns. -/
def Queue.window (y : Queue) (frames : Nat) : Queue :=
  { y with
    waitAvg := if y.accN = 0 then 0 else BitVec.ofNat 32 (min (y.accWait * 5 / (6 * y.accN)) (2 ^ 32 - 1))
    load := BitVec.ofNat 10 (min 1000 (y.accBusy * 1000 / (8 * frames)))
    delivered := BitVec.ofNat 14 (min 16383 y.accN)
    accN := 0, accWait := 0, accBusy := 0 }

/-- A window of `frames` + 1 frames that began in subframe `start` has ended by now (R306, R352). -/
def State.windowOver (s : State) (start : Nat) (frames : BitVec 10) : Bool := decide (start + 8 * (frames.toNat + 1) ≤ s.pl.subN)

/-- The subframe with which the current frame begins. -/
def State.frameStart (s : State) : Nat := 8 * (s.pl.subN / 8)

/-- DSP_STATS_WINDOW_END (R306): once the window is over; the next begins with the current frame (DESIGN CHOICE, log 60). -/
def execDspStatsWindowEnd (s : State) : Answer :=
  if !s.pw.mode.isRunning || !s.windowOver s.disp.windowAt s.disp.windowFrames then .next s
  else .next (s.modDisp fun d =>
    { d with queues := d.queues.map (·.window (d.windowFrames.toNat + 1)), windowAt := s.frameStart })

end Sys2Proof.Machine
end

