-- ==== Sys2Proof/Machine/Counters.lean ====
section
/-!
DEFINITION. The counter and meter registers with behaviour of their own (R346, R352 to R358), and the end of a meter window.
-/
namespace Sys2Proof.Machine

/-- Software may write the counter registers of a set: the manager the device-wide one, an instance its own (R353). -/
def State.ctrOpen (s : State) (set : CtrSet) (j : Nat) : Bool :=
  match set with
  | .device => s.nativeRegs 0
  | .inst i => s.nativeRegs i && decide (j < 4)

/-- Counter `j` of a set changed, by a write of the set's owner. -/
def State.modCtr (s : State) (set : CtrSet) (j : Fin 8) (f : Counter → Counter) : State :=
  match set with
  | .device => (s.written 0).modCnt fun c => { c with ctrs := vset c.ctrs j (f (vget c.ctrs j)) }
  | .inst i =>
    let k : Fin 4 := ⟨j.val % 4, by omega⟩
    (s.written i).modInst i fun n => { n with ctrs := vset n.ctrs k (f (vget n.ctrs k)) }

/-- CNT_VAL_WRITE (R346, R355): `count` and `ovf` take the written values; the `decs` occurrences of the same cycle, which come after the
write, are discarded. -/
def execCntValWrite (set : CtrSet) (j : Fin 8) (o : CountWrite) (s : State) : Answer :=
  if !s.ctrOpen set j then .next s
  else .next (s.modCtr set j fun c =>
    { c with ovf := bitOf o.word 63, count := BitVec.ofNat 48 (fld o.word 47 0), discard := o.decs })

/-- The selection fields as a write leaves them (R354): an `mtype` above 0b100 is not taken. -/
def Counter.select (c : Counter) (w : Word) (dev : Bool) : Counter :=
  { c with
    enable := bitOf w 63
    irqEn := bitOf w 62
    cls := BitVec.ofNat 8 (fld w 55 48)
    addrEn := bitOf w 44
    mtype := if 4 < fld w 43 41 then c.mtype else BitVec.ofNat 3 (fld w 43 41)
    mid := BitVec.ofNat 6 (fld w 40 35)
    priv := if dev then BitVec.ofNat 3 (fld w 34 32) else c.priv }

/-- CNT_SEL_WRITE (R346, R354): on an instance's counter `mtype` 4 and class 0x17 are not accepted. -/
def execCntSelWrite (set : CtrSet) (j : Fin 8) (w : Word) (s : State) : Answer :=
  if !s.ctrOpen set j then .next s
  else match set with
    | .device => .next (s.modCtr set j (·.select w true))
    | .inst i =>
      if fld w 43 41 = 4 || fld w 55 48 = 0x17 then .next (s.written i)
      else .next (s.modCtr set j (·.select w false))

/-- COUNTER_SAMPLE_CLEAR (R356): `valid` is W1C. -/
def execCounterSampleClear (set : CtrSet) (w : Word) (s : State) : Answer :=
  if !s.ctrOpen set 0 then .next s
  else match set with
    | .device =>
      .next (if bitOf w 63 then (s.written 0).modCnt fun c => { c with sample := { c.sample with valid := false } } else s.written 0)
    | .inst i =>
      .next (if bitOf w 63 then (s.written i).modInst i fun n => { n with sample := { n.sample with valid := false } } else s.written i)

/-- The running totals of every port discarded. -/
def State.zeroMeters (s : State) : State := s.each allPorts fun s p => s.modPort p fun x => { x with inAcc := 0, outAcc := 0 }

/-- A write of MTR_CFG (R352, R358): with `enable` 1 the window in progress is discarded and the next begins at the frame boundary;
with `enable` 0 counting stops and the last window is kept. -/
def State.writeMtrCfg (s : State) (w : Word) : State :=
  s.zeroMeters.modCnt fun c =>
    { c with mtrEnable := bitOf w 16, mtrFrames := BitVec.ofNat 10 (fld w 9 0), mtrRunning := false
             mtrValid := if bitOf w 16 then false else c.mtrValid }

/-- MTR_CFG_WRITE (R352, R358). -/
def execMtrCfgWrite (w : Word) (s : State) : Answer :=
  if s.nativeRegs 0 then .next ((s.written 0).writeMtrCfg w) else .next s

/-- MTR_WINDOW_END (R351, R352): once the window is over, every MTR_PORT and `seq` in one update; the next begins with the current frame
(DESIGN CHOICE, log 60). -/
def execMtrWindowEnd (s : State) : Answer :=
  if !s.cnt.mtrRunning || s.cnt.shedStopped || !s.windowOver s.cnt.mtrFrom s.cnt.mtrFrames then .next s
  else
    let s := s.each allPorts fun s p => s.modPort p fun x => { x with inBytes := x.inAcc, outBytes := x.outAcc, inAcc := 0, outAcc := 0 }
    .next (s.modCnt fun c => { c with mtrSeq := c.mtrSeq + 1, mtrValid := true, mtrFrom := s.frameStart })

end Sys2Proof.Machine
end

