-- ==== Sys2Proof/Machine/Frames.lean ====
section
/-!
DEFINITION. The frame timer and the skim planner (06): the subframe tick, building lists in both modes, frame lists (R180 to R185), the
cut-off (R163, R176, R177, R192), missed commits, and the conversion of reservations (R175).
-/
namespace Sys2Proof.Machine

/-! ### Which ports and holders -/

/-- The port carries listed services (R177, R217): it is usable, or exempt in STANDBY for an active egress entry (R374). -/
def State.carries (s : State) (p : PortNo) : Bool :=
  s.usable p ||
  (s.pw.mode == .standby && s.inService p && s.pw.egress && !(s.port p).recovering && !(s.port p).tokenWait &&
    s.activeEntries.any fun x => x.port == p)

/-- A span of the port begins at tick `n` (R26, R161). -/
def State.spanAt (s : State) (p : PortNo) (n : Nat) : Bool := (s.port p).spanSpeed != .reach || n % 8 == 0

/-- `due(e, N)` of R177, of an endpoint whose OPEN_ENDPOINT had its event written before the build began (R178). -/
def State.epDue (s : State) (p : PortNo) (e : Ep) (n : Nat) : Bool :=
  e.kind == .periodic && e.opening.isNone && !e.newlyOpen && s.epPort e == some p && dueAt (s.port p).spanSpeed e.interval e.phase n

/-- An active egress entry names endpoint `k` while EGRESS_N is asserted. -/
def State.egressNames (s : State) (k : Nat) : Bool :=
  s.pw.egress && s.activeEntries.any fun x => x.ep + (s.inst 0).epBase == k

/-- The endpoint may be listed (R166, R177): it is running and its instance is served; in STANDBY only for an egress entry. -/
def State.listable (s : State) (k : Nat) (e : Ep) : Bool :=
  e.st == .running && ((s.servedEp e && s.pw.mode != .standby) || s.egressNames k)

/-- A hub status endpoint that is due (R240): none while the hub, or the branch that holds it, is suspended. -/
def State.hubDue (s : State) (p : PortNo) (z : Nat) (d : DevRec) (n : Nat) : Bool :=
  d.statusOn && d.port == p && s.reachable z && dueAt (s.port p).spanSpeed 3 d.statusPhase n

/-! ### Building a list (R177, R180) -/

/-- The port is suspended, on its way there or on its way back, so that lost polls of hubs count nowhere (R240). -/
def Port.asleep (x : Port) : Bool := x.st == .suspending || x.st == .suspended || x.st == .resuming

/-- A span with due endpoints is lost (R167, R177), counted once (DEDUCED, log 61). -/
def State.loseSkim (s : State) (p : PortNo) : State :=
  s.modPort p fun x => if x.spanLost then x else { x with skimsLost := satInc x.skimsLost, spanLost := true }

/-- The list of subframe `n` on port `p` is begun (R177): the due hub polls in either mode, and in hardware mode the due endpoints. -/
def State.buildPort (s : State) (p : PortNo) (n : Nat) (hw : Bool) : State :=
  let eps := if hw then s.eps.filter fun x => s.epDue p x.2 n else []
  let hubs := s.devs.filter fun x => s.hubDue p x.1 x.2 n
  let go := s.carries p
  let s := s.modPort p fun x => { x with building := go, spanLost := false }
  if !go then
    if eps.isEmpty && (hubs.isEmpty || (s.port p).asleep) then s else s.loseSkim p
  else
    let hubs := if s.pw.mode == .standby then [] else hubs
    let cand := (eps.filter fun x => x.2.st == .running).map (fun x => Holder.ep x.1) ++ hubs.map fun x => Holder.hub x.1
    s.modPort p fun x => { x with cand := cand }

/-- Bytes of link word `n` of an instance's frame list (R180). -/
def Inst.flSlot (x : Inst) (n : Nat) : Nat := x.flBase.toNat + 8 * (n % 2 ^ (x.flSize.toNat + 3))

/-- The walk of an instance's frame list for subframe `n` begins (R180) (DEDUCED, log 104), in D3hot and with Bus Master Enable cleared too
(R167). -/
def State.beginWalk (s : State) (i : InstNo) (n : Nat) : State :=
  if (s.inst i).flEn && s.servedNow i then
    let a := (s.inst i).flSlot n
    (s.modInst i fun x => { x with walk := some ⟨some a, true, 0, [], []⟩ }).hostRead i a 8 none none
  else s.modInst i fun x => { x with walk := none }

/-- The lists of subframe `n` are begun at the tick before it (R163). -/
def State.beginBuild (s : State) (n : Nat) (hw : Bool) : State :=
  let s := s.modPl fun l => { l with buildHw := hw }
  let s := s.each allPorts fun s p => if s.spanAt p n then s.buildPort p n hw else s
  if hw then s else s.each allInsts fun s i => s.beginWalk i n

/-! ### Frame lists (R181 to R185) -/

/-- The walk ends after a link word with `term`, else goes on at the descriptor it names (R181). -/
def Walk.follow (w : Walk) (link : Nat) : Walk :=
  { w with atLink := false, next := if link % 2 = 1 then none else some (link / 32 * 32) }

/-- A descriptor of the walk for subframe `n` (R181, R182). -/
def State.visit (s : State) (i : InstNo) (n : Nat) (d : BitVec 256) : State :=
  match (s.inst i).walk with
  | none => s
  | some w =>
    let ix := fld d 80 64
    let ep := s.epOf i ix
    let port := ep.bind fun x => s.epPort x.2
    let reach : Bool := match port with
      | some p => (s.port p).spanSpeed == .reach && n % 8 != 0
      | none => false
    if bitOf d 81 || reach then s
    else match ep, port with
      | some (k, e), some p =>
        if e.kind != .periodic || e.opening.isSome || w.seen.contains ix then s.modInst i fun x => { x with badDesc := satInc x.badDesc }
        else
          let s := if (s.port p).building || e.newlyOpen then s else s.loseSkim p
          let listed := if (s.port p).building && !e.newlyOpen && s.listable k e then w.listed ++ [k] else w.listed
          s.modInst i fun x => { x with walk := some { w with seen := w.seen ++ [ix], listed := listed } }
      | _, _ => s.modInst i fun x => { x with badDesc := satInc x.badDesc }

/-- The walk after a run of descriptors (R181, R182): at most 4,096 are read, and a chain that goes on is cut. -/
def State.visitRun (s : State) (i : InstNo) (n : Nat) (ds : List (BitVec 256)) : State :=
  match (s.inst i).walk with
  | none => s
  | some w =>
    let room := 4096 - w.count
    let s := s.each (ds.take room) fun s d => s.visit i n d
    let last := fld (ds.getLast?.getD 0) 63 0
    let cut := decide (room < ds.length) || (room == ds.length && last % 2 == 0)
    let s := if cut then s.modInst i fun x => { x with overlong := satInc x.overlong } else s
    s.modInst i fun x => { x with walk := x.walk.map fun w =>
      let w := { w with count := w.count + min room ds.length }
      if cut then { w with next := none } else w.follow last }

/-- FRAME_LIST_READ_COMPLETE (R181 to R183): a link word, or a run as long as its first descriptor says. -/
def execFrameListReadComplete (i : InstNo) (rd : ListRead) (s : State) : Answer :=
  if !s.runs || s.pl.cutDone then .next s
  else match (s.inst i).walk, rd with
    | some ⟨some _, true, _, _, _⟩, .link w =>
      .next (s.modInst i fun x => { x with walk := x.walk.map fun v => v.follow w.toNat })
    | some ⟨some a, false, _, _, _⟩, .run ds =>
      match ds.head? with
      | none => .next s
      | some d =>
        if ds.length != fld d 95 88 + 1 then .next s
        else done ((s.hostRead i a (32 * ds.length) none none).visitRun i (s.pl.subN + 1) ds)
    | _, _ => .next s

/-! ### The cut-off (R163, R176, R177) -/

/-- A key of R176, most significant part first. -/
def keyLe : List Nat → List Nat → Bool
  | [], _ => true
  | _, [] => false
  | a :: l, b :: m => decide (a < b) || (a == b && keyLe l m)

/-- A keyed holder put in its place. -/
def insertKey (x : List Nat × Holder) : List (List Nat × Holder) → List (List Nat × Holder)
  | [] => [x]
  | y :: l => if keyLe x.1 y.1 then x :: y :: l else y :: insertKey x l

def sortKeys (l : List (List Nat × Holder)) : List (List Nat × Holder) := l.foldr insertKey []

/-- The third key of R176. -/
def turnKey (i : InstNo) (n : Nat) : Nat := if i = 0 then 0 else 1 + (((i.val : Int) - 1 - n) % 63).toNat

/-- The endpoint's commit slot is released in subframe `n` (R192). -/
def State.releasedAt (s : State) (k n : Nat) : Bool :=
  s.commits.any fun x => x.2.phase == .released && x.2.subN == n && x.2.slots.any fun y => y.ep == k

/-- The key of a holder in subframe `n` (R176); in host-assisted mode the place in the chain stands for the last two parts (R182).
A hub's poll ranks as the manager's. -/
def State.holderKey (s : State) (n : Nat) (chain : Option Nat) (h : Holder) : List Nat :=
  match h with
  | .ep k =>
    match s.ep k with
    | some e =>
      [b2n !e.egressSafe, b2n !(s.releasedAt k n), turnKey e.inst n] ++
        (match chain with
         | some j => [j, 0]
         | none => [e.interval, k])
    | none => [2]
  | .hub z => [1, 1, 0] ++ (match chain with | some j => [j, z] | none => [3, 131072 + z])
  | .own _ => [2]

/-- A candidate is served by the decision of this cut-off (R167, R313); in STANDBY only an egress entry's endpoint is. -/
def State.stillServed (s : State) (h : Holder) : Bool :=
  match h with
  | .ep k => ((s.ep k).map fun e => (s.servedEp e && s.pw.mode != .standby) || s.egressNames k).getD false
  | _ => true

/-- The candidates of port `p` with their keys (DEDUCED, log 62). -/
def State.candidates (s : State) (p : PortNo) (n : Nat) : List (List Nat × Holder) :=
  if s.pl.buildHw then ((s.port p).cand.filter s.stillServed).map fun h => (s.holderKey n none h, h)
  else
    (allInsts.flatMap fun i => match (s.inst i).walk with
      | some w => (w.listed.zipIdx.filter fun x => s.stillServed (.ep x.1) && ((s.ep x.1).bind s.epPort) == some p).map fun x =>
          (s.holderKey n (some x.2) (.ep x.1), Holder.ep x.1)
      | none => []) ++
    (s.port p).cand.map fun h => (s.holderKey n (some 4096) h, h)

/-- The context of endpoint `k` is pinned for the coming span, and read if it is not in the cache (R102), if the limit of 6,144 allows. -/
def State.pin (s : State) (k : Nat) : Option State :=
  let m := s.mem
  if m.pinNext.contains k then some (s.touch k)
  else if m.pinNow.contains k || decide ((m.pinNow.filter fun x => !m.pinNext.contains x).length + m.pinNext.length < 6144) then
    some ((s.modMem fun m => { m with pinNext := k :: m.pinNext }).touch k)
  else none

/-- Budget that a list has used: per instance. -/
abbrev Used := Tab Nat 64

/-- A candidate that its reservation or the pin does not take (R168, R193): a commit's endpoint is then only unserved. -/
def State.leftOut (s : State) (p : PortNo) (n : Nat) (h : Holder) : State :=
  match h with
  | .ep k => if s.releasedAt k n then s else s.noteMiss p h
  | _ => s.noteMiss p h

/-- One candidate against its instance's reservation and the pins (R177). -/
def State.listOne (p : PortNo) (n : Nat) (a : State × Used × List Holder) (h : Holder) : State × Used × List Holder :=
  let (s, used, l) := a
  let fits (i : InstNo) (cost : Nat) : Bool := decide (vget used i + cost ≤ vget (s.inst i).units p)
  match h with
  | .ep k =>
    match s.ep k with
    | none => a
    | some e =>
      if !fits e.inst e.svcCost then (s.leftOut p n h, used, l)
      else match s.pin k with
        | none => (s.leftOut p n h, used, l)
        | some t => (t, vset used e.inst (vget used e.inst + e.svcCost), l ++ [h])
  | .hub z =>
    match s.dev z with
    | none => a
    | some d =>
      let cost := svcCost (s.port p).reckon d.tier 2 true
      if !fits 0 cost then (s.leftOut p n h, used, l) else (s, vset used 0 (vget used 0 + cost), l ++ [h])
  | .own _ => a

/-- The list of port `p` for subframe `n` is fixed (DEDUCED, log 108). -/
def State.fixList (s : State) (p : PortNo) (n : Nat) : State :=
  if !s.spanAt p n || !s.carries p || !(s.port p).building then s
  else
    let hs := (sortKeys (s.candidates p n)).map (·.2)
    let (s, _, l) := hs.foldl (State.listOne p n) (s, Vector.replicate 64 0, [])
    s.modPort p fun x => { x with cand := [], list := l }

/-- The commits of subframe `n` are decided (R192): released when the gate has reached zero, else missed and unbound. -/
def State.decideCommit (s : State) (n : Nat) (x : Nat × Commit) : State :=
  let c := x.2
  if c.phase != .armed || c.subN != n then s
  else
    let zero : Bool := match kget s.disp.gates c.gate with
      | some g => g.owner == c.inst && g.count == 0
      | none => false
    if zero then { s with commits := kset s.commits x.1 { c with phase := .released } }
    else
      let s := s.each c.slots fun s y => s.modEp y.ep fun e => { e with commitRef := 0 }
      { s with commits := kset s.commits x.1 { c with phase := .missed } }

/-- Whether each tenant is served from this cut-off on (R313), with its channels pausing or going on (R263). -/
def State.decideServed (s : State) (i : InstNo) : State :=
  let now : Bool := (s.inst i).st == .running && !(s.inst i).flrAsked
  if now then (s.modInst i fun n => { n with served := true }).unpauseChans i
  else if (s.inst i).served then (s.modInst i fun n => { n with served := false }).pauseChans i
  else s

/-- Chains not read to their end by the cut-off (R185); `late_builds` counts one for a cut-off (DESIGN CHOICE, log 133). -/
def State.cutWalks (s : State) : State :=
  let late := allInsts.filter fun i => match (s.inst i).walk with
    | some w => w.next.isSome
    | none => false
  let s := s.each late fun s i =>
    s.modInst i fun n => { n with lateWalks := satInc n.lateWalks, walk := n.walk.map fun w => { w with next := none } }
  if late.isEmpty then s else s.modPl fun l => { l with lateBuilds := satInc l.lateBuilds }

/-- At the first cut-off after the deassertion an active entry's endpoint at its threshold halts (R383): its entry in progress, or
the first that it takes, completes with the status of the last error. -/
def State.haltAfterEgress (s : State) : State :=
  if !s.pw.egressServing || s.pw.egress then s
  else
    s.each s.activeEntries fun s x =>
      let k := x.ep + (s.inst 0).epBase
      match s.ep k with
      | some e =>
        if e.st == .running && decide (e.errThreshold ≤ e.errCount) then
          let st := e.tally.haltStatus
          let s := s.haltEp k st
          if e.cur.isNone then s.modEp k fun e => { e with force := some st } else s
        else s
      | none => s

/-- PLANNER_CUTOFF (R163): 20 µs before the next tick. -/
def execPlannerCutoff (s : State) : Answer :=
  if !s.alive || s.pl.cutDone then .next s
  else
    let n := s.pl.subN + 1
    let s := s.each allTenants State.decideServed
    let s := s.each s.commits fun s x => s.decideCommit n x
    let s := s.cutWalks
    let s := s.each allPorts fun s p => s.fixList p n
    let s := s.each allInsts fun s i => s.modInst i fun x => { x with walk := none }
    let s := s.modPl fun l => { l with cutDone := true }
    done (s.haltAfterEgress.modPw fun w => { w with egressServing := w.egress })

/-- COMMIT_MISSED (R192): at the release tick. -/
def execCommitMissed (c : Fin 256) (s : State) : Answer :=
  match kget s.commits c with
  | some x => if x.phase == .missed && decide (x.subN ≤ s.pl.subN) then done (s.missCommit c x) else .next s
  | none => .next s

/-! ### The tick (R26, R162, R171) -/

/-- What is left of a skim when its span ends was not given (R167, R168), and its excess is noted (R177). -/
def State.endSpan (s : State) (p : PortNo) (n : Nat) : State :=
  if !s.spanAt p n then s
  else
    let left := (s.port p).skim.filter s.listedLive
    let s := (s.noteOverrun p).modPort p fun x => { x with skim := [] }
    s.each left fun s h => s.missed p h

/-- A port passes from its holder to another trowel. -/
def State.passPort (s : State) (p : PortNo) (k j : TrowelNo) : State :=
  (s.modTrowel k fun w => { w with holds := w.holds.filter (· != p) }).modTrowel j fun w => { w with holds := w.holds ++ [p] }

/-- Holders at the beginning of a span (R213, R215, R219): a home trowel takes its port back, a draining holder passes it on. -/
def State.handOver (s : State) (p : PortNo) (n : Nat) : State :=
  let st := (s.port p).st
  if st == .unpowered || st == .held || !s.spanAt p n then s
  else
    let home : TrowelNo := ⟨p.val, by omega⟩
    match allTrowels.find? fun k => (s.trowel k).holds.contains p with
    | none => s.takeHolder p
    | some k =>
      if k != home && (s.trowel home).tstate == .inService then s.passPort p k home
      else if (s.trowel k).tstate == .inService then s
      else match s.substitute p (some k) with
        | some j => s.passPort p k j
        | none => s

/-- A span of port `p` begins at tick `n` (R26, R162): SOSF with its idle gap, and the fixed list becomes the skim. After a resume the first
SOSF may pass over one tick, and goes at Express after 20 µs of the training pattern (R71). -/
def State.beginSpan (s : State) (p : PortNo) (n : Nat) : State :=
  let hold := (s.port p).sosfHold
  if !s.inService p then s
  else if hold == .late then
    s.modPort p fun x => { x with sosfHold := if x.speed == .express then .train else .plain, list := [] }
  else if !s.spanAt p n then s
  else
    let s := if hold == .train then s.emit (.drive p .training) else s
    (s.send p (sosfPacket (n / 8 % 2048) (n % 8))).modPort p fun x =>
      { x with skim := x.list, list := [], excess := 0, ctrlUsed := 0, gap := none, sosfHold := .none, lineAt := sosfTime + gapTime }

/-- Slots of commits released in subframe `n` whose endpoints were not listed end unserved (R193, R195). -/
def State.unserve (s : State) (n : Nat) : State :=
  s.each (s.commits.filter fun x => x.2.phase == .released && x.2.subN == n) fun s x =>
    let out := x.2.slots.filter fun y => y.ended.isNone && !(allPorts.any fun p => (s.port p).skim.contains (.ep y.ep))
    s.each out fun s y => s.endSlot y.ep .missedService

/-- Contexts stay pinned while their span runs (R102). -/
def State.rotatePins (s : State) (n : Nat) : State :=
  let stays (k : Nat) : Bool := match (s.ep k).bind s.epPort with
    | some p => !s.spanAt p n
    | none => false
  s.modMem fun m =>
    { m with pinNow := m.pinNext ++ m.pinNow.filter fun k => stays k && !m.pinNext.contains k, pinNext := [] }

/-- At a frame boundary changed schedules take their place (R139, R178), changes of split fall due (R20), and a meter window
starts (R352). -/
def State.frameBegins (s : State) : State :=
  let s : State := { s with eps := s.eps.map fun (k, e) => (k, match e.newSched with
    | some (v, q) => if (s.inst e.inst).waiting.any (·.isCommand) then e else { e with interval := v, phase := q, newSched := none }
    | none => e) }
  let s := s.modPl fun l => { l with splits := l.splits.map fun (x : Split) => { x with due := true } }
  if s.cnt.mtrEnable && !s.cnt.mtrRunning then s.zeroMeters.modCnt fun c => { c with mtrRunning := true, mtrFrom := s.pl.subN } else s

/-- The tick as rings that refuse work (R111) and the statistics of the queues (R306) count it. -/
def State.countTick (s : State) : State :=
  let s := s.each allInsts fun s i =>
    if (s.inst i).evt.toList.any (·.blocked) then
      s.modInst i fun n => { n with evt := n.evt.map fun (r : EvtRing) => if r.blocked then { r with blockedTicks := satInc r.blockedTicks } else r }
    else s
  s.modDisp fun d => { d with queues := d.queues.map fun (q : Queue) => if q.depth = 0 then q else { q with accBusy := q.accBusy + 1 } }

/-- The LATH clock runs (R340, R359, R374). -/
def State.lathRuns (s : State) : Bool :=
  s.pw.mode.isRunning || allPorts.any fun p => (s.port p).st == .enabled || (s.pw.egress && s.activeEntries.any fun x => x.port == p)

/-- The mode in which the list that begins at this tick is built (R179): a change counts from its frame boundary on. -/
def State.buildMode (s : State) : Bool :=
  match s.pl.splits.reverse.find? fun x => x.fn == .schedule && x.due with
  | some x => x.hw
  | none => s.pl.periodicHw

/-- The timer's own count at a tick (R25, R340); CNT_CYCLE gains the cycles of a subframe at once (DESIGN CHOICE, log 10). -/
def State.advance (s : State) (n : Nat) : State :=
  let cycles : BitVec 64 := if s.lathRuns then 150000 else 0
  s.modPl fun l => { l with subN := n, cycle := l.cycle + cycles, cutDone := false }

/-- An endpoint whose OPEN_ENDPOINT event has been written before a tick is listed in what is built from it on (R178). -/
def State.openTick (s : State) : State :=
  if s.eps.any fun x => x.2.newlyOpen && x.2.opening.isNone then
    { s with eps := s.eps.map fun (k, e) => (k, if e.opening.isNone then { e with newlyOpen := false } else e) }
  else s

/-- Work that waits for a branch or for a usable port is met again (R255, R256), and floaters that hold no port are gated (R216). -/
def State.workTick (s : State) : State :=
  let s := s.each allPorts fun s p => s.wakeWork p
  s.recoverWhenUp.cycleEnds.gateIdle

/-- What the ports do at tick `n`. -/
def State.portsTick (s : State) (n : Nat) : State :=
  let s := s.each allPorts fun s p => (s.suspendEnter p).shiftDown p
  let s := s.each allPorts fun s p => s.handOver p n
  let s := s.each allPorts fun s p => s.beginSpan p n
  (s.unserve n).rotatePins n

/-- SUBFRAME_TICK (R25, R26, R162, R163, R361): the timer counts in every mode but PRIME, RETAIN and OFF; a controller that is not
halted ends the spans, starts those of the new subframe, and begins the lists of the next. -/
def execSubframeTick (s : State) : Answer :=
  if !s.pw.mode.isRunning && s.pw.mode != .standby then .next s
  else
    let n := s.pl.subN + 1
    if s.pw.halted then .next (s.advance n)
    else
      let s := s.each allPorts fun s p => s.endSpan p n
      let s := (s.advance n).portsTick n
      let s := (if n % 8 = 0 then s.frameBegins else s).openTick.workTick
      let s := s.beginBuild (n + 1) s.buildMode
      done s.countTick.tickWaits

/-! ### Conversion of reservations (R175) -/

/-- Units after a change of speed (R175). -/
def convertUnits (a b : Speed) (u : Nat) : Nat :=
  match a, b with
  | .express, .standard | .express, .reach => u / 8
  | .standard, .express | .reach, .express => u * 8
  | _, _ => u

/-- Reservations, costs and device records of a port at a new reckoning speed. -/
def State.convertPort (s : State) (p : PortNo) (v : Speed) : State :=
  let old := (s.port p).reckon
  let s := s.each allInsts fun s i =>
    if vget (s.inst i).units p = 0 then s
    else s.modInst i fun n => { n with units := vset n.units p (convertUnits old v (vget n.units p)) }
  let cost (e : Ep) : Nat := svcCost v (s.epTier e) e.maxBlock e.inward
  let s : State := { s with
    eps := s.eps.map fun (k, e) =>
      (k, if e.kind == .periodic && s.epPort e == some p then { e with svcCost := cost e } else e)
    devs := s.devs.map fun (z, d) => (z, if d.port = p then { d with speed := v } else d) }
  s.modPort p fun x => { x with reckoned := v }

/-- RESERVATION_CONVERSION (R175): at the first tick after the speed changed. -/
def execReservationConversion (p : PortNo) (s : State) : Answer :=
  if s.alive && (s.port p).converting then done (s.convertPort p (s.port p).speed) else .next s

end Sys2Proof.Machine
end

