-- ==== Sys2Proof/Machine/Manage.lean ====
section
/-!
DEFINITION. The life of an instance (11): quiesce (R319 to R321), resume, reset and wipe (R322 to R324), the return of shares (R318),
Function Level Reset (R325, R326), VF Enable and NumVFs (R315, R327, R402), and dirty logging (R328, R329).
-/
namespace Sys2Proof.Machine

/-! ### Stopping work (R319) -/

/-- The tenant that a command names (R147): an enabled virtual function. -/
def State.tenantOf (s : State) (e : CEntry) : Option InstNo :=
  (s.instOf (fld e 69 64)).bind fun j => if j = 0 then none else some j

/-- Commits of an instance at a quiesce or a freeze (R319): the armed ones are withdrawn, and slots of released ones whose rounds
have not begun end with QUIESCE_ABORT. -/
def State.stopCommits (s : State) (i : InstNo) : State :=
  let s := s.each (s.commits.filter fun c => c.2.inst == i && c.2.phase == .armed) fun s c => s.endCommit c.1 c.2 .cancelled
  let slots := (s.commits.filter fun c => c.2.inst == i && c.2.phase == .released).flatMap fun c =>
    (c.2.slots.filter fun x => x.ended.isNone && !s.onLine x.ep).map (·.ep)
  s.each slots fun s k => s.endSlot k .quiesceAbort

/-- Every ring of the instance with counted events sends its message at once, and mirrors that are due are written (R319). -/
def State.flushRings (s : State) (i : InstNo) : State :=
  if !s.canWrite i then s
  else s.each allRings fun s e =>
    if 0 < (s.ring i e).counted then s.fireRing i e
    else if (s.ring i e).mirrorDue && (s.ring i e).enable then s.writeMirror i e else s

/-- The instance's entries in progress that are at a block boundary end with QUIESCE_ABORT (R319). -/
def State.abortInst (s : State) (i : InstNo) : State :=
  s.each (s.epSlots i) fun s k => if s.midWait (.ep k) then s else (s.cutEp k).abortEntry k

/-- What a quiesce, and a freeze, do at their start (R319) (DEDUCED, log 63). -/
def State.stopWork (s : State) (i : InstNo) : State := ((s.withdrawInst i).stopCommits i).pauseChans i

/-- Shedding freezes a tenant (R315, R319): nothing listed is started, and work on the line ends at its block boundary (DEDUCED, log 64). -/
def State.freeze (s : State) (i : InstNo) : State :=
  let s := s.modInst i fun n => { n with st := .frozen }
  (((s.stopWork i).unlist (s.holds i)).cutInst i).flushRings i

/-! ### QUIESCE_INSTANCE (R319 to R321) -/

/-- QUIESCE_INSTANCE (R147, R148, R315, R319): at once for an instance that is halted, frozen or quiesced already. -/
def execQuiesceInstance (i : InstNo) (slot : BitVec 16) (s : State) : Answer :=
  carryOut i slot 0x44 anyForm s fun e =>
    match s.tenantOf e with
    | none => .ends s .paramInvalid 0
    | some j =>
      match (s.inst j).st with
      | .running =>
        let abort := bitOf e 70
        let s := (s.modInst j fun n => { n with st := .quiescing, abort := abort }).stopWork j
        .waits (if abort then (s.unlist (s.holds j)).abortInst j else s)
      | .frozen => .ends (s.modInst j fun n => { n with st := .quiesced }) .cmdOk 0
      | .quiescing => .waits s
      | _ => .ends s .cmdOk 0

/-- The manager's QUIESCE_INSTANCE that waits for instance `j` completes. -/
def State.endQuiesce (s : State) (j : InstNo) : State :=
  match (s.inst 0).cmds.find? fun c => c.phase == .waiting && ceOp c.entry == 0x44 && fld c.entry 69 64 == j.val with
  | some c => s.finish 0 c.slot .cmdOk 0
  | none => s

/-- Every row of R319 has been carried out (R321): the instance's commands and started transactions have ended, what it is owed has
been written or cannot be, its commits are decided, its listed services are given, and its channels are paused. -/
def State.quiet (s : State) (j : InstNo) : Bool :=
  let mine := s.epSlots j
  let pass := !s.canWrite j
  (s.inst j).cmds.isEmpty &&
  (pass || !(s.deliveries.any fun d => mine.contains d.ep)) &&
  !(allTrowels.any fun k => (s.trowel k).slots.any fun t => s.holds j t.who && (t.started && !(pass && t.phase == .delivery))) &&
  !(mine.any s.onLine) &&
  !(s.commits.any fun c => c.2.inst == j) &&
  !(allPorts.any fun p => ((s.port p).list ++ (s.port p).skim).any fun h => s.holds j h && s.listedLive h) &&
  !(allChans.any fun c => (s.chan c).owner == j && ((s.chan c).cstate == .running || (s.chan c).cstate == .waiting))

/-- QUIESCE_COMPLETE (R102, R320, R321): the instance is QUIESCED, its messages sent and its contexts written back. -/
def execQuiesceComplete (j : InstNo) (s : State) : Answer :=
  if !s.runs then .next s
  else match (s.inst j).st with
  | .quiescing =>
    let s := if (s.inst j).abort then s.abortInst j else s
    if !s.quiet j then done s
    else
      let s := s.flushRings j
      let s := s.each (s.epSlots j) State.writeBack
      done ((s.modInst j fun n => { n with st := .quiesced, abort := false, served := false }).endQuiesce j)
  | .running => .next s
  | _ => done (s.endQuiesce j)

/-! ### RESUME_INSTANCE (R148, R315) -/

/-- RESUME_INSTANCE (R148, R315). -/
def execResumeInstance (i : InstNo) (slot : BitVec 16) (s : State) : Answer :=
  carryOut i slot 0x45 anyForm s fun e =>
    match s.tenantOf e with
    | none => .ends s .paramInvalid 0
    | some j =>
      if 5 ≤ s.pw.shedStep || (s.inst j).st == .frozen then .ends s .conflict 0
      else match (s.inst j).st with
        | .halted => .ends s .halted 0
        | .running => .ends s .cmdOk 0
        | _ =>
          let s := s.modInst j fun n => { n with st := .running }
          .ends (s.functionBack j) .cmdOk 0

/-! ### Wiping (R322, R323, R326) -/

/-- Procedures of an instance's commands go on with nothing to post, and clear-halts of its endpoints end without effect (R319)
(DEDUCED, log 68). -/
def State.orphanProcs (s : State) (i : InstNo) (gone : List Nat) : State :=
  let fix (x : Proc) : Proc :=
    match x.purpose with
    | .unhaltCmd j _ k => if j = i || gone.contains k then { x with purpose := .fire } else x
    | .unhaltHw k | .unhaltEgress k => if gone.contains k then { x with purpose := .fire } else x
    | .admission j _ | .assign j _ | .readdress j _ | .devReset j _ => if j = i then { x with orphan := true } else x
    | .treePower (some (j, _)) a => if j = i then { x with purpose := .treePower none a } else x
    | _ => x
  s.modTree fun t => { t with procs := t.procs.map fix }

/-- Endpoint contexts of an instance close without events, and their backing-store slots are zeroed (R322), as soon as the physical function
can be written to (R125). -/
def State.closeEps (s : State) (ks : List Nat) : State :=
  s.each ks fun s k =>
    let s := (s.discardEp k).dropEp k
    if s.mem.bsLock then s.putData 0 (s.mem.bsBase.toNat + 64 * k) (List.replicate 64 0) none else s

/-- Items of an instance go (R319): those pending or parked with a WITHDRAWN record (DEDUCED, log 65). -/
def State.clearItems (s : State) (i : InstNo) : State :=
  s.each (s.disp.items.filter fun x => x.2.owner == i) fun s x =>
    match x.2.st with
    | .pending | .parked => s.withdrawItem x.1
    | _ => s.dropItem x.1

/-- An instance's items and gates go, and its channels are IDLE with reset registers (R319). -/
def State.stopUnits (s : State) (i : InstNo) : State :=
  let s := (s.clearItems i).modDisp fun d => { d with gates := d.gates.filter fun g => g.2.owner != i }
  { s with chans := s.chans.map fun (c : Chan) => if c.owner = i then { owner := i } else c }

/-- The work of an instance is stopped for a Function Level Reset or a cleared VF Enable (R319, R323), unless a save or restore of the
instance runs first (R325): nothing of it is posted, and its transactions end at their block boundaries. -/
def State.stopAll (s : State) (i : InstNo) : State :=
  if (s.inst i).operating then s
  else
    let s := (s.withdrawInst i).unlist (s.holds i)
    let s : State := { s with commits := s.commits.filter fun c => c.2.inst != i }
    ((s.cutInst i).stopUnits i).modInst i fun n => { n with served := false }

/-- An instance's gates, items, queues, groups, channels, stencil store and hawk units are as after reset; what it owns and its
quotas stay with it (R322, R326). -/
def State.clearUnits (s : State) (i : InstNo) : State :=
  let s := s.stopUnits i
  let n := s.inst i
  let s := s.modDisp fun d =>
    { d with groups := d.groups.map fun (g : Group) => if g.owner = i then { owner := i } else g
             queues := d.queues.map fun (q : Queue) => if q.owner = i then { owner := i, group := q.group } else q }
  let lo := 1024 * n.stBase
  let hi := 1024 * (n.stBase + n.stSize)
  (s.modMem fun m => { m with store := m.store.filter fun x => decide (x.1 < lo) || decide (hi ≤ x.1) }).zeroUnits n.unitMap

/-- The registers of an instance at their reset values, with the share it keeps and its configuration space (DEDUCED, log 66). -/
def Inst.cleared (n : Inst) : Inst :=
  { st := n.st, fresh := true, served := n.served, busMaster := n.busMaster, memSpace := n.memSpace, msixEn := n.msixEn
    funcMask := n.funcMask, d3hot := n.d3hot, pmeEn := n.pmeEn, epBase := n.epBase, epLimit := n.epLimit, weight := n.weight
    gateQuota := n.gateQuota, flowQuota := n.flowQuota, stBase := n.stBase, stSize := n.stSize, unitMap := n.unitMap
    regionQuota := n.regionQuota, units := n.units, devMap := n.devMap, allowed := n.allowed, leaving := n.leaving }

/-- Everything that an instance created is wiped (R322), but for its halt fields and dirty logging, which the callers settle. -/
def State.wipeInst (s : State) (i : InstNo) : State :=
  let ks := s.epSlots i
  let s := (s.orphanProcs i ks).unlist (s.holds i)
  let s : State := { s with commits := s.commits.filter fun c => c.2.inst != i }
  ((s.closeEps ks).clearUnits i).modInst i fun n => { n.cleared with
    halted := n.halted, malCode := n.malCode, badKind := n.badKind, badTarget := n.badTarget, badIndex := n.badIndex, dirty := n.dirty }

/-- The shares of an instance return to the manager (R318); `ep_base` stays (DESIGN CHOICE, log 132). -/
def State.returnShares (s : State) (i : InstNo) : State :=
  let s : State := { s with
    devs := s.devs.map fun (z, d) => (z, if d.owner = i then { d with owner := 0 } else d)
    chans := s.chans.map fun (c : Chan) => if c.owner = i then { c with owner := 0 } else c }
  let s := s.modDisp fun d =>
    { d with groups := d.groups.map fun (g : Group) => if g.owner = i then { g with owner := 0 } else g
             queues := d.queues.map fun (q : Queue) => if q.owner = i then { q with owner := 0 } else q }
  s.modInst i fun n =>
    { n with weight := 1, epLimit := 0, gateQuota := 0, flowQuota := 0, stSize := 0, unitMap := [], regionQuota := 0
             units := Vector.replicate 32 0, devMap := [], allowed := 0 }

/-- Some round of the instance has not reached its block boundary (R323). -/
def State.midBlock (s : State) (i : InstNo) : Bool := (s.epSlots i).any fun k => s.midWait (.ep k)

/-- RESET_INSTANCE (R148, R318, R322 to R324). -/
def execResetInstance (i : InstNo) (slot : BitVec 16) (s : State) : Answer :=
  carryOut i slot 0x46 anyForm s fun e =>
    match s.tenantOf e with
    | none => .ends s .paramInvalid 0
    | some j =>
      if (s.inst j).st != .quiesced && (s.inst j).st != .halted then .ends s .notQuiesced 0
      else if s.midBlock j then .notYet
      else
        let s := (s.wipeInst j).modInst j fun n => { n.cleared with st := .quiesced, served := false }
        .ends (if bitOf e 70 then s.returnShares j else s) .cmdOk 0

/-! ### Function Level Reset and VF Enable (R325 to R327, R402) -/

/-- A reset of the function is asked for (R325): no write and no message for the instance from now on. -/
def State.askFlr (s : State) (i : InstNo) : State :=
  s.modInst i fun n =>
    { n with flrAsked := true, flrPending := n.operating, op := if n.operating then n.op else .flr }

/-- VF_FUNCTION_LEVEL_RESET (R325): the instance's work stops, and the manager is told. -/
def execVfFunctionLevelReset (i : InstNo) (s : State) : Answer :=
  let n := s.inst i
  if i = 0 || n.st == .disabled || n.flrAsked || !s.alive || !s.pw.linkUp then .next s
  else
    let s := (s.askFlr i).stopAll i
    done (s.unsolicited 0 0 (.notice i 2) (s.flrNotice i))

/-- SHARED is left once no tenant is enabled and VF Enable is 0 (R14). -/
def State.leaveShared (s : State) : State :=
  if s.pw.vfEnable || allTenants.any fun i => (s.inst i).st != .disabled then s
  else s.modPw fun w =>
    let sole (m : Mode) : Mode := if m == .shared then .sole else m
    { w with mode := sole w.mode, beforeShed := sole w.beforeShed, beforeStandby := sole w.beforeStandby }

/-- A virtual function that is no longer enabled is wiped, its shares return and it is DISABLED (R315, R327); the halt fields keep
their values until it is enabled again. -/
def State.disableInst (s : State) (i : InstNo) : State :=
  ((s.wipeInst i).returnShares i).modInst i fun n =>
    { n with st := .disabled, served := false, leaving := false, flrAsked := false, dirty := none, busMaster := false, msixEn := false
             funcMask := false, d3hot := false, pmeEn := false }

/-- The wipe of a Function Level Reset (R325, R326): the halt fields, the state and dirty logging stay, and configuration space
returns to its reset values. -/
def State.flrWiped (s : State) (i : InstNo) : State :=
  (s.wipeInst i).modInst i fun n =>
    { n with flrAsked := false, busMaster := false, msixEn := false, funcMask := false, d3hot := false, pmeEn := false }

/-- FLR_WIPE (R323, R325 to R327): after a save or restore, once every round of the instance is at its block boundary (DEDUCED, log 125). -/
def execFlrWipe (i : InstNo) (s : State) : Answer :=
  let n := s.inst i
  if !n.flrAsked || n.operating || s.midBlock i then .next s
  else if n.leaving then done (((s.disableInst i).endQuiesce i).leaveShared)
  else done (s.flrWiped i)

/-- Virtual functions are disabled (R327): at once where nothing of them is on a line or in a save or restore. -/
def State.disableVf (s : State) (i : InstNo) : State :=
  let n := s.inst i
  if n.st == .disabled then s
  else
    let s := ((s.askFlr i).modInst i fun n => { n with leaving := true }).stopAll i
    if (s.inst i).operating || s.midBlock i then s else (s.disableInst i).endQuiesce i

/-- Configuration space of the physical function takes writes: the block runs, or waits in STANDBY, with the link up (DEDUCED, log 85). -/
def State.cfgOpen (s : State) : Bool := s.alive && s.pw.linkUp

/-- VF_ENABLE_CLEAR (R14, R327). -/
def execVfEnableClear (s : State) : Answer :=
  if !s.cfgOpen || !s.pw.vfEnable then .next s
  else
    let s := s.modPw fun w => { w with vfEnable := false }
    done (s.each allTenants State.disableVf).leaveShared

/-- A virtual function is enabled (R315): RUNNING, or FROZEN from step 5 of the ladder on, fresh, every register at reset (DEDUCED, log 67). -/
def State.enableVf (s : State) (i : InstNo) : State :=
  s.modInst i fun n =>
    { st := if 5 ≤ s.pw.shedStep then .frozen else .running, memSpace := n.memSpace }

/-- VF_ENABLE_SET (R14, R315): SOLE becomes SHARED; in SHED the mode returned to follows, and in STANDBY too, where R14 says nothing
(DESIGN CHOICE, log 15). Not in COMPAT (R401). -/
def execVfEnableSet (s : State) : Answer :=
  if !s.cfgOpen || s.pw.vfEnable || s.inCompat || allTenants.any fun i => (s.inst i).leaving then .next s
  else
    let s := s.modPw fun w =>
      let shared (m : Mode) : Mode := if m == .sole then .shared else m
      { w with vfEnable := true, mode := shared w.mode, beforeShed := shared w.beforeShed, beforeStandby := shared w.beforeStandby }
    .next (s.each allTenants fun s i => if i.val ≤ s.pw.numVfs then s.enableVf i else s)

/-- NUMVFS_WRITE (R402): ignored above 63 and while VF Enable is 1. -/
def execNumvfsWrite (v : Nat) (s : State) : Answer :=
  if !s.cfgOpen || s.pw.vfEnable || s.inCompat || 63 < v then .next s
  else .next (s.modPw fun w => { w with numVfs := v })

/-! ### Dirty logging (R328, R329) -/

/-- DIRTY_LOG with an action. -/
def dirtyForm (a : Nat) (e : CEntry) : Bool := fld e 71 70 == a

/-- `outside` of an instance's dirty logging, as the result gives it (R148). -/
def State.outsideOf (s : State) (j : InstNo) : Nat := ((s.inst j).dirty.map fun d => b2n d.outside).getD 0

/-- DIRTY_LOG_START (R148, R329); an `action` of 0 is PARAM_INVALID. -/
def execDirtyLogStart (i : InstNo) (slot : BitVec 16) (s : State) : Answer :=
  carryOut i slot 0x49 (fun e => fld e 71 70 < 2) s fun e =>
    match s.tenantOf e with
    | none => .ends s .paramInvalid 0
    | some j =>
      if fld e 71 70 = 0 then .ends s .paramInvalid 0
      else if (s.inst j).dirty.isSome then .ends s .busy (s.outsideOf j)
      else
        .ends (s.modInst j fun n => { n with dirty := some ⟨fld e 191 128, fld e 255 192, fld e 287 256, false, []⟩ }) .cmdOk 0

/-- DIRTY_LOG_SYNC (R148, R329): later writes go to the named bitmap, which starts clear unless it is the active one (DEDUCED, log 69). -/
def execDirtyLogSync (i : InstNo) (slot : BitVec 16) (s : State) : Answer :=
  carryOut i slot 0x49 (dirtyForm 3) s fun e =>
    match s.tenantOf e with
    | none => .ends s .paramInvalid 0
    | some j =>
      let b := fld e 191 128
      .ends (s.modInst j fun n => { n with dirty := n.dirty.map fun d =>
        { d with bitmap := b, pages := if b = d.bitmap then d.pages else [] } }) .cmdOk (s.outsideOf j)

/-- DIRTY_LOG_STOP (R148, R329). -/
def execDirtyLogStop (i : InstNo) (slot : BitVec 16) (s : State) : Answer :=
  carryOut i slot 0x49 (dirtyForm 2) s fun e =>
    match s.tenantOf e with
    | none => .ends s .paramInvalid 0
    | some j => .ends (s.modInst j fun n => { n with dirty := none }) .cmdOk (s.outsideOf j)

end Sys2Proof.Machine
end

