-- ==== Sys2Proof/Machine/Control.lean ====
section
/-!
DEFINITION. The device-wide manager commands: SET_SPLIT (R19, R20, R258), EGRESS_PROGRAM (R381), FIRMWARE_STAGE (R370) and LIFECYCLE
(R384 to R388), each with what it does when the data it reads from host memory has come.
-/
namespace Sys2Proof.Machine

/-! ### SET_SPLIT -/

/-- The movable function that `function` names. -/
def splitFn (n : Nat) : Option SplitFn := [SplitFn.enumeration, .hubManagement, .schedule, .recovery, .treePower][n]?

/-- The function has one mode for the whole device (R19). -/
def SplitFn.wide : SplitFn → Bool
  | .schedule | .recovery => true
  | _ => false

/-- A pool of zone addresses is not empty and holds no address assigned to a device on a root port that the SET_SPLIT does not name
(R148, R243) (DEDUCED, log 102). -/
def State.poolOk (s : State) (named : List PortNo) (first last : Nat) : Bool :=
  decide (1 ≤ first) && decide (first ≤ last) &&
  !(s.devs.any fun (z, d) => decide (first ≤ z) && decide (z ≤ last) && !named.contains d.port)

/-- The root ports that a SET_SPLIT names (R146). -/
def splitPorts (e : CEntry) : List PortNo := if bitOf e 68 then allPorts else [⟨fld e 73 69 % 32, by omega⟩]

/-- The parameters of a SET_SPLIT are suitable (R19, R146, R148). -/
def State.splitOk (s : State) (f : SplitFn) (e : CEntry) : Bool :=
  (!f.wide || bitOf e 68) &&
  (!(f == .enumeration && bitOf e 67) || s.poolOk (splitPorts e) (fld e 107 96) (fld e 119 108)) &&
  (!(f == .recovery && bitOf e 67) || fld e 87 80 != 0)

/-- A change takes the place of one for the same function and port that has not fallen due (R20). -/
def putSplit (l : List Split) (x : Split) : List Split :=
  l.filter (fun y => y.due || y.fn != x.fn || y.port != x.port) ++ [x]

/-- SET_SPLIT (R19, R20, R148): it takes effect at the next frame boundary. -/
def execSetSplit (i : InstNo) (slot : BitVec 16) (s : State) : Answer :=
  carryOut i slot 0x4A anyForm s fun e =>
    match splitFn (fld e 66 64) with
    | none => .ends s .paramInvalid 0
    | some f =>
      if !s.splitOk f e then .ends s .paramInvalid 0
      else
        let mk (p : Option PortNo) : Split :=
          { fn := f, port := p, hw := bitOf e 67, recoverMs := BitVec.ofNat 8 (fld e 87 80), poolFirst := fld e 107 96
            poolLast := fld e 119 108, due := false }
        let named : List (Option PortNo) :=
          if f.wide then [none] else (splitPorts e).map some
        .ends (s.modPl fun l => { l with splits := named.foldl (fun a p => putSplit a (mk p)) l.splits }) .cmdOk 0

/-- Attached positions of a port that have not been reset (R258): the root port, and connected ports of its hubs. -/
def State.attachedOn (s : State) (p : PortNo) : List Pos :=
  (if (s.port p).st == .attached then [rootPos p] else []) ++
  ((s.devs.filter fun (z, d) => z != 0 && d.hub && d.port == p && d.st == .addressed).flatMap fun (z, d) =>
    (d.hports.filter fun (_, x) => bitOf x.word 0 && !bitOf x.word 12).map fun (k, _) => (⟨p, z, k⟩ : Pos)).filter fun q =>
      (s.devAt q).isNone && !s.tree.marks.contains q

/-- Enumeration of a port changes its mode (R258). -/
def State.moveEnum (s : State) (p : PortNo) (x : Split) : State :=
  let old := (s.port p).enumHw
  let s := s.modPort p fun y =>
    { y with enumHw := x.hw, poolFirst := if x.hw then x.poolFirst else y.poolFirst, poolLast := if x.hw then x.poolLast else y.poolLast }
  if old && !x.hw then
    let w := s.tree.waiting.filter fun y => y.pos.port == p
    let s := s.modTree fun t => { t with waiting := t.waiting.filter fun y => y.pos.port != p }
    s.each w fun s y => s.postDevice .attached 0 0 0 y.pos
  else if !old && x.hw then
    let s := match s.dev 0 with
      | some d => if d.port = p && !s.enumBusy p then s.joinEnum d.pos none else s
      | none => s
    let s := if s.enumBusy p || (s.port p).recovering then s
      else s.each ((s.marked p).filter fun q => (s.devAt q).isNone) fun s q => s.joinEnum q none
    (s.each (s.attachedOn p) fun s q => s.joinEnum q none).queueReaddress p
  else s

/-- Hub management of a port changes its mode (R258): in hardware every port of every hub is read. -/
def State.moveHubs (s : State) (p : PortNo) (hw : Bool) : State :=
  let old := (s.port p).hubHw
  let s := s.modPort p fun y => { y with hubHw := hw }
  if !old && hw then
    let all (d : DevRec) : BitVec 16 := BitVec.ofNat 16 (2 ^ (d.hubPorts + 1) - 2)
    { s with devs := s.devs.map fun (z, d) => (z, if d.hub && d.port = p && d.st == .addressed then { d with bits := d.bits ||| all d } else d) }
  else s

/-- Tree power of a port changes its mode (R258): suspended branches with work that needs them resume. -/
def State.moveTree (s : State) (p : PortNo) (hw : Bool) : State :=
  let old := (s.port p).treeHw
  let s := s.modPort p fun y => { y with treeHw := hw }
  if !old && hw then s.wakeWork p else s

/-- A change of split takes effect (R258). -/
def State.applySplit (s : State) (x : Split) : State :=
  match x.fn, x.port with
  | .enumeration, some p => s.moveEnum p x
  | .hubManagement, some p => s.moveHubs p x.hw
  | .treePower, some p => s.moveTree p x.hw
  | .schedule, _ => s.modPl fun l => { l with periodicHw := x.hw }
  | .recovery, _ => s.modPl fun l => { l with recoverHw := x.hw, recoverMs := if x.hw then x.recoverMs else l.recoverMs }
  | _, none => s

/-- SET_SPLIT_TAKE_EFFECT (R20, R258): the changes whose frame boundary has come, in the order they were made. -/
def execSetSplitTakeEffect (s : State) : Answer :=
  if !s.alive then .next s
  else
    let now := s.pl.splits.filter (·.due)
    let s := s.modPl fun l => { l with splits := l.splits.filter fun x => !x.due }
    done (s.each now State.applySplit)

/-! ### EGRESS_PROGRAM (R381) -/

/-- The words of a block of 32-byte entries. -/
def chunks (size : Nat) (data : List Byte) (count : Nat) : List (List Byte) :=
  (List.range count).map fun k => bytesAt data (size * k) size

/-- An egress entry from its 32 bytes. -/
def egrEntry (b : List Byte) : EgrEntry :=
  let w := numAt b 0 8
  ⟨w % 2 ^ 17, ⟨w / 2 ^ 17 % 32, by omega⟩, w / 2 ^ 22 % 32, bytesAt b 8 24⟩

/-- A reserved bit of an egress entry is set. -/
def egrReserved (b : List Byte) : Bool := numAt b 0 8 / 2 ^ 27 != 0

/-- The non-blank entries of a program; none when it is refused. -/
def egrProgram (data : List Byte) (count : Nat) : Option (List EgrEntry) :=
  let bs := chunks 32 data count
  let named := (bs.map egrEntry).filter fun x => x.length != 0
  if bs.any egrReserved || named.any (fun x => 24 < x.length) || !(named.map (·.ep)).Nodup then none else some named

/-- A program replaces the one in force, with the ports that it names. -/
def State.loadEgress (s : State) (l : List EgrEntry) : State :=
  let s := s.modPw fun w => { w with egressProg := l }
  s.each allPorts fun s p => s.modPort p fun x => { x with egressPort := l.any fun y => y.port == p }

/-- The bytes of the program have come. -/
def State.egressData (s : State) (e : CEntry) (data : List Byte) : State × Status :=
  if s.pw.egress then (s, .conflict)
  else match egrProgram data (fld e 205 192) with
    | some l => (s.loadEgress l, .cmdOk)
    | none => (s, .paramInvalid)

/-- EGRESS_PROGRAM (R148, R381): the program is read from host memory. -/
def execEgressProgram (i : InstNo) (slot : BitVec 16) (s : State) : Answer :=
  carryOut i slot 0x4B anyForm s fun e =>
    if fld e 205 192 = 0 then .ends s .paramInvalid 0
    else if s.pw.egress then .ends s .conflict 0
    else .waits (s.hostRead i (fld e 191 128) (32 * fld e 205 192) none none)

/-! ### FIRMWARE_STAGE (R365, R370) -/

/-- The slot that `active` does not name: 0 A, 1 B. -/
def State.stageSlot (s : State) : Bool := !s.boot.dir.active

/-- Flash offset of a firmware slot (R363). -/
def slotOffset (slot : Bool) : Nat := if slot then 0x210000 else 0x10000

/-- An FW_STAGE entry (R391). -/
def State.recordStage (s : State) (slot : Bool) (svn : BitVec 6) (what : BitVec 8) : State :=
  s.record 0x0E [BitVec.ofNat 8 (b2n slot), svn.setWidth 8, what]

/-- FIRMWARE_STAGE with an action. -/
def stageForm (a : Nat) (e : CEntry) : Bool := fld e 65 64 == a

/-- FIRMWARE_STAGE stage (R148, R370); an `action` of 0 is PARAM_INVALID. -/
def execFirmwareStage (i : InstNo) (slot : BitVec 16) (s : State) : Answer :=
  carryOut i slot 0x4C (fun e => fld e 65 64 < 2) s fun e =>
    if fld e 65 64 = 0 || fld e 223 192 = 0 then .ends s .paramInvalid 0
    else if s.boot.staging.isSome then .ends s .busy 0
    else .waits (s.hostRead i (fld e 191 128) (fld e 223 192) none none)

/-- The image to stage has come: refused under R365, or written to the inactive slot. -/
def State.stageData (s : State) (cmd : BitVec 16) (data : List Byte) : State × Option Status :=
  let slot := s.stageSlot
  let svn := BitVec.ofNat 6 (numAt data 0xC 2)
  match fwRefusal data s.pw.minSvn with
  | some _ => (s.recordStage slot svn 1, some .paramInvalid)
  | none =>
    ((s.emit (.flash (slotOffset slot) data)).modBoot fun b => { b with staged := none, staging := some (some cmd, slot, svn) }, none)

/-- Statuses that the end of a failed flash write may take: the specification states none (R370) (DESIGN CHOICE, log 70). -/
def stageFailed (n : Nat) : Status := [Status.paramInvalid, .conflict, .noResources].getD (n % 3) .paramInvalid

/-- FLASH_WRITE_COMPLETE (R370): written and read back, or failed; the status of a failure is open (log 7). -/
def execFlashWriteComplete (ok : Bool) (s : State) : Answer :=
  if !s.runs then .next s
  else match s.boot.staging with
    | none => .next s
    | some (cmd, slot, svn) =>
      let s := s.modBoot fun b => { b with staging := none, staged := if ok then some (slot, svn, false) else none }
      let s := s.recordStage slot svn (if ok then 0 else 2)
      match cmd with
      | none => .next s
      | some c =>
        if ok then done (s.finish 0 c .cmdOk 0) else done (s.takeFree.finish 0 c (stageFailed s.freeNat) 0)

/-- FIRMWARE_STAGE activate (R370): `trial` names the staged slot. -/
def execFirmwareActivate (i : InstNo) (slot : BitVec 16) (s : State) : Answer :=
  carryOut i slot 0x4C (stageForm 2) s fun _ =>
    match s.boot.staged with
    | none => .ends s .paramInvalid 0
    | some (k, svn, _) =>
      let s := (s.writeDir s.boot.dir.active (some k)).modBoot fun b => { b with staged := some (k, svn, true) }
      .ends (s.recordStage k svn 3) .cmdOk 0

/-- FIRMWARE_STAGE discard (R370): `trial` names no slot. -/
def execFirmwareDiscard (i : InstNo) (slot : BitVec 16) (s : State) : Answer :=
  carryOut i slot 0x4C (stageForm 3) s fun _ =>
    match s.boot.staged with
    | none => .ends s .paramInvalid 0
    | some (k, svn, _) =>
      let s := (s.writeDir s.boot.dir.active none).modBoot fun b => { b with staged := none }
      .ends (s.recordStage k svn 4) .cmdOk 0

/-! ### LIFECYCLE (R384 to R388) -/

/-- The state that `target` names. -/
def lcTarget (n : Nat) : Option LcState := [LcState.blank, .provisioned, .field, .fieldOpen, .return_, .scrapped][n]?

/-- What a transition asks for (R385): the type of its record, 0 for none; none for a transition that is not in the table. `bare`
tells a request without a record. -/
def lcRecord (a b : LcState) (bare : Bool) : Option Nat :=
  match a, b with
  | .blank, .provisioned | .provisioned, .provisioned | .fieldOpen, .provisioned => some 1
  | .provisioned, .field => if bare then some 0 else none
  | .field, .fieldOpen => some 2
  | .scrapped, _ => none
  | .return_, .scrapped => some (if bare then 0 else 5)
  | _, .scrapped => some 5
  | .return_, .blank => some 4
  | .return_, _ => none
  | _, .return_ => some 3
  | _, _ => none

/-- Body length of a record type (R386). -/
def bodyLen (t : Nat) : Nat := if t = 1 then 137 else if t = 2 then 144 else 128

/-- The bytes of the nonce (R398). -/
def State.nonceBytes (s : State) : List Byte := leBytes 32 s.pw.nonce.toNat

/-- Why a record of a type is not accepted (R386, R388), coded as WAHUS_FAIL codes it (R391); none when it is accepted. -/
def State.authRefusal (s : State) (t : Nat) (r : List Byte) : Option (BitVec 8) :=
  let head := numAt r 0 1 == t && numAt r 1 1 == 1 && numAt r 2 2 == 0 && numAt r 12 4 == bodyLen t && decide (r.length = 16 + bodyLen t)
  let signed := r.take (16 + bodyLen t - 96)
  let sig := r.drop (16 + bodyLen t - 96)
  if !head then some 1
  else if numAt r 4 8 != Config.serial.toNat then some 2
  else if t = 1 then (if (Config.unwrapSiteKey (r.drop 16)).isSome then none else some 1)
  else if bytesAt r 16 32 != s.nonceBytes then some 3
  else if t = 2 && (match s.pw.siteKey with
      | some k => numAt r 48 16 != (Config.cmac (Config.sealingKey k) (leBytes 8 Config.serial.toNat ++ s.nonceBytes)).toNat
      | none => true) then some 4
  else if !Config.authorityVerify signed sig then some 5
  else none

/-- The life cycle moves (R385): the keys are erased, every instance's state is erased, and the controller resets through PRIME;
leaving FIELD_OPEN or RETURN resets the TAP (R389). -/
def State.changeLife (s : State) (b : LcState) (key : Option (BitVec 256)) : State :=
  let a := s.pw.lcState
  let s := s.record 0x0C [BitVec.ofNat 8 a.ctorIdx, BitVec.ofNat 8 b.ctorIdx]
  let s := s.modPw fun w =>
    { w with
      lcState := b
      siteKey := match b with
        | .provisioned => key
        | .field => w.siteKey
        | _ => none
      deviceKey := w.deviceKey && b != .scrapped
      tap := if a == .fieldOpen || a == .return_ then .idcode else w.tap }
  s.resetPrime 6

/-- A Wahus attempt fails (R388): it is counted, while attempts are left, and the nonce is renewed (DEDUCED, log 71). -/
def State.wahusFail (s : State) (code : BitVec 8) : State :=
  let s := s.record 0x0D [code]
  let nonce := BitVec.ofNat 256 s.freeNat
  s.takeFree.modPw fun w => { w with whsLeft := w.whsLeft - 1, nonce := nonce }

/-- The record of a LIFECYCLE has come: accepted, with the COMMAND event before the change, or refused. -/
def State.lifeData (s : State) (i : InstNo) (slot : BitVec 16) (b : LcState) (t : Nat) (r : List Byte) : State :=
  match s.authRefusal t r with
  | some code => (if t = 2 then s.wahusFail code else s).finish i slot .paramInvalid 0
  | none => (s.finish i slot .cmdOk 0).changeLife b (if t = 1 then Config.unwrapSiteKey (r.drop 16) else none)

/-- LIFECYCLE (R148, R385, R388): the record, if the transition needs one, is read. -/
def execLifecycle (i : InstNo) (slot : BitVec 16) (s : State) : Answer :=
  carryOut i slot 0x4D anyForm s fun e =>
    let len := fld e 207 192
    match lcTarget (fld e 67 64) with
    | none => .ends s .paramInvalid 0
    | some b =>
      match lcRecord s.pw.lcState b (len == 0) with
      | none => .ends s .paramInvalid 0
      | some 0 => .waits ((s.finish i slot .cmdOk 0).changeLife b none)
      | some t =>
        if t = 2 && s.pw.whsLeft = 0 then .ends (s.wahusFail 6) .paramInvalid 0
        else if len = 0 then .waits (s.lifeData i slot b t [])
        else .waits (s.hostRead i (fld e 191 128) len none none)

end Sys2Proof.Machine
end

