-- ==== Sys2Proof/Machine/Registers.lean ====
section
/-!
DEFINITION. REGISTER_WRITE: the registers by their offsets (R404 to R406), with the access types of R7 and what each register's table
says of a write; the forerunner window (R411, R412); and the bits of configuration space that the machine holds.

An offset below 2^20 is an offset in BAR0 of the instance's function. An offset of 2^20 or more is 2^20 plus an offset in its
configuration space. A write at an offset with a row of its own has the effect of that row.
-/
namespace Sys2Proof.Machine

/-- The state after a write that has a row of its own. -/
def State.through (s : State) (f : State → Answer) : State :=
  match f s with
  | .next t => t
  | _ => s

/-- Bits [63:n] of a word with the low bits 0. -/
def highBits (w : Word) (n : Nat) : Word := BitVec.ofNat 64 (w.toNat / 2 ^ n * 2 ^ n)

/-- A vector field as a write leaves it: on a virtual function one above 15 is not taken (R130, R285, R357). -/
def vectorField (i : InstNo) (old : BitVec 6) (v : Nat) : BitVec 6 := if i != 0 && decide (15 < v) then old else BitVec.ofNat 6 v

/-! ### The instance window (R405) -/

/-- RNG_CMD_CFG (R128): a write that sets or clears `enable` where it may not is ignored (DEDUCED, log 78). -/
def State.writeCmdCfg (s : State) (i : InstNo) (w : Word) : State :=
  let n := s.inst i
  if n.cmdEn then (if bitOf w 7 then s else s.stopCmdRing i)
  else if bitOf w 7 && (!(s.ring i 0).enable || (i == 0 && !s.mem.bsLock)) then s
  else
    let s := if 12 < fld w 3 0 then s else s.modInst i fun n => { n with cmdSize := BitVec.ofNat 4 (fld w 3 0) }
    if bitOf w 7 then s.startCmdRing i else s

/-- RNG_EVT_CFG[e] (R130). -/
def State.writeEvtCfg (s : State) (i : InstNo) (e : RingNo) (w : Word) : State :=
  let r := s.ring i e
  if r.enable && !bitOf w 8 && s.ringNeeded i e then s
  else
    let s := s.modRing i e fun r =>
      { r with
        modInterval := BitVec.ofNat 16 (fld w 63 48)
        modCount := if fld w 47 40 = 0 then r.modCount else BitVec.ofNat 8 (fld w 47 40)
        vector := vectorField i r.vector (fld w 37 32)
        size := if r.enable || 12 < fld w 3 0 then r.size else BitVec.ofNat 4 (fld w 3 0) }
    if bitOf w 8 then s.startEvtRing i e else if r.enable then s.stopEvtRing i e else s

/-- The RNG block (R127 to R132). -/
def State.writeRng (s : State) (i : InstNo) (off : Nat) (w : Word) : State :=
  if off = 0x000 then (if (s.inst i).cmdEn then s else s.modInst i fun n => { n with cmdBase := highBits w 6 })
  else if off = 0x008 then s.writeCmdCfg i w
  else if 0x040 ≤ off && off < 0x140 then
    let e : RingNo := ⟨(off - 0x40) / 0x20 % 8, by omega⟩
    match (off - 0x40) % 0x20 with
    | 0x00 => if (s.ring i e).enable then s else s.modRing i e fun r => { r with base := highBits w 6 }
    | 0x08 => s.writeEvtCfg i e w
    | 0x10 => s.through (execEventRingHeadWrite i e (w.setWidth 16))
    | 0x18 => if (s.ring i e).enable then s else s.modRing i e fun r => { r with mirror := highBits w 3 }
    | _ => s
  else if i != 0 then s
  else if off = 0x140 then s.writeBstore w
  else if off = 0x148 then s.modMem fun m => { m with misses := BitVec.ofNat 32 (fld w 63 32) }
  else s

/-- The SKM block (R198 to R202). -/
def State.writeSkm (s : State) (i : InstNo) (off : Nat) (w : Word) : State :=
  if off = 0x000 then
    s.modInst i fun n =>
      { n with
        flBase := if n.flEn then n.flBase else highBits w 12
        flSize := if n.flEn || 10 < fld w 3 0 then n.flSize else BitVec.ofNat 4 (fld w 3 0)
        flEn := bitOf w 4 }
  else if off = 0x008 then
    s.modInst i fun n =>
      { n with badDesc := BitVec.ofNat 16 (fld w 63 48), overlong := BitVec.ofNat 16 (fld w 47 32), lateWalks := BitVec.ofNat 16 (fld w 31 16) }
  else if i != 0 then s
  else if off = 0x200 then s.modPl fun l => { l with lateBuilds := BitVec.ofNat 32 (fld w 63 32) }
  else if 0x300 ≤ off && off < 0x400 then
    s.modPort ⟨(off - 0x300) / 8 % 32, by omega⟩ fun x =>
      { x with svcMissed := BitVec.ofNat 32 (fld w 63 32), skimsLost := BitVec.ofNat 16 (fld w 31 16), overrunMax := BitVec.ofNat 16 (fld w 15 0) }
  else s

/-- DSP_CFG (R306, R310). -/
def State.writeDspCfg (s : State) (w : Word) : State := s.modDisp fun d => { d with windowFrames := BitVec.ofNat 10 (fld w 9 0) }

/-- The DSP block (R307 to R311). -/
def State.writeDsp (s : State) (i : InstNo) (off : Nat) (w : Word) : State :=
  if off = 0x000 then s.through (execDspRelease i w)
  else if off = 0x008 then
    s.modInst i fun n => { n with badReleases := BitVec.ofNat 16 (fld w 63 48), gateStrays := BitVec.ofNat 16 (fld w 47 32) }
  else if 0x100 ≤ off && off < 0x300 then s.through (execDspQcfgWrite i ⟨(off - 0x100) / 8 % 64, by omega⟩ w)
  else if i != 0 then s
  else if 0x500 ≤ off && off < 0x580 then s.through (execDspGroupWrite ⟨(off - 0x500) / 8 % 16, by omega⟩ w)
  else if 0x580 ≤ off && off < 0x780 then s.through (execDspQmapWrite ⟨(off - 0x580) / 8 % 64, by omega⟩ w)
  else if off = 0x780 then s.writeDspCfg w
  else if off = 0x788 then
    s.modDisp fun d => { d with trace := { d.trace with base := if d.trace.enable then d.trace.base else highBits w 12 } }
  else if off = 0x790 then s.through (execDspTraceEnable w)
  else if off = 0x798 then s.through (execDspTraceHeadWrite w)
  else s

/-- A channel's settings (R285): ignored while the channel is not IDLE. -/
def Chan.set (x : Chan) (i : InstNo) (reg : Nat) (w : Word) : Chan :=
  if x.cstate != .idle then x
  else match reg with
    | 0x08 => { x with progWords := BitVec.ofNat 16 (fld w 31 16), vecEn := bitOf w 14, vector := vectorField i x.vector (fld w 13 8)
                       evtRing := ⟨fld w 2 0 % 8, by omega⟩ }
    | 0x10 => { x with progAddr := highBits w 3, store := bitOf w 0 }
    | 0x18 => { x with paramAddr := highBits w 5 }
    | 0x20 => { x with tag := w }
    | _ => x

/-- The STN block (R284 to R287): a channel's registers by its owner (R262) (DEDUCED, log 81). -/
def State.writeStn (s : State) (i : InstNo) (off : Nat) (w : Word) : State :=
  if off < 0x400 then
    let c : ChanNo := ⟨off / 0x40 % 16, by omega⟩
    let reg := off % 0x40
    if (s.chan c).owner != i then s
    else if reg = 0 then
      let s := if bitOf w 0 then s.through (execStencilStart i c) else s
      if bitOf w 1 then s.through (execStencilStop i c) else s
    else if reg = 0x28 then s.through (execStnCountWrite i c ⟨w, 0⟩)
    else if reg = 0x30 then s.modChan c fun x => { x with startIgnored := BitVec.ofNat 8 (fld w 15 8) }
    else s.modChan c (·.set i reg w)
  else if i == 0 && decide (off < 0x480) then s.through (execStnOwnerWrite ⟨(off - 0x400) / 8 % 16, by omega⟩ w)
  else s

/-- HWK_SCRUB (R225, R236). -/
def State.writeScrub (s : State) (w : Word) : State := s.modMem fun m => { m with passS := BitVec.ofNat 8 (fld w 7 0) }

/-- The HWK block (R230, R234 to R236). -/
def State.writeHwk (s : State) (i : InstNo) (off : Nat) (w : Word) : State :=
  if off = 0x0008 then
    s.modInst i fun n => { n with carveRejects := BitVec.ofNat 16 (fld w 63 48), ueHits := BitVec.ofNat 16 (fld w 47 32) }
  else if 0x2000 ≤ off then s.through (execHwkRegionWrite i ((off - 0x2000) / 8) w)
  else if i != 0 then s
  else if off = 0x0010 then s.modMem fun m => { m with ceCount := BitVec.ofNat 32 (fld w 63 32), ueCount := BitVec.ofNat 16 (fld w 31 16) }
  else if off = 0x0018 then s.modMem fun m => { m with eccValid := m.eccValid && !bitOf w 63 }
  else if off = 0x0020 then s.writeScrub w
  else s

/-- The instance counter block (R353 to R357). -/
def State.writeICnt (s : State) (i : InstNo) (off : Nat) (w : Word) : State :=
  if off < 0x080 then
    let j : Fin 4 := ⟨off / 0x20 % 4, by omega⟩
    match off % 0x20 with
    | 0x00 => s.through (execCntSelWrite (.inst i) ⟨j.val, by omega⟩ w)
    | 0x08 => s.through (execCntValWrite (.inst i) ⟨j.val, by omega⟩ ⟨w, 0⟩)
    | 0x10 => s.modInst i fun n => { n with ctrs := vset n.ctrs j { vget n.ctrs j with lo := w } }
    | 0x18 => s.modInst i fun n => { n with ctrs := vset n.ctrs j { vget n.ctrs j with hi := w } }
    | _ => s
  else if off = 0x088 then s.modInst i fun n => { n with ctrVector := vectorField i n.ctrVector (fld w 13 8) }
  else if off = 0x090 then s.through (execCounterSampleClear (.inst i) w)
  else s

/-- The entry of a vector, masked after reset. -/
def Inst.msixAt (n : Inst) (v : Nat) : MsixEntry := (kget n.msix v).getD ⟨0, 0, true⟩

/-- One 4-byte write to an MSI-X table of `count` entries (R122, R407): the message address, its data, or the vector control. -/
def State.writeMsix (s : State) (i : InstNo) (count off : Nat) (w : BitVec 32) : State :=
  let v := off / 16
  if count ≤ v then s
  else
    let put (f : MsixEntry → MsixEntry) : State := s.modInst i fun n => { n with msix := kset n.msix v (f (n.msixAt v)) }
    match off % 16 with
    | 0 => put fun m => { m with addr := BitVec.ofNat 64 (m.addr.toNat / 2 ^ 32 * 2 ^ 32 + w.toNat / 4 * 4) }
    | 4 => put fun m => { m with addr := BitVec.ofNat 64 (w.toNat * 2 ^ 32 + m.addr.toNat % 2 ^ 32) }
    | 8 => put fun m => { m with data := w }
    | 12 => (put fun m => { m with masked := bitOf w 0 }).sendPending i
    | _ => s

/-- The low and the high half of a word. -/
def lowHalf (w : Word) : BitVec 32 := w.setWidth 32
def highHalf (w : Word) : BitVec 32 := BitVec.ofNat 32 (fld w 63 32)

/-- An 8-byte write at an aligned offset of the instance window (R405, R407). -/
def State.writeWindow (s : State) (i : InstNo) (off : Nat) (w : Word) : State :=
  let o := off % 0x1000
  match off / 0x1000 with
  | 0x0 => s.writeRng i o w
  | 0x1 => s.writeSkm i o w
  | 0x2 => s.writeDsp i o w
  | 0x3 => s.writeStn i o w
  | 0x4 | 0x5 | 0x6 | 0x7 => s.writeHwk i (off - 0x4000) w
  | 0x8 => s.writeICnt i o w
  | 0xA => if o = 0 then s.through (execDoorbell i w) else s.stray i
  | 0xC => (s.writeMsix i (vectors i) o (lowHalf w)).writeMsix i (vectors i) (o + 4) (highHalf w)
  | _ => s

/-! ### The physical function's blocks (R404) -/

/-- `max_speed` after a write (R85, R414): 0b11, and in COMPAT 0b10, is not taken. -/
def State.maxSpeedField (s : State) (old : BitVec 2) (v : Nat) : BitVec 2 :=
  if v = 3 || (v = 2 && s.inCompat) then old else BitVec.ofNat 2 v

/-- Reservations of a port that has not run since PRIME follow `max_speed` (R172). -/
def State.convertIdle (s : State) (p : PortNo) (a b : Speed) : State :=
  if (s.port p).reckoned != .none || a == b then s
  else
    s.each allInsts fun s i =>
      if vget (s.inst i).units p = 0 then s
      else s.modInst i fun n => { n with units := vset n.units p (convertUnits a b (vget n.units p)) }

/-- PRT_CTRL[n] (R85). -/
def State.writePrtCtrl (s : State) (p : PortNo) (w : Word) : State :=
  let old := (s.port p).topSpeed
  let s := s.modPort p fun x =>
    { x with
      wakeEn := bitOf w 16
      maxSpeed := s.maxSpeedField x.maxSpeed (fld w 15 14)
      mgrHold := bitOf w 13
      faultBlank := if fld w 12 8 = 0 then x.faultBlank else BitVec.ofNat 5 (fld w 12 8)
      pwrRetryMax := BitVec.ofNat 4 (fld w 7 4)
      pwrRetryGap := BitVec.ofNat 4 (fld w 3 0) }
  s.convertIdle p old (s.port p).topSpeed

/-- The PRT block (R85 to R89) (DEDUCED, log 79). -/
def State.writePrt (s : State) (off : Nat) (w : Word) : State :=
  if 0x800 ≤ off then s
  else
    let p : PortNo := ⟨off / 0x40 % 32, by omega⟩
    match off % 0x40 with
    | 0x00 => s.writePrtCtrl p w
    | 0x10 => s.modPort p fun x => { x with change := x.change &&& ~~~(w.setWidth 8) }
    | 0x20 => s.modPort p fun x =>
        { x with strayPkts := BitVec.ofNat 16 (fld w 63 48), corruptPkts := BitVec.ofNat 16 (fld w 47 32)
                 trainFails := BitVec.ofNat 16 (fld w 31 16), faultTrips := BitVec.ofNat 16 (fld w 15 0) }
    | _ => s

/-- The TRE block (R259 to R261). -/
def State.writeTre (s : State) (off : Nat) (w : Word) : State :=
  if off = 0 then (if fld w 15 0 = 0 then s else s.modTree fun t => { t with idleMs := BitVec.ofNat 16 (fld w 15 0) })
  else if 0x100 ≤ off && off < 0x200 then
    s.modPort ⟨(off - 0x100) / 8 % 32, by omega⟩ fun x =>
      { x with hubPollErrs := BitVec.ofNat 8 (fld w 31 24), enumFails := BitVec.ofNat 8 (fld w 23 16) }
  else s

/-- The TRW block (R230, R231, R233). -/
def State.writeTrw (s : State) (off : Nat) (w : Word) : State :=
  if 0x600 ≤ off then s
  else
    let k : TrowelNo := ⟨off / 0x20 % 48, by omega⟩
    match off % 0x20 with
    | 0x00 =>
      let level (s : State) : State := s.modTrowel k fun x => { x with levelEn := bitOf w 1 }
      if !bitOf w 0 then (level s).modTrowel k (·.return)
      else if s.canRelieve k then (level s).oosRequest k
      else s.oosRequest k
    | 0x10 => s.modTrowel k fun x => { x with levelled := BitVec.ofNat 32 (fld w 63 32), taken := BitVec.ofNat 32 (fld w 31 0) }
    | _ => s

/-- The device-wide CNT block (R353 to R357). -/
def State.writeCnt (s : State) (off : Nat) (w : Word) : State :=
  if off < 0x100 then
    let j : Fin 8 := ⟨off / 0x20 % 8, by omega⟩
    match off % 0x20 with
    | 0x00 => s.through (execCntSelWrite .device j w)
    | 0x08 => s.through (execCntValWrite .device j ⟨w, 0⟩)
    | 0x10 => s.modCnt fun c => { c with ctrs := vset c.ctrs j { vget c.ctrs j with lo := w } }
    | 0x18 => s.modCnt fun c => { c with ctrs := vset c.ctrs j { vget c.ctrs j with hi := w } }
    | _ => s
  else if off = 0x108 then s.modCnt fun c => { c with vector := BitVec.ofNat 6 (fld w 13 8) }
  else if off = 0x118 then s.through (execCounterSampleClear .device w)
  else s

/-- The PWR block (R397, R399). -/
def State.writePwr (s : State) (off : Nat) (w : Word) : State :=
  if off = 0x008 then
    s.modPw fun x =>
      { x with bmcResetEn := bitOf w 8, warnStep := if fld w 2 0 = 7 then x.warnStep else BitVec.ofNat 3 (fld w 2 0) }
  else if off = 0x030 then { s with snag := { s.snag with index := lowHalf w } }
  else s

/-- An 8-byte write at an aligned offset of the physical function's own blocks (R404) (DEDUCED, log 80). -/
def State.writePf (s : State) (off : Nat) (w : Word) : State :=
  let o := off % 0x1000
  match off / 0x1000 with
  | 0x10 => s.writePrt o w
  | 0x11 => s.writeTre o w
  | 0x12 => s.writeTrw o w
  | 0x14 => s.writeCnt o w
  | 0x15 => if o = 0 then s.writeMtrCfg w else s
  | 0x16 => s.writePwr o w
  | _ => s

/-- A write to the native BAR0 (R404, R405, R407): 8 bytes at an aligned offset, or 4 bytes in the MSI-X table. Any other is ignored,
and in the doorbell page counted (R93). -/
def State.writeNative (s : State) (i : InstNo) (off : Nat) (w : Word) : State :=
  if off % 8 = 0 then (if off < 0x10000 then (s.written i).writeWindow i off w else if i = 0 then s.writePf off w else s)
  else if off / 0x1000 = 0xA then (s.written i).stray i
  else if off / 0x1000 = 0xC && off % 4 = 0 then (s.written i).writeMsix i (vectors i) (off % 0x1000) (lowHalf w)
  else s

/-! ### The forerunner window (R411 to R414) -/

/-- Half of a register replaced. -/
def half (old : Word) (hi : Bool) (w : BitVec 32) : Word :=
  if hi then BitVec.ofNat 64 (w.toNat * 2 ^ 32 + old.toNat % 2 ^ 32)
  else BitVec.ofNat 64 (old.toNat / 2 ^ 32 * 2 ^ 32 + w.toNat)

/-- RNG_EVT_CFG as it reads. -/
def EvtRing.cfg (r : EvtRing) : Word :=
  BitVec.ofNat 64 (pack [(0, 4, r.size.toNat), (8, 1, b2n r.enable), (32, 6, r.vector.toNat), (40, 8, r.modCount.toNat),
    (48, 16, r.modInterval.toNat)])

/-- RNG_BSTORE as it reads. -/
def State.bstore (s : State) : Word := BitVec.ofNat 64 (s.mem.bsBase.toNat + b2n s.mem.bsLock)

/-- PRT_ERRCNT as it reads. -/
def Port.errcnt (x : Port) : Word :=
  BitVec.ofNat 64 (pack [(0, 16, x.faultTrips.toNat), (16, 16, x.trainFails.toNat), (32, 16, x.corruptPkts.toNat), (48, 16, x.strayPkts.toNat)])

/-- HWK_REGION as it reads. -/
def Region.word (r : Region) : Word := BitVec.ofNat 64 (pack [(0, 16, r.base), (32, 16, r.units), (63, 1, b2n r.valid)])

/-- The event ring registers of the window. -/
def State.writeForerunnerRing (s : State) (e : RingNo) (reg : Nat) (w : BitVec 32) : State :=
  let r := s.ring 0 e
  let put (at' : Nat) (x : Word) : State := s.writeRng 0 (0x40 + 0x20 * e.val + at') x
  match reg with
  | 0x00 => put 0x00 (half r.base false w)
  | 0x04 => put 0x00 (half r.base true w)
  | 0x08 => put 0x08 (half r.cfg false w)
  | 0x0C => put 0x08 (half r.cfg true w)
  | 0x10 => put 0x10 (w.setWidth 64)
  | 0x14 => put 0x18 (half r.mirror false w)
  | 0x18 => put 0x18 (half r.mirror true w)
  | _ => s

/-- A 4-byte write to the forerunner window (R411, R412); one of 8 bytes is two of these (DEDUCED, log 148). -/
def State.writeForerunner (s : State) (off : Nat) (w : BitVec 32) : State :=
  if off % 4 != 0 then s
  else if off = 0x0010 then s.writeRng 0 0x000 (half (s.inst 0).cmdBase false w)
  else if off = 0x0014 then s.writeRng 0 0x000 (half (s.inst 0).cmdBase true w)
  else if off = 0x0018 then s.writeRng 0 0x008 (w.setWidth 64)
  else if off = 0x0028 then s.writeRng 0 0x140 (half s.bstore false w)
  else if off = 0x002C then s.writeRng 0 0x140 (half s.bstore true w)
  else if 0x0040 ≤ off && off < 0x00C0 then s.writeForerunnerRing ⟨(off - 0x40) / 0x20 % 8, by omega⟩ ((off - 0x40) % 0x20) w
  else if 0x0100 ≤ off && off < 0x0200 then
    let n := (off - 0x100) / 0x10
    let p : PortNo := ⟨n % 32, by omega⟩
    match off % 0x10 with
    | 0x0 => s.writePrt (0x40 * n) (w.setWidth 64)
    | 0x8 => s.writePrt (0x40 * n + 0x10) (w.setWidth 64)
    | 0xC => s.writePrt (0x40 * n + 0x20) (half (s.port p).errcnt false w)
    | _ => s
  else if off = 0x0400 then s.through (execFDoorbell w)
  else if 0x1000 ≤ off && off < 0x1800 then
    let d := (off - 0x1000) / 8
    let old := ((kget (s.inst 0).regions d).map Region.word).getD 0
    s.writeHwk 0 (0x2000 + 8 * d) (half old (off % 8 = 4) w)
  else if 0x8000 ≤ off && off < 0x9000 then s.writeMsix 0 16 (off - 0x8000) w
  else s

/-! ### Configuration space (R401) -/

/-- A function in D3hot with waiting events and PME_En set signals PME (R125). -/
def State.signalPme (s : State) (i : InstNo) : State :=
  let n := s.inst i
  if n.d3hot && n.pmeEn && !n.waiting.isEmpty then (s.modPw fun w => { w with pme := true }).emit (.pme i) else s

/-- A write to the BARs of the physical function (R402, R404, R411): BAR0 is 64 bits wide and 128 KiB long, in COMPAT 32 bits wide and
64 KiB long; VF BAR0 is 64 bits wide and 64 KiB long. -/
def State.writeBars (s : State) (off : Nat) (w : BitVec 32) : State :=
  let low (b old : Word) (n : Nat) : Word := half old false (BitVec.ofNat 32 (b.toNat / 2 ^ n * 2 ^ n))
  s.modPw fun x =>
    match off with
    | 0x010 => { x with bar0 := low (w.setWidth 64) x.bar0 (if s.inCompat then 16 else 17) }
    | 0x014 => if s.inCompat then x else { x with bar0 := half x.bar0 true w }
    | 0x1A0 => if s.inCompat then x else { x with sysPage := w }
    | 0x1A4 => if s.inCompat then x else { x with vfBar := low (w.setWidth 64) x.vfBar 16 }
    | 0x1A8 => if s.inCompat then x else { x with vfBar := half x.vfBar true w }
    | _ => x

/-- A write to configuration space: Memory Space Enable at 0x004, PME_En at 0x084, MSI-X Enable and Function Mask at 0x090, and on the
physical function the BARs, and VF Memory Space Enable at 0x188. Their places in their capabilities are PRESUMED (PCI Express; log 83). -/
def State.writeConfig (s : State) (i : InstNo) (off : Nat) (w : Word) : State :=
  match off with
  | 0x010 | 0x014 | 0x1A0 | 0x1A4 | 0x1A8 => if i = 0 then s.writeBars off (lowHalf w) else s
  | 0x004 => if i = 0 then s.modInst 0 fun n => { n with memSpace := bitOf w 1 } else s
  | 0x084 => (s.modInst i fun n => { n with pmeEn := bitOf w 8 }).signalPme i
  | 0x090 => (s.modInst i fun n => { n with msixEn := bitOf w 31, funcMask := bitOf w 30 }).sendPending i
  | 0x188 => if i = 0 && !s.inCompat then s.each allTenants fun s j => s.modInst j fun n => { n with memSpace := bitOf w 3 } else s
  | _ => s

/-- REGISTER_WRITE (R7, R404 to R414). -/
def execRegisterWrite (i : InstNo) (off : Nat) (w : Word) (s : State) : Answer :=
  if 2 ^ 20 ≤ off then
    if s.cfgOpen && (i == 0 || (s.inst i).st != .disabled) then done (s.writeConfig i (off - 2 ^ 20) w) else .next s
  else if !s.regsOpen i then
    if off = 0x16030 && i = 0 then s.through (execSngIndexWrite w) |> .next else .next s
  else if s.inCompat then done ((s.written 0).writeForerunner off (lowHalf w))
  else done (s.writeNative i off w)

end Sys2Proof.Machine
end

