-- ==== Sys2Proof/Machine/Power.lean ====
section
/-!
DEFINITION. The shedding ladder (R377 to R379), the egress override (R380 to R383), D3hot and STANDBY (R14, R125, R374), the end of
PRIME (R368, R369, R414), warm resets (R372), the removal of the main supplies (R375, R423), and SMBUS_PORT_OFF (R395).
-/
namespace Sys2Proof.Machine

/-! ### The egress override (R380 to R383) -/

/-- Port `p` holds an active entry's endpoint (R374, R381). -/
def State.activeOn (s : State) (p : PortNo) : Bool := s.activeEntries.any fun x => x.port == p

/-- Step 1 of R382: power is held on egress ports, and UNPOWERED ones are powered on, which is an order to their power (R160). -/
def State.egressPower (s : State) : State :=
  s.each allPorts fun s p =>
    if !(s.port p).egressPort || (s.port p).st == .held then s
    else
      let s := s.modPort p fun x => { x with egressHold := true }
      if (s.port p).st == .unpowered then (s.powerOrdered p).powerOn p else s

/-- Step 2 of R382 for a root port: a suspend pending or in progress is undone; in STANDBY only for ports with active entries (R374). -/
def State.egressResume (s : State) (p : PortNo) : State :=
  if !(s.port p).egressPort || (s.pw.mode == .standby && !s.activeOn p) then s
  else match (s.port p).st with
    | .enabled => if (s.port p).suspendPending then (s.modPort p fun x => { x with suspendPending := false }).settlePort p else s
    | .suspending => s.resumeEarly p
    | .suspended => s.startResume p
    | _ => s

/-- The endpoint of an active entry with its slot. -/
def State.entryEp (s : State) (x : EgrEntry) : Option (Nat × Ep) :=
  let k := x.ep + (s.inst 0).epBase
  (s.ep k).map fun e => (k, e)

/-- Step 2 of R382 for the branches above an active entry's endpoint. -/
def State.egressBranch (s : State) (x : EgrEntry) : State :=
  match (s.entryEp x).bind fun y => s.epDev y.2 with
  | none => s
  | some d =>
    s.each (s.shutPorts d.pos) fun s h =>
      if s.tree.procs.any fun y => y.pos.hub == h.1 && (y.pos.hport == h.2 || y.pos.hport == 0) then s
      else s.treeAct none h.1 h.2 actResume

/-- Step 3 of R382: a halted endpoint's clear-halt exchange begins. -/
def State.egressUnhalt (s : State) (k : Nat) (e : Ep) : State :=
  if e.st == .halted && !e.recovering then (s.modEp k fun e => { e with recovering := true }).startUnhalt (.unhaltEgress k) e else s

/-- What the override does as it takes force (R382): while the controller is halted only step 1; payloads go from the next cut-off
(DEDUCED, log 89). -/
def State.egressBegin (s : State) : State :=
  let s := s.egressPower
  if s.pw.halted then s
  else
    let s := s.each allPorts State.egressResume
    let s := s.each s.activeEntries State.egressBranch
    s.each s.activeEntries fun s x => match s.entryEp x with
      | some (k, e) => s.egressUnhalt k e
      | none => s

/-- EGRESS_N_ASSERT (R380, R382): recognised in every mode but OFF; in PRIME nothing applies, in RETAIN step 1. -/
def execEgressNAssert (s : State) : Answer :=
  if s.pw.mode == .off || s.pw.egress then .next s
  else
    let s := (s.record 0x0A [1]).modPw fun w => { w with egress := true }
    match s.pw.mode with
    | .prime => .next s
    | .retain => .next s.egressPower
    | _ => done s.egressBegin

/-- EGRESS_N_DEASSERT (R383): the power holds go; endpoints at their threshold halt at the next cut-off. -/
def execEgressNDeassert (s : State) : Answer :=
  if s.pw.mode == .off || !s.pw.egress then .next s
  else
    let s := (s.record 0x0A [0]).modPw fun w => { w with egress := false }
    .next (s.each allPorts fun s p => s.modPort p fun x => { x with egressHold := false })

/-- EGRESS_UNHALT_RETRY (R382): the exchange of an active entry's endpoint is tried again. -/
def execEgressUnhaltRetry (ep : Nat) (s : State) : Answer :=
  if !s.alive || !s.egressNames ep then .next s
  else match s.ep ep with
    | some e => done (s.egressUnhalt ep e)
    | none => .next s

/-! ### The shedding ladder (R377 to R379) -/

/-- The readings come in; the temperature cause of steps 1 to 3 holds from 115 °C until below 110 °C (R377). -/
def State.sense (s : State) (v : Sensors) : State :=
  s.modPw fun w =>
    { w with sens := v, hot := if 115 ≤ v.tempC then true else if v.tempC < 110 then false else w.hot }

/-- The causes that hold step `k` (R377), one bit each as SHED_STEP gives them (R391). A cause of a deeper step holds every step above
it (R378). -/
def Power.causes (w : Power) (k : Nat) : Nat :=
  let v := w.sens
  let core : Bool := decide (v.coreMv + 3 * (k - 1) < 730)
  let sram : Bool := decide (v.sramMv + 3 * (k - 1) < 780)
  let warn : Bool := v.warnLow && decide (k ≤ 6) && decide (k ≤ w.warnStep.toNat)
  let temp : Bool := (w.hot && decide (k ≤ 3)) || decide (125 ≤ v.tempC)
  b2n core + 2 * b2n sram + 4 * b2n warn + 8 * b2n temp + 16 * b2n v.otherLow

/-- VDD_CORE and VDD_SRAM stand at the retrace levels of step `k` (R377). -/
def Power.retraced (w : Power) (k : Nat) : Bool :=
  decide (740 ≤ w.sens.coreMv + 3 * (k - 1)) && decide (790 ≤ w.sens.sramMv + 3 * (k - 1))

/-- A SHED_STEP entry (R391). -/
def State.recordShed (s : State) (old new causes : Nat) : State :=
  s.record 0x09 [BitVec.ofNat 8 old, BitVec.ofNat 8 new, BitVec.ofNat 8 causes]

/-- A THERMAL entry (R391) (DEDUCED, log 87). -/
def State.recordThermal (s : State) (k : Nat) (engaged : Bool) : State :=
  s.record 0x10 (leBytes 2 (BitVec.ofInt 16 s.pw.sens.tempC).toNat ++ [BitVec.ofNat 8 k, BitVec.ofNat 8 (b2n engaged)])

/-- Step 4 engages (R216, R282): floaters that hold no port drain, and channels 8 to 15 stop and are gated. -/
def State.gateFour (s : State) : State :=
  let s := s.gateIdle.modMem fun m => { m with hiGated := true }
  s.each (allChans.filter fun c => decide (8 ≤ c.val)) fun s c =>
    if (s.chan c).cstate == .pending then s else s.stopChan c kStoppedShed

/-- Step 4 retraces (R216, R219): the gated floaters return, but for those that the manager has taken out of service meanwhile (R231). -/
def State.ungateFour (s : State) : State :=
  let s := s.each floaters fun s k =>
    let w := s.trowel k
    if w.tstate == .gatedShed && w.oosReq then s.modTrowel k fun w => { w with tstate := .outOfService }
    else if w.tstate == .gatedShed || (w.tstate == .draining && !w.oosReq) then s.modTrowel k (·.check) else s
  s.modMem fun m => { m with hiGated := false }

/-- The action of step `k` (R378). Steps 1, 3 and 6 act where `shedStep` and `acted` are read (R65, R68, R156, R167, R188). -/
def State.actStep (s : State) (k : Nat) : State :=
  let s := s.modPw fun w => { w with acted := k }
  match k with
  | 2 => (s.modCnt fun c => { c with shedStopped := true }).modDisp fun d => { d with trace := { d.trace with stopped := true } }
  | 4 => s.gateFour
  | 5 => s.each allTenants fun s i => if (s.inst i).st == .running then s.freeze i else s
  | _ => s

/-- The action of step `k` is undone (R69, R351, R305, R378) (DEDUCED, log 91). -/
def State.undoStep (s : State) (k : Nat) : State :=
  let s := s.modPw fun w => { w with acted := k - 1 }
  match k with
  | 2 =>
    ((s.modCnt fun c => { c with shedStopped := false }).modDisp fun d => { d with trace := { d.trace with stopped := false } }).trace
      { kind := 0x0B }
  | 3 => s.each allPorts State.zeroDeficits
  | 4 => s.ungateFour
  | 5 => s.each allTenants fun s i => if (s.inst i).st == .frozen then s.modInst i fun n => { n with st := .running } else s
  | _ => s

/-- The actions of steps that engaged in STANDBY are taken (R378). -/
def State.actPending (s : State) : State :=
  s.each ((List.range (s.pw.shedStep - s.pw.acted)).map (· + s.pw.acted + 1)) State.actStep

/-- Step `k` engages with its causes (R378, R379): SHED is entered at step 1, and in STANDBY the action waits (DEDUCED, log 88). -/
def State.engage (s : State) (k causes : Nat) : State :=
  let s := s.recordShed (k - 1) k causes
  let hot : Bool := decide (8 ≤ causes % 16)
  let s := if hot then s.recordThermal k true else s
  let s := s.modPw fun w =>
    { w with
      shedStep := k
      thermal := if hot then k else w.thermal
      beforeShed := if k = 1 && w.mode != .standby then w.mode else w.beforeShed
      mode := if k = 1 && w.mode != .standby then .shed else w.mode }
  if s.pw.mode == .standby then s else s.actStep k

/-- SHEDDING_STEP_ENGAGE (R15, R377 to R379): the next step, if a cause holds it. Step 7 leads to RETAIN from STANDBY and while halted
too; the other steps do not act while the controller is halted. -/
def execSheddingStepEngage (sens : Sensors) (s : State) : Answer :=
  let s := s.sense sens
  let m := s.pw.mode
  if !m.isRunning && m != .standby then .next s
  else
    let k := s.pw.shedStep + 1
    if s.pw.halted then
      if s.pw.causes 7 = 0 then .next s else .next (s.recordShed s.pw.shedStep 7 (s.pw.causes 7)).enterRetain
    else if s.pw.causes k = 0 then .next s
    else if 7 ≤ k then
      let s := s.recordShed s.pw.shedStep 7 (s.pw.causes 7)
      let s := if 125 ≤ s.pw.sens.tempC then s.recordThermal 7 true else s
      .next s.enterRetain
    else done (s.engage k (s.pw.causes k))

/-- Ports that step 1 moved down, or held down as they negotiated, wait for a reset at Express (R69). -/
def State.pendUpshift (s : State) : State :=
  s.each allPorts fun s p => s.modPort p fun x => { x with upshiftPending := x.upshiftPending || x.shedDown, shedDown := false }

/-- Step `k` retraces (R69, R378): SHED is left as step 1 retraces. -/
def State.retrace (s : State) (k : Nat) : State :=
  let s := s.recordShed k (k - 1) 0
  let s := if k ≤ s.pw.thermal then s.recordThermal k false else s
  let s := if k ≤ s.pw.acted then s.undoStep k else s
  let s := if k = 1 then s.pendUpshift else s
  s.modPw fun w =>
    { w with shedStep := k - 1, thermal := min w.thermal (k - 1)
             mode := if k = 1 && w.mode == .shed then w.beforeShed else w.mode }

/-- SHEDDING_STEP_RETRACE (R377, R378): the deepest step, its causes gone and the rails at its retrace levels for 10 ms. -/
def execSheddingStepRetrace (sens : Sensors) (s : State) : Answer :=
  let s := s.sense sens
  let m := s.pw.mode
  let k := s.pw.shedStep
  if (!m.isRunning && m != .standby) || s.pw.halted || k = 0 || s.pw.causes k != 0 || !s.pw.retraced k then .next s
  else done (s.retrace k)

/-! ### The main supplies (R375, R423) -/

/-- The cause bit of a rail in a SHED_STEP entry (R391). -/
def Rail.bit : Rail → Nat
  | .core => 1
  | .sram => 2
  | .other => 16

/-- MAIN_SUPPLIES_REMOVED (R14, R375, R379, R423): RETAIN from STANDBY and the running modes; PRIME ends and waits before instant 1
(DEDUCED, log 74) (DEDUCED, log 92). -/
def execMainSuppliesRemoved (rail : Rail) (s : State) : Answer :=
  match s.pw.mode with
  | .off | .retain => .next (s.modPw fun w => { w with mainValid := false })
  | .prime => .next ((s.toPrime s.pw.nextCause).modPw fun w => { w with mainValid := false })
  | _ => .next (s.recordShed s.pw.shedStep 7 (Rail.bit rail)).enterRetain

/-! ### D3hot, D0, Bus Master Enable (R14, R125, R374) -/

/-- The host can write the configuration space of a function. -/
def State.fnOpen (s : State) (i : InstNo) : Bool := s.cfgOpen && (i == 0 || (s.inst i).st != .disabled)

/-- STANDBY is entered (R374): every ENABLED port is suspended, but for those with active egress entries while EGRESS_N is asserted. The
trowels' islands drain to be gated, but for the holders of those ports (R216, R220). -/
def State.enterStandby (s : State) : State :=
  let s := s.modPw fun w => { w with mode := .standby, beforeStandby := if w.mode == .shed then w.beforeShed else w.mode }
  let exempt (p : PortNo) : Bool := s.pw.egress && s.activeOn p
  let s := s.each allPorts fun s p =>
    if (s.port p).st != .enabled || exempt p then s else s.modPort p fun x => { x with suspendPending := true }
  s.each allTrowels fun s k => if (s.trowel k).holds.any exempt then s else s.returnTxns k fun t => !t.started

/-- FUNCTION_D3HOT (R14, R125): the last function to enter D3hot brings STANDBY. -/
def execFunctionD3hot (fn : InstNo) (s : State) : Answer :=
  if !s.fnOpen fn || (s.inst fn).d3hot then .next s
  else
    let s := (s.modInst fn fun n => { n with d3hot := true }).signalPme fn
    let all : Bool := (s.inst 0).d3hot && allTenants.all fun i => (s.inst i).st == .disabled || (s.inst i).d3hot
    .next (if s.pw.mode.isRunning && all then s.enterStandby else s)

/-- STANDBY is left (R14, R217, R378): to SHED with the actions that waited, when step 1 is engaged, else to the mode before; PME and WAKE_N
are released (DEDUCED, log 90). -/
def State.leaveStandby (s : State) : State :=
  let s := if s.pw.wakeN then s.emit (.wakeN false) else s
  let s := s.modPw fun w =>
    { w with pme := false, wakeN := false, beforeShed := if 1 ≤ w.shedStep then w.beforeStandby else w.beforeShed
             mode := if 1 ≤ w.shedStep then .shed else w.beforeStandby }
  (s.each (allPorts.filter fun p => (s.port p).st == .enabled) State.zeroDeficits).actPending

/-- FUNCTION_D0 (R14, R125). -/
def execFunctionD0 (fn : InstNo) (s : State) : Answer :=
  if !s.fnOpen fn || !(s.inst fn).d3hot then .next s
  else
    let s := s.modInst fn fun n => { n with d3hot := false }
    if fn = 0 && s.pw.mode == .standby then done (s.leaveStandby.each allInsts State.functionBack) else done (s.functionBack fn)

/-- BUS_MASTER_ENABLE_WRITE (R125). -/
def execBusMasterEnableWrite (fn : InstNo) (v : Bool) (s : State) : Answer :=
  if !s.fnOpen fn then .next s
  else
    let old := (s.inst fn).busMaster
    let s := s.modInst fn fun n => { n with busMaster := v }
    if v && !old then done (s.functionBack fn) else .next s

/-! ### The end of PRIME (R368, R369, R414) -/

/-- `key_id` of INS_IMAGE (R332): bytes 0 to 3 of the AES-CMAC of 16 zero bytes; 0 while no site key is held. -/
def State.keyId (s : State) : Nat :=
  match s.pw.siteKey with
  | some k => (Config.cmac (Config.sealingKey k) (List.replicate 16 0)).toNat % 2 ^ 32
  | none => 0

/-- A write record of a configuration image is well formed (R368) (DEDUCED, log 84). -/
def writeRecordOk (b : List Byte) : Bool := numAt b 0 4 % 8 == 0 && numAt b 4 4 == 0

/-- The configuration image is well formed and accepted (R368). -/
def State.cfgOk (s : State) (img : List Byte) : Bool :=
  let len := numAt img 8 4
  let writes := numAt img 0xC 4
  let egress := numAt img 0x10 4
  let tag := numAt img (len - 16) 16
  numAt img 0 4 == 0x47464355 && numAt img 4 2 == 1 && decide (numAt img 6 2 ≤ 1) && decide (len ≤ 0x40000) && decide (len ≤ img.length) &&
  decide (egress ≤ 4096) && len == 80 + 16 * writes + 32 * egress && allZero (bytesAt img 0x18 40) &&
  ((chunks 16 (img.drop 64) writes).all writeRecordOk) && numAt img 0x14 4 == s.keyId &&
  (match s.pw.siteKey with
   | some k => tag == (Config.cmac (Config.sealingKey k) (img.take (len - 16))).toNat
   | none => tag == 0)

/-- One write record is applied as a manager write, or skipped and recorded (R368). -/
def State.applyRecord (s : State) (img : List Byte) (k : Nat) : State :=
  let off := 64 + 16 * k
  let reg := numAt img off 4
  let w : Word := BitVec.ofNat 64 (numAt img (off + 8) 8)
  let b := reg / 0x1000
  if b = 0x10 || b = 0x11 || b = 0x12 || b = 0x16 then s.writePf reg w
  else if reg = 0x15000 then s.writeMtrCfg w
  else if reg = 0x4020 then s.writeScrub w
  else if reg = 0x2780 then s.writeDspCfg w
  else s.record 0x03 ([2, 0, 0, 0] ++ leBytes 4 off)

/-- An accepted configuration image: its writes in order, then its egress program as EGRESS_PROGRAM loads one (DEDUCED, log 72). -/
def State.applyImage (s : State) (img : List Byte) : State :=
  let writes := numAt img 0xC 4
  let egress := numAt img 0x10 4
  let s := s.each (List.range writes) fun s k => s.applyRecord img k
  let s := if egress = 0 then s
    else match egrProgram (img.drop (64 + 16 * writes)) egress with
      | some l => s.loadEgress l
      | none => s
  s.modBoot fun b => { b with forerunner := numAt img 6 2 = 1 }

/-- CONFIG_IMAGE_READ_DONE (R366 instant 8, R368). -/
def execConfigImageReadDone (image : List Byte) (s : State) : Answer :=
  if !(s.pw.mode == .prime && s.pw.primeInstant = 7 && !s.pw.primeFailed) then .next s
  else
    let s := s.modPw fun w => { w with primeInstant := 8 }
    let s := s.modBoot fun b => { b with cfgRead := true }
    if s.cfgOk image then .next (s.applyImage image) else .next (s.record 0x03 [1])

/-- What COMPAT fixes (R80, R414): ports 16 to 31 HELD, Standard at most, and the manager's shares. -/
def State.fixCompat (s : State) : State :=
  let s := s.each allPorts fun s p => s.modPort p fun x =>
    if p.val < 16 then { x with maxSpeed := 1 } else { x with maxSpeed := 1, st := .held, disableCause := 3 }
  s.modInst 0 fun n =>
    { n with epBase := 0, epLimit := 65535, unitMap := List.range 8192, regionQuota := 256
             units := Vector.ofFn fun p : PortNo => if p.val < 16 then 1250 else 0 }

/-- CONFIG_IMAGE_APPLIED (R366 instant 9, R367, R369, R382): SOLE or COMPAT, the BARs decoded; a SCRAPPED part never leaves PRIME (R384). -/
def execConfigImageApplied (s : State) : Answer :=
  if !(s.pw.mode == .prime && s.pw.primeInstant = 8 && !s.pw.primeFailed) || s.pw.lcState == .scrapped then .next s
  else
    let compat := s.boot.forerunner
    let svn := s.boot.svn
    let commit := s.boot.svnCommit
    let s := s.modPw fun w =>
      { w with primeInstant := 9, barsReady := true, mode := if compat then .compat else .sole, lastCompat := compat
               minSvn := if commit && decide (w.minSvn.toNat < svn.toNat) then svn else w.minSvn }
    let s := if compat then s.fixCompat else s
    done (if s.pw.egress then s.egressBegin else s)

/-! ### Warm resets (R372) -/

/-- The manager's endpoints that a warm reset leaves open: those of active egress entries, their ring state reset (R372). -/
def State.keepEgressEps (s : State) (keep : List Nat) : State :=
  let s : State := { s with deliveries := s.deliveries.filter fun (d : Delivery) => !keep.contains d.ep }
  s.each keep fun s k => s.modEp k fun e =>
    { e with trHead := 0, trTail := 0, cur := none, carry := [], carryEot := false, force := none, delivering := false, commitRef := 0 }

/-- The manager's instance after a warm reset: its share stays, every other register is at its reset value (DEDUCED, log 76). -/
def Inst.warm (n : Inst) (mode : Mode) : Inst :=
  { st := n.st, served := n.served, d3hot := n.d3hot && mode == .standby, epBase := n.epBase, epLimit := n.epLimit, weight := n.weight
    gateQuota := n.gateQuota, flowQuota := n.flowQuota, stBase := n.stBase, stSize := n.stSize, unitMap := n.unitMap
    regionQuota := n.regionQuota, units := n.units, devMap := n.devMap, allowed := n.allowed }

/-- The manager's work is stopped (R319, R372). -/
def State.stopManager (s : State) : State :=
  let keep := (s.activeEntries.filterMap s.entryEp).map (·.1)
  let gone := (s.epSlots 0).filter fun k => !keep.contains k
  let left (h : Holder) : Bool := match h with
    | .ep k => gone.contains k
    | _ => false
  let s := (s.orphanProcs 0 gone).unlist left
  let s : State := { s with commits := s.commits.filter fun c => c.2.inst != 0 }
  let s := s.each gone fun s k => (s.discardEp k).dropEp k
  let s := (s.keepEgressEps keep).clearItems 0
  let s := s.modBoot fun b => { b with staging := b.staging.map fun x => (none, x.2) }
  let mode := s.pw.mode
  s.modInst 0 (·.warm mode)

/-- A port's registers after a warm reset: the port itself is kept. -/
def Port.warm (x : Port) (compat : Bool) : Port :=
  { x with wakeEn := true, maxSpeed := if compat then 1 else 2, mgrHold := false, faultBlank := 0x0A, pwrRetryMax := 0, pwrRetryGap := 0
           change := 0, strayPkts := 0, corruptPkts := 0, trainFails := 0, faultTrips := 0, svcMissed := 0, skimsLost := 0, overrunMax := 0
           hubPollErrs := 0, enumFails := 0, inAcc := 0, outAcc := 0, inBytes := 0, outBytes := 0 }

/-- Every register of the physical function at its reset value, but for RWS and RWL fields (R372). -/
def State.warmRegs (s : State) : State :=
  let compat := s.inCompat
  let s := s.each allPorts fun s p =>
    let old := (s.port p).topSpeed
    let s := s.modPort p (·.warm compat)
    s.convertIdle p old (s.port p).topSpeed
  let s := s.each allTrowels fun s k =>
    s.modTrowel k fun w =>
      let w := { w with levelEn := true, levelled := 0, taken := 0 }
      if w.oosReq || w.tstate == .faulted then w.return else { w with oosRefused := false }
  let stopped := s.disp.trace.stopped
  let shed := s.cnt.shedStopped
  { s with
    chans := Vector.replicate 16 {}
    disp := { s.disp with gates := [], absorb := [], groups := Vector.replicate 16 {}, queues := State.reset.disp.queues, windowFrames := 0x3E7
                          windowAt := s.frameStart
                          trace := { stopped := stopped } }
    cnt := { shedStopped := shed }
    mem := { s.mem with ceCount := 0, ueCount := 0, eccValid := false, eccAddr := 0, passS := 1, misses := 0 }
    pl := { s.pl with lateBuilds := 0 }
    tree := { s.tree with idleMs := 0x1388 }
    snag := { s.snag with index := 0 } }

/-- A warm reset (R372): no write to the host any more, the tenants as when VF Enable is cleared, the manager's work stopped, the
physical function's registers reset. `down` tells a reset that takes the link down (DEDUCED, log 77). -/
def State.warmReset (s : State) (cause : BitVec 4) (down : Bool) : State :=
  let s := s.record 0x01 [BitVec.ofNat 8 cause.toNat]
  let s := s.each allInsts fun s i => s.modInst i fun n => { n with busMaster := false }
  let s := s.modPw fun w =>
    { w with resetCause := cause, vfEnable := false, numVfs := 0, msgQueue := [], pme := false, l1 := none, warnStep := 3
             bar0 := 0, vfBar := 0, sysPage := 1
             linkUp := w.linkUp && !down }
  let s := (s.each allTenants fun s i => if (s.inst i).st == .disabled then s else s.disableInst i).leaveShared
  s.stopManager.warmRegs

/-- A source of a warm reset (R371, R372): through PRIME while halted; in PRIME only the link goes. -/
def State.warmFrom (s : State) (cause : BitVec 4) (down : Bool) : State :=
  if !s.pw.linkUp then s
  else match s.pw.mode with
    | .off | .retain => s
    | .prime => s.modPw fun w => { w with linkUp := w.linkUp && !down }
    | _ => if s.pw.halted then s.resetPrime cause else s.warmReset cause down

/-- PCIE_HOT_RESET (R371, R372). -/
def execPcieHotReset (s : State) : Answer := .next (s.warmFrom 8 true)

/-- PCIE_LINK_DOWN (R371, R372). -/
def execPcieLinkDown (s : State) : Answer := .next (s.warmFrom 9 true)

/-- PF_FUNCTION_LEVEL_RESET (R371, R372). -/
def execPfFunctionLevelReset (s : State) : Answer := .next (s.warmFrom 10 false)

/-! ### SMBUS_PORT_OFF (R79, R158 to R160, R393, R395) -/

/-- A PORT_OFF is refused with a result; a request that a higher-ranked order or effect refuses shows in `bmc_off_req` (DEDUCED, log 75). -/
def State.portOffRefuse (s : State) (p : BitVec 8) (result : BitVec 8) (shown : Option PortNo) : State :=
  let s := match shown with
    | some n => s.modPort n fun x => { x with bmcOffReq := true }
    | none => s
  s.smbusRefuse 0x20 p result

/-- SMBUS_PORT_OFF (R395). -/
def execSmbusPortOff (port : BitVec 8) (outranked : Bool) (s : State) : Answer :=
  match s.pw.mode with
  | .off => .next s
  | .retain => .next (s.emit .smbusNack)
  | .prime => .next (s.portOffRefuse port 3 none)
  | _ =>
    if h : port.toNat < 32 then
      let p : PortNo := ⟨port.toNat, h⟩
      let x := s.port p
      if x.st == .held || s.pw.halted then .next (s.portOffRefuse port 3 none)
      else if outranked then .next (s.portOffRefuse port 2 (some p))
      else if s.egressHolds p || x.mgrHold || x.mgrPowered then .next (s.portOffRefuse port 1 (some p))
      else
        let s := (s.powerOrdered p).modPort p fun x => { x with mgrPowered := false }
        done ((s.powerOff p).modPw fun w => { w with reqResult := 0 })
    else .next (s.portOffRefuse port 3 none)

end Sys2Proof.Machine
end

