-- ==== Sys2Proof/Machine/Image.lean ====
section
/-!
DEFINITION. Instance images (R330 to R334), SAVE_INSTANCE and RESTORE_INSTANCE (R335 to R337). A record whose layout the specification
does not give is the bytes that `Config.imageRecord` gives its fields, cut to the record's size; the fields of such a record are what
`Config.imageFields` reads (log 7).
-/
namespace Sys2Proof.Machine

/-! ### Records -/

/-- Bytes cut or padded with 0 to a length. -/
def fit (n : Nat) (l : List Byte) : List Byte := (l ++ List.replicate n 0).take n

/-- A record, or a part of one, whose layout is open. -/
def openRec (type size : Nat) (fields : List Nat) : List Byte := fit size (Config.imageRecord type fields)

/-- Field `k` of a list. -/
def nth (l : List Nat) (k : Nat) : Nat := l.getD k 0

/-- Field `k` as a flag. -/
def nthB (l : List Nat) (k : Nat) : Bool := nth l k != 0

/-- A number that may be absent: 0, or 1 more than it. -/
def optNat : Option Nat → Nat
  | none => 0
  | some x => x + 1

def natOpt (n : Nat) : Option Nat := if n = 0 then none else some (n - 1)

/-- The codes of the statuses with which transfers end. -/
def transferStatuses : List Status :=
  [.success, .short, .silent, .crcExhausted, .stalled, .babble, .portReset, .powerAbort, .stopped, .cancelled, .quiesceAbort, .detached,
   .missedService]

def optStatus : Option Status → Nat
  | none => 0
  | some x => x.ctorIdx + 1

def statusOpt (n : Nat) : Option Status := if n = 0 then none else transferStatuses[n - 1]?

/-- SHARE (R330): quotas, each port's reservation with its speed, counter grants, and the groups owned. -/
def State.shareFields (s : State) (j : InstNo) : List Nat :=
  let n := s.inst j
  [n.weight, n.epLimit, n.gateQuota, n.flowQuota, n.stSize, n.unitMap.length, n.regionQuota, n.allowed.toNat, n.userRead.toNat,
   (allGroups.filter fun g => (s.group g).owner == j).foldl (fun a g => a + 2 ^ g.val) 0] ++
  n.units.toList ++ allPorts.map fun p => ((s.port p).reckon).ctorIdx

/-- A DEVICES record: index, zone address and reset generation, then the 64 bytes of the device record (R100). -/
def devRecord (ix z : Nat) (d : DevRec) : List Byte :=
  openRec 0x02 16 [ix, z, d.resetGen] ++ leBytes 16 (d.low z) ++ leBytes 48 d.work.toNat

/-- The deliveries of an endpoint that wait for its function (R125). -/
def State.deliveryFields (s : State) (k : Nat) : List Nat :=
  let l := s.deliveries.filter fun d => d.ep == k
  l.length :: l.flatMap fun d => [d.off, d.data.length, leNat d.data, optStatus d.fin, optNat d.since]

/-- The working state of an endpoint context, with the position within the entry in progress. -/
def State.epFields (s : State) (k : Nat) (e : Ep) : List Nat :=
  let x : List Nat := match e.cur with
    | some c => [1, c.slot.toNat, c.entry.toNat, c.bytes, c.stage.ctorIdx, optNat c.item, b2n c.staging.isSome, b2n c.short]
    | none => List.replicate 8 0
  x ++ [e.carry.length, leNat e.carry, b2n e.carryEot, b2n e.backoff, b2n e.lastSilence, b2n e.missRun, e.streamBlock,
        b2n e.newSched.isSome, (e.newSched.map (·.1)).getD 0, (e.newSched.map (·.2)).getD 0, optStatus e.force, e.backoffAt - s.pl.subN,
        optNat (e.opening.map (·.toNat))] ++ s.deliveryFields k

/-- An ENDPOINTS record: index, 4 bytes, then the context. -/
def State.epRecord (s : State) (ix k : Nat) (e : Ep) : List Byte :=
  leBytes 4 ix ++ leBytes 4 0 ++ e.ctx (openRec 0x03 7 (s.epFields k e))

/-- What the write of a waiting event passes, in two fields: an endpoint by its index, or a command slot. -/
def State.headFields (s : State) : HeadOf → List Nat
  | .none => [0, 0]
  | .transfer k => [1, ((s.ep k).map fun e => s.localIx e k).getD 0]
  | .command slot => [2, slot.toNat]

/-- RINGS (R330): RNG registers at offsets 0x000 to 0x0FF (event rings 0 to 5), SKM_FLIST, and the rings' working state. -/
def State.ringFields (s : State) (j : InstNo) : List Nat :=
  let n := s.inst j
  let ring (e : RingNo) : List Nat :=
    let r := s.ring j e
    [r.base.toNat, r.modInterval.toNat, r.modCount.toNat, r.vector.toNat, b2n r.enable, r.size.toNat, r.head.toNat, r.tail.toNat,
     r.mirror.toNat, r.reserved, b2n r.blocked, r.blockedTicks.toNat, r.counted, b2n r.mirrorDue]
  [n.cmdBase.toNat, n.cmdSize.toNat, b2n n.cmdEn, n.cmdHead.toNat, n.cmdTail.toNat, n.strayWrites.toNat, n.flBase.toNat, b2n n.flEn,
   n.flSize.toNat, n.cmdFetch.toNat] ++ (allRings.take 6).flatMap ring ++
  (n.waiting.flatMap fun w => [b2n w.irqNow, optNat w.vec, optNat w.gate, optNat w.item] ++ s.headFields w.head) ++
  (n.cmdDone.length :: n.cmdDone.map (·.toNat)) ++ n.waitData.flatMap fun x => [x.1, x.2.length, leNat x.2]

/-- A GATES record. -/
def gateRecord (k : Nat) (g : Gate) : List Byte :=
  openRec 0x07 32 ([k, g.count.toNat] ++ match g.task with
    | some t => [1, t.group.val, t.flow.toNat, t.tag.toNat, t.item]
    | none => [])

/-- Code of an item's state, with its queue. -/
def ItemState.fields : ItemState → List Nat
  | .reserved => [0, 0]
  | .pending => [1, 0]
  | .parked => [2, 0]
  | .inService q => [3, q.val]

/-- An ITEMS record. -/
def State.itemRecord (s : State) (k : Nat) (x : Item) : List Byte :=
  openRec 0x08 48 (x.st.fields ++
    [s.handle k, x.flow.toNat, x.group.val, x.src.toNat, x.tag.toNat, x.bytes.toNat, x.status.toNat, x.ringIndex.toNat, x.ep.toNat, x.gate.toNat,
     x.stamp.toNat, x.ready.toNat, x.seq])

/-- A QUEUES record: the queue and its configuration. -/
def queueRecord (k : QueueNo) (q : Queue) : List Byte :=
  openRec 0x09 16 [k.val, q.group.val, b2n q.enable, q.depthMax.toNat, q.weight.toNat, q.evtRing.val, b2n q.vecEn, q.vector.toNat, q.depth]

/-- A WAIT in progress. -/
def waitFields : Option WaitOn → List Nat
  | none => [0, 0, 0]
  | some (.tick n) => [1, n, 0]
  | some (.gate g) => [2, g, 0]
  | some (.chan c v) => [3, c.val, v.toNat]

/-- A CHANNELS record. -/
def chanRecord (c : ChanNo) (x : Chan) : List Byte :=
  openRec 0x0A 128 ([c.val, x.progWords.toNat, b2n x.vecEn, x.vector.toNat, x.evtRing.val, x.progAddr.toNat, b2n x.store, x.paramAddr.toNat,
    x.tag.toNat, x.count.toNat, x.pc.toNat, x.post.toNat, x.fault.toNat, x.startIgnored.toNat, b2n x.flag, x.cstate.ctorIdx, b2n x.ready,
    x.moved, x.timeout.toNat, x.tagBegin.toNat, optNat (x.resv.map (·.val))] ++ waitFields x.wait ++
    [b2n x.hit] ++ x.loops.toList.map (·.toNat) ++ x.ptrs.toList.map (·.toNat) ++ x.strides.toList.map (·.toNat))

/-- CNT_ISEL as it reads (R354). -/
def Counter.selWord (c : Counter) : Nat :=
  pack [(35, 6, c.mid.toNat), (41, 3, c.mtype.toNat), (44, 1, b2n c.addrEn), (48, 8, c.cls.toNat), (62, 1, b2n c.irqEn), (63, 1, b2n c.enable)]

/-- CNT_IVAL as it reads (R355). -/
def Counter.valWord (c : Counter) : Nat := pack [(0, 48, c.count.toNat), (63, 1, b2n c.ovf)]

/-- CNT_ISAMPLE as it reads (R356). -/
def Sample.word (x : Sample) : Nat :=
  pack [(0, 4, x.skid.toNat), (34, 1, b2n x.addrV), (35, 5, x.channel.toNat), (40, 6, x.trowel.toNat), (46, 6, x.port.toNat),
    (52, 6, x.inst.toNat), (58, 2, x.priv.toNat), (60, 3, x.counter.toNat), (63, 1, b2n x.valid)]

/-- COUNTERS (R351): bytes 0x000 to 0x0FF of the instance counter block. -/
def State.counterRecord (s : State) (j : InstNo) : List Byte :=
  let n := s.inst j
  let ctr (c : Counter) : List Byte := leBytes 8 c.selWord ++ leBytes 8 c.valWord ++ leBytes 8 c.lo.toNat ++ leBytes 8 c.hi.toNat
  fit 256 (n.ctrs.toList.flatMap ctr ++ leBytes 8 (n.allowed.toNat * 256 + n.userRead.toNat) ++ leBytes 8 (n.ctrVector.toNat * 256) ++
    leBytes 8 n.sample.word ++ leBytes 8 n.sample.addr.toNat ++ leBytes 8 s.pl.cycle.toNat)

/-! ### The image (R330 to R332) -/

/-- The records of each section, in ascending type (DESIGN CHOICE, log 94). -/
def State.imageSections (s : State) (j : InstNo) : List (List (List Byte)) :=
  let n := s.inst j
  [ [openRec 0x01 512 (s.shareFields j)],
    n.devMap.filterMap fun (ix, z) => (s.dev z).map (devRecord ix z),
    (s.eps.filter fun (_, e) => e.inst == j).map fun (k, e) => s.epRecord (s.localIx e k) k e,
    [openRec 0x04 512 (s.ringFields j)],
    (List.range n.regionQuota).map fun d => leBytes 8 (((kget n.regions d).map fun r => r.word.toNat).getD 0),
    (List.range n.carved).map fun u => s.hawkRead j (512 * u) 512,
    (s.disp.gates.filter fun (_, g) => g.owner == j).map fun (k, g) => gateRecord k g,
    (s.disp.items.filter fun (_, x) => x.owner == j).map fun (k, x) => s.itemRecord k x,
    (allQueues.filter fun q => (s.queue q).owner == j).map fun q => queueRecord q (s.queue q),
    (allChans.filter fun c => (s.chan c).owner == j).map fun c => chanRecord c (s.chan c),
    (List.range n.stSize).map fun u => s.storeRead (1024 * (n.stBase + u)) 1024,
    n.waiting.map fun w => leBytes 4 w.ring.val ++ leBytes 4 0 ++ leBytes 32 w.ev.toNat,
    [s.counterRecord j] ]

/-- The next multiple of 64. -/
def align64 (n : Nat) : Nat := (n + 63) / 64 * 64

/-- Sections placed one after another from an offset, each at a multiple of 64: their bytes, and the section table. -/
def placeSections : (type off : Nat) → List (List (List Byte)) → List Byte × List Byte
  | _, _, [] => ([], [])
  | type, off, x :: l =>
    let data := x.flatten
    let next := align64 (off + data.length)
    let (bs, table) := placeSections (type + 1) next l
    (data ++ List.replicate (next - off - data.length) 0 ++ bs,
     leBytes 2 type ++ leBytes 2 0 ++ leBytes 4 x.length ++ leBytes 4 off ++ leBytes 4 data.length ++ table)

/-- The header of an image (R331). -/
def State.imageHeader (s : State) (j : InstNo) (len : Nat) (table : List Byte) : List Byte :=
  fit 0x40 (leBytes 4 0x49514C55 ++ leBytes 2 1 ++ leBytes 2 0x140 ++ leBytes 4 len ++ leBytes 4 s.keyId ++ leBytes 8 Config.serial.toNat ++
    leBytes 8 s.frame ++ leBytes 4 (s.saveCount.toNat + 1) ++ leBytes 1 j.val) ++ fit 256 table

/-- The tag over the bytes before it (R332); 0 without a site key. -/
def State.sealTag (s : State) (bs : List Byte) : BitVec 128 :=
  match s.pw.siteKey with
  | some k => Config.cmac (Config.sealingKey k) bs
  | none => 0

/-- The header, the sections and the trailer of the image of an instance. -/
def State.imageParts (s : State) (j : InstNo) : List Byte × List Byte × List Byte :=
  let (body, table) := placeSections 1 0x140 (s.imageSections j)
  let head := s.imageHeader j (0x140 + body.length + 64) table
  let pre := leBytes 4 0x4C414553 ++ leBytes 4 s.keyId ++ leBytes 8 0
  (head, body, pre ++ leBytes 16 (s.sealTag (head ++ body ++ pre)).toNat ++ List.replicate 32 0)

/-! ### SAVE_INSTANCE (R148, R332, R333) -/

/-- The writes of a save, in the order of R333. -/
def State.writeImage (s : State) (j : InstNo) (dest : Nat) : State :=
  let (head, body, tail) := s.imageParts j
  let at' := dest + head.length + body.length
  (((s.hostWrite 0 at' (List.replicate 64 0)).hostWrite 0 dest head).hostWrite 0 (dest + head.length) body).hostWrite 0 at' tail

/-- SAVE_INSTANCE (R148, R332, R333): result [63:32] of the event is the image's length (DESIGN CHOICE, log 93) (DEDUCED, log 97). -/
def execSaveInstance (i : InstNo) (slot : BitVec 16) (s : State) : Answer :=
  carryOut i slot 0x47 anyForm s fun e =>
    match s.tenantOf e with
    | none => if s.pw.siteKey.isNone then .ends s .notPermitted 0 else .ends s .paramInvalid 0
    | some j =>
      let (head, body, tail) := s.imageParts j
      let len := head.length + body.length + tail.length
      if s.pw.siteKey.isNone then .ends s .notPermitted 0
      else if (s.inst j).st == .halted then .ends s .halted 0
      else if (s.inst j).st != .quiesced then .ends s .notQuiesced 0
      else if fld e 223 192 < len then .ends s .noResources len
      else if !s.canWrite 0 then .notYet
      else
        let s := s.writeImage j (fld e 191 128)
        .ends { s with saveCount := s.saveCount + 1 } .cmdOk len

/-! ### RESTORE_INSTANCE: reading an image (R335) -/

/-- The records of a section. -/
def imageRecords (img : List Byte) (type size : Nat) : List (List Byte) :=
  let at' := 0x40 + 16 * (type - 1)
  chunks size (img.drop (numAt img (at' + 8) 4)) (numAt img (at' + 4) 4)

/-- The checks of R335 on the seal and the version, in their order; none when the image passes. -/
def State.sealCheck (s : State) (img : List Byte) (srcLen : Nat) : Option Status :=
  let len := numAt img 8 4
  let at' := len - 64
  if numAt img 0 4 != 0x49514C55 || numAt img 6 2 != 0x140 || srcLen < len || img.length < len || len < 0x180 ||
      numAt img at' 4 != 0x4C414553 then some .imageUnsealed
  else if numAt img (at' + 4) 4 != s.keyId then some .imageForeign
  else if s.pw.siteKey.isNone || numAt img (at' + 16) 16 != (s.sealTag (img.take (at' + 16))).toNat then some .imageUnsealed
  else if numAt img 4 2 != 1 then some .paramInvalid
  else none

/-- A device of an image: index, zone address, reset generation, class, endpoint 0 size, admission frame, working state. -/
structure ImgDev where
  ix : Nat
  zone : Nat
  gen : Nat
  cls : Nat
  ep0 : Nat
  admitNum : Nat
  work : BitVec 384
  deriving DecidableEq, Repr

def imgDev (b : List Byte) : ImgDev :=
  let f := Config.imageFields 0x02 (b.take 16)
  ⟨nth f 0, nth f 1, nth f 2, numAt b 26 2, numAt b 25 1, numAt b 28 4, BitVec.ofNat 384 (numAt b 32 48)⟩

/-- The device of the image does not match the record at its zone address (R335). -/
def State.devDiffers (s : State) (x : ImgDev) : Bool :=
  match s.dev x.zone with
  | some d => d.st == .free || d.st == .atDefault || d.cls.toNat != x.cls || d.ep0Max != x.ep0
  | none => true

/-- The lowest place for a range of `n` in `total`, clear of the ranges used. -/
def lowestRange (n total : Nat) (used : List (Nat × Nat)) : Option Nat :=
  let ok (b : Nat) : Bool := decide (b + n ≤ total) && !(used.any fun u => meetRange b n u.1 u.2)
  ((0 :: used.map fun u => u.1 + u.2).filter ok).min?

/-! ### RESTORE_INSTANCE: the grants (R336) -/

/-- The speed with an index. -/
def speedOf (n : Nat) : Speed := [Speed.reach, .standard, .express].getD n .none

/-- The share of an image, and the devices it names, granted to instance `j`; none when they cannot be. -/
def State.grantShare (s : State) (j : InstNo) (f : List Nat) (devs : List ImgDev) : Option State :=
  let others := allInsts.filter (· != j)
  let sum (g : Inst → Nat) : Nat := (others.map fun k => g (s.inst k)).sum
  let units (p : PortNo) : Nat := convertUnits (speedOf (nth f (42 + p.val))) (s.port p).reckon (nth f (10 + p.val))
  let fits (p : PortNo) : Bool :=
    decide (units p = 0) || decide ((others.map fun k => vget (s.inst k).units p).sum + units p ≤ periodicLimit (s.port p).reckon)
  let free (x : ImgDev) : Bool := match s.dev x.zone with
    | some d => d.owner == 0 || (d.owner == j && kget (s.inst j).devMap x.ix == some x.zone)
    | none => false
  if 4096 < sum (·.gateQuota) + nth f 2 || 16384 < sum (·.flowQuota) + nth f 3 || 32768 < sum (·.unitMap.length) + nth f 5 ||
      1024 < sum (·.regionQuota) + nth f 6 || !allPorts.all fits || !devs.all free then none
  else
    (lowestRange (nth f 1) 131072 (others.map fun k => ((s.inst k).epBase, (s.inst k).epLimit))).bind fun base =>
      (lowestRange (nth f 4) 64 (others.map fun k => ((s.inst k).stBase, (s.inst k).stSize))).map fun st =>
        let s := (s.setQuota j (nth f 5) (nth f 6)).modInst j fun n =>
          { n with weight := nth f 0, epLimit := nth f 1, epBase := base, gateQuota := nth f 2, flowQuota := nth f 3, stSize := nth f 4
                   stBase := st, allowed := BitVec.ofNat 4 (nth f 7), units := Vector.ofFn units }
        s.each devs fun s x =>
          (s.modDev x.zone fun d => { d with owner := j, work := x.work }).modInst j fun n => { n with devMap := kset n.devMap x.ix x.zone }

/-- The stage with an index. -/
def stageOf (n : Nat) : Stage := [Stage.body, .setup, .dataIn, .dataOut, .status].getD n .body

/-- The entry in progress of a context's working state. -/
def curOf (f : List Nat) : Option Xfer :=
  if nthB f 0 then
    some { slot := BitVec.ofNat 16 (nth f 1), entry := BitVec.ofNat 256 (nth f 2), bytes := nth f 3, stage := stageOf (nth f 4)
           item := natOpt (nth f 5), staging := none, short := nthB f 7 }
  else none

/-- The endpoint of a context's 64 bytes (R101), with its working state; a silence backoff goes on from subframe `now`. -/
def ctxEp (j : InstNo) (now : Nat) (b : List Byte) : Ep :=
  let c : BitVec 512 := BitVec.ofNat 512 (leNat b)
  let f := Config.imageFields 0x03 (bytesAt b 56 7)
  { inst := j, zone := fld c 11 0, epid := BitVec.ofNat 5 (fld c 16 12), kind := epKind (fld c 24 23), interval := fld c 28 25
    phase := fld c 319 304, evtRing := ⟨fld c 31 29 % 8, by omega⟩, maxBlock := fld c 41 32, errThreshold := fld c 44 42
    errCount := fld c 47 45, retryLimit := fld c 51 48, retryCount := fld c 55 52
    st := [EpState.closed, .running, .halted, .stopped, .detached].getD (fld c 58 56) .closed
    nextSeq := BitVec.ofNat 5 (fld c 68 64), expectSeq := BitVec.ofNat 5 (fld c 73 69), silenceRun := fld c 77 74
    trBase := BitVec.ofNat 64 (fld c 191 128), trSize := fld c 115 112, trHead := BitVec.ofNat 16 (fld c 95 80)
    trTail := BitVec.ofNat 16 (fld c 111 96), region := fld c 201 192, heldValid := bitOf c 202, heldLen := fld c 211 203
    heldReplaced := fld c 231 216, flowId := BitVec.ofNat 20 (fld c 275 256), flowEn := bitOf c 276, egressSafe := bitOf c 277
    svcCost := fld c 303 288, commitRef := 0, blocksDone := BitVec.ofNat 32 (fld c 383 352), bytesDone := BitVec.ofNat 64 (fld c 447 384)
    cur := curOf f, carry := leBytes (nth f 8) (nth f 9), carryEot := nthB f 10, backoff := nthB f 11
    backoffAt := now + nth f 19, opening := (natOpt (nth f 20)).map (BitVec.ofNat 16), newlyOpen := false, picked := false
    delivering := nthB f 21, lastSilence := nthB f 12, missRun := nthB f 13, recovering := false, force := statusOpt (nth f 18)
    streamBlock := nth f 14, newSched := if nthB f 15 then some (nth f 16, nth f 17) else none }

/-- Sequence state and endpoint state after a move (R337). -/
def Ep.moved (e : Ep) (d : DevRec) (x : ImgDev) (here : Bool) : Ep :=
  let same : Bool := here && d.admitFrame.toNat == x.admitNum
  if same && d.resetGen = x.gen then e
  else if same && decide (x.gen < d.resetGen) then
    let e := { e with nextSeq := 0, expectSeq := 0, st := .stopped }
    if e.kind == .control then e.clear else e
  else { e.clear with st := if d.st == .detached then .detached else .running }

/-- One endpoint of an image: booked at its saved phase, with its deliveries and its staging read. -/
def State.restoreEp (s : State) (j : InstNo) (devs : List ImgDev) (here : Bool) (b : List Byte) : Option State :=
  let e := ctxEp j s.pl.subN (b.drop 8)
  let ix := numAt b 0 4
  let k := (s.inst j).epBase + ix
  let f := Config.imageFields 0x03 (bytesAt b 64 7)
  match s.dev e.zone, devs.find? fun x => x.zone == e.zone with
  | some d, some x =>
    if (s.inst j).epLimit ≤ ix then none
    else
      let cost := if e.kind == .periodic then svcCost (s.port d.port).reckon d.tier e.maxBlock e.inward else 0
      let (n, q) := e.newSched.getD (e.interval, e.phase)
      let room : Bool := e.kind != .periodic || (s.book k j d.port cost n q).isSome
      if !room then none
      else
        let s := (s.setEp k ({ e with svcCost := cost }.moved d x here)).cacheIn k
        let s := s.each (List.range (nth f 21)) fun s m =>
          let at' := 22 + 5 * m
          let id := s.nextId
          let s := s.addDelivery k (nth f at') (leBytes (nth f (at' + 1)) (nth f (at' + 2))) (statusOpt (nth f (at' + 3))) none
          { s with deliveries := s.deliveries.map fun (y : Delivery) => if y.id = id then { y with since := natOpt (nth f (at' + 4)) } else y }
        match e.cur with
        | some c =>
          if nthB f 6 then
            let id := s.nextId
            some ((s.takeId.modEp k fun e => { e with cur := e.cur.map fun c => { c with staging := some id } }).hostRead j (teBuf c.entry)
              (teLength c.entry) none none)
          else some s
        | none => some s
  | _, _ => none

/-- What the write of a waiting event passes, from its fields. -/
def headOf (base a b : Nat) : HeadOf :=
  match a with
  | 1 => .transfer (base + b)
  | 2 => .command (BitVec.ofNat 16 b)
  | _ => .none

/-- The rings of an image, and the events that wait on chip (R337). -/
def State.restoreRings (s : State) (j : InstNo) (f : List Nat) (events : List (List Byte)) : State :=
  let ring (e : RingNo) : EvtRing :=
    let b := 10 + 14 * e.val
    if 6 ≤ e.val then {}
    else
      { base := BitVec.ofNat 64 (nth f b), modInterval := BitVec.ofNat 16 (nth f (b + 1)), modCount := BitVec.ofNat 8 (nth f (b + 2))
        vector := BitVec.ofNat 6 (nth f (b + 3)), enable := nthB f (b + 4), size := BitVec.ofNat 4 (nth f (b + 5))
        head := BitVec.ofNat 16 (nth f (b + 6)), tail := BitVec.ofNat 16 (nth f (b + 7)), mirror := BitVec.ofNat 64 (nth f (b + 8))
        reserved := nth f (b + 9), blocked := nthB f (b + 10), blockedTicks := BitVec.ofNat 32 (nth f (b + 11)), counted := nth f (b + 12)
        mirrorDue := nthB f (b + 13) }
  let wait (x : List Byte × Nat) : WaitEvt :=
    let b := 10 + 14 * 6 + 6 * x.2
    { ring := ⟨numAt x.1 0 4 % 8, by omega⟩, ev := BitVec.ofNat 256 (numAt x.1 8 32), irqNow := nthB f b, vec := natOpt (nth f (b + 1))
      gate := natOpt (nth f (b + 2)), item := natOpt (nth f (b + 3)), head := headOf (s.inst j).epBase (nth f (b + 4)) (nth f (b + 5)) }
  let done' := 10 + 14 * 6 + 6 * events.length
  let data' := done' + 1 + nth f done'
  s.modInst j fun n =>
    { n with cmdBase := BitVec.ofNat 64 (nth f 0), cmdSize := BitVec.ofNat 4 (nth f 1), cmdEn := nthB f 2, cmdHead := BitVec.ofNat 16 (nth f 3)
             cmdTail := BitVec.ofNat 16 (nth f 4), cmdFetch := BitVec.ofNat 16 (nth f 9), strayWrites := BitVec.ofNat 16 (nth f 5)
             flBase := BitVec.ofNat 64 (nth f 6), flEn := nthB f 7, flSize := BitVec.ofNat 4 (nth f 8), evt := Vector.ofFn ring
             cmdDone := (List.range (nth f done')).map fun m => BitVec.ofNat 16 (nth f (done' + 1 + m))
             waiting := events.zipIdx.map wait
             waitData := (List.range ((f.length - data') / 3)).map fun m =>
               (nth f (data' + 3 * m), leBytes (nth f (data' + 3 * m + 1)) (nth f (data' + 3 * m + 2))) }

/-- The groups and queues of an image: each owned by the manager, with nothing pending and nothing in service. -/
def State.restoreQueues (s : State) (j : InstNo) (groups : Nat) (recs : List (List Byte)) : Option State :=
  let gs := allGroups.filter fun g => groups.testBit g.val
  let qs := recs.map fun b => Config.imageFields 0x09 b
  let qOf (f : List Nat) : QueueNo := ⟨nth f 0 % 64, by omega⟩
  let busy (g : GroupNo) : Bool := allQueues.any fun q => (s.queue q).group == g && (s.queue q).depth != 0
  if gs.any (fun g => (s.group g).owner != 0 || !(s.group g).fifo.isEmpty || busy g) ||
      qs.any (fun f => (s.queue (qOf f)).owner != 0 || (s.queue (qOf f)).depth != 0) then none
  else
    let s := s.each gs fun s g => s.modGroup g fun x => { x with owner := j }
    some (s.each qs fun s f => s.modQueue (qOf f) fun q =>
      { q with owner := j, group := ⟨nth f 1 % 16, by omega⟩, enable := nthB f 2, depthMax := BitVec.ofNat 8 (nth f 3)
               weight := BitVec.ofNat 4 (nth f 4), evtRing := ⟨nth f 5 % 8, by omega⟩, vecEn := nthB f 6
               vector := BitVec.ofNat 6 (nth f 7), depth := nth f 8 })

/-- The gates of an image: each must be FREE. -/
def State.restoreGate (s : State) (j : InstNo) (b : List Byte) : Option State :=
  let f := Config.imageFields 0x07 b
  let k := nth f 0
  if (kget s.disp.gates k).isSome || 4096 ≤ k then none
  else
    let task : Option Task :=
      if nthB f 2 then some ⟨⟨nth f 3 % 16, by omega⟩, BitVec.ofNat 20 (nth f 4), BitVec.ofNat 64 (nth f 5), nth f 6⟩ else none
    some (s.modDisp fun d => { d with gates := kset d.gates k ⟨j, BitVec.ofNat 16 (nth f 1), task⟩ })

/-- The state of an item, from its fields. -/
def itemStateOf (f : List Nat) : ItemState :=
  match nth f 0 with
  | 1 => .pending
  | 2 => .parked
  | 3 => .inService ⟨nth f 1 % 64, by omega⟩
  | _ => .reserved

/-- An item of an image: its store entry must be free; its handle stays (R336). -/
def State.restoreItem (s : State) (j : InstNo) (f : List Nat) : Option State :=
  let k := nth f 2 % 2 ^ 14
  let g : GroupNo := ⟨nth f 4 % 16, by omega⟩
  if (kget s.disp.items k).isSome then none
  else
    let x : Item :=
      { owner := j, group := g, flow := BitVec.ofNat 20 (nth f 3), src := BitVec.ofNat 2 (nth f 5), tag := BitVec.ofNat 64 (nth f 6)
        bytes := BitVec.ofNat 24 (nth f 7), status := BitVec.ofNat 8 (nth f 8), ringIndex := BitVec.ofNat 16 (nth f 9)
        ep := BitVec.ofNat 17 (nth f 10), gate := BitVec.ofNat 12 (nth f 11), st := itemStateOf f, stamp := BitVec.ofNat 32 (nth f 12)
        ready := BitVec.ofNat 64 (nth f 13), seq := s.nextId }
    let s := s.takeId.modDisp fun d =>
      { d with items := kset d.items k x, gens := kset d.gens k (BitVec.ofNat 2 (nth f 2 / 2 ^ 14)) }
    some (if x.st == .pending then s.modGroup g fun y => { y with fifo := y.fifo ++ [k] } else s)

/-- Items in the order in which they became ready. -/
def itemsInOrder (recs : List (List Byte)) : List (List Nat) :=
  ((recs.map fun b => Config.imageFields 0x08 b).map fun f => (nth f 14, f)).mergeSort (fun a b => decide (a.1 ≤ b.1)) |>.map (·.2)

/-- The WAIT in progress, from its fields. -/
def waitOf (a b c : Nat) : Option WaitOn :=
  match a with
  | 1 => some (.tick b)
  | 2 => some (.gate b)
  | 3 => some (.chan ⟨b % 16, by omega⟩ (BitVec.ofNat 16 c))
  | _ => none

/-- A channel of an image: owned by the manager and IDLE. -/
def State.restoreChan (s : State) (j : InstNo) (b : List Byte) : Option State :=
  let f := Config.imageFields 0x0A b
  let c : ChanNo := ⟨nth f 0 % 16, by omega⟩
  if (s.chan c).owner != 0 || (s.chan c).cstate != .idle then none
  else
    some (s.setChan c
      { owner := j, progWords := BitVec.ofNat 16 (nth f 1), vecEn := nthB f 2, vector := BitVec.ofNat 6 (nth f 3)
        evtRing := ⟨nth f 4 % 8, by omega⟩, progAddr := BitVec.ofNat 64 (nth f 5), store := nthB f 6, paramAddr := BitVec.ofNat 64 (nth f 7)
        tag := BitVec.ofNat 64 (nth f 8), count := BitVec.ofNat 32 (nth f 9), pc := BitVec.ofNat 16 (nth f 10), post := BitVec.ofNat 16 (nth f 11)
        fault := BitVec.ofNat 8 (nth f 12), startIgnored := BitVec.ofNat 8 (nth f 13), flag := nthB f 14
        cstate := [CState.idle, .pending, .running, .waiting, .paused].getD (nth f 15) .idle, ready := nthB f 16, moved := nth f 17
        timeout := BitVec.ofNat 24 (nth f 18), tagBegin := BitVec.ofNat 64 (nth f 19)
        resv := (natOpt (nth f 20)).map fun e => ⟨e % 8, by omega⟩, wait := waitOf (nth f 21) (nth f 22) (nth f 23), hit := nthB f 24
        loops := Vector.ofFn fun k => BitVec.ofNat 24 (nth f (25 + k.val)), ptrs := Vector.ofFn fun k => BitVec.ofNat 64 (nth f (29 + k.val))
        strides := Vector.ofFn fun k => BitVec.ofNat 32 (nth f (37 + k.val)) })

/-- The counters of an image (R351): every RW field, and `user_read` masked by the restored `allowed`. -/
def State.restoreCounters (s : State) (j : InstNo) (b : List Byte) : State :=
  let ctr (k : Fin 4) : Counter :=
    let at' := 0x20 * k.val
    let v : Word := BitVec.ofNat 64 (numAt b (at' + 8) 8)
    { (({ priv := 0 } : Counter).select (BitVec.ofNat 64 (numAt b at' 8)) false) with
      ovf := bitOf v 63, count := BitVec.ofNat 48 (fld v 47 0)
      lo := BitVec.ofNat 64 (numAt b (at' + 0x10) 8), hi := BitVec.ofNat 64 (numAt b (at' + 0x18) 8) }
  s.modInst j fun n =>
    { n with ctrs := Vector.ofFn ctr, userRead := BitVec.ofNat 4 (numAt b 0x80 1) &&& n.allowed, ctrVector := BitVec.ofNat 6 (numAt b 0x89 1) }

/-- A state changed for each record, as far as every one can be granted. -/
def State.grantEach {α : Type} (s : State) (l : List α) (f : State → α → Option State) : Option State :=
  l.foldl (fun a x => a.bind fun s => f s x) (some s)

/-- The whole image applied to instance `j`; none when a grant fails (R336). -/
def State.applyInstance (s : State) (j : InstNo) (img : List Byte) : Option State :=
  let share := Config.imageFields 0x01 ((imageRecords img 0x01 512).headD [])
  let devs := (imageRecords img 0x02 80).map imgDev
  let here : Bool := numAt img 0x10 8 == Config.serial.toNat
  let rings := Config.imageFields 0x04 ((imageRecords img 0x04 512).headD [])
  (s.grantShare j share devs).bind fun s =>
    let s := s.each (imageRecords img 0x05 8).zipIdx fun s x =>
      let r := readRegion (BitVec.ofNat 64 (numAt x.1 0 8))
      if r.valid then s.modInst j fun n => { n with regions := kset n.regions x.2 r } else s
    let s := s.each (imageRecords img 0x06 512).zipIdx fun s x => s.hawkWrite j (512 * x.2) x.1
    (s.grantEach (imageRecords img 0x03 72) fun s b => s.restoreEp j devs here b).bind fun s =>
      let s := s.restoreRings j rings (imageRecords img 0x0C 40)
      (s.restoreQueues j (nth share 9) (imageRecords img 0x09 16)).bind fun s =>
        (s.grantEach (imageRecords img 0x07 32) fun s b => s.restoreGate j b).bind fun s =>
          (s.grantEach (itemsInOrder (imageRecords img 0x08 48)) fun s f => s.restoreItem j f).bind fun s =>
            (s.grantEach (imageRecords img 0x0A 128) fun s b => s.restoreChan j b).map fun s =>
              let base := 1024 * (s.inst j).stBase
              let s := s.each (imageRecords img 0x0B 1024).zipIdx fun s x => s.storeWrite (base + 1024 * x.2) x.1
              s.restoreCounters j ((imageRecords img 0x0D 256).headD [])

/-! ### RESTORE_INSTANCE (R148, R335) -/

/-- The command's operation on an instance is over; a Function Level Reset that waited for it goes on (R325). -/
def State.endOp (s : State) (j : InstNo) : State :=
  s.modInst j fun n => { n with op := if n.flrAsked then .flr else .none, flrPending := false }

/-- A restore fails: everything applied is wiped, and the instance is QUIESCED and fresh again (R335). -/
def State.unRestore (s : State) (j : InstNo) : State := (s.wipeInst j).modInst j fun n => { n with fresh := true }

/-- The image has come: the second read is made, and the restore ends with the first status of R335 that applies. A port whose speed
has changed is waited for (R175). -/
def State.restoreData (s : State) (slot : BitVec 16) (e : CEntry) (data : List Byte) : State :=
  match s.tenantOf e with
  | none => s.finish 0 slot .paramInvalid 0
  | some j =>
    if allPorts.any fun p => (s.port p).converting then s.setPhase 0 slot (.read data)
    else
      let fail (st : Status) (r : Nat) : State := ((s.unRestore j).endOp j).finish 0 slot st r
      match s.sealCheck data (fld e 223 192) with
      | some st => fail st 0
      | none =>
        let s := s.hostRead 0 (fld e 191 128) (fld e 223 192) none none
        match ((imageRecords data 0x02 80).map imgDev).find? s.devDiffers with
        | some x => fail .paramInvalid x.zone
        | none =>
          match s.applyInstance j data with
          | none => fail .noResources 0
          | some t => ((t.modInst j fun n => { n with fresh := false }).endOp j).finish 0 slot .cmdOk 0

/-- A restore that waited for a port's conversion goes on. -/
def State.restoreOn (s : State) (i : InstNo) (slot : BitVec 16) : Option State :=
  match s.cmd i slot with
  | some ⟨_, e, .read data⟩ => if i = 0 && ceOp e == 0x48 && s.runs then some (s.restoreData slot e data) else none
  | _ => none

/-- RESTORE_INSTANCE (R148, R335): the instance must be QUIESCED and fresh; the image is read (DEDUCED, log 95) (DEDUCED, log 96). -/
def execRestoreInstance (i : InstNo) (slot : BitVec 16) (s : State) : Answer :=
  match s.restoreOn i slot with
  | some t => done t
  | none =>
    carryOut i slot 0x48 anyForm s fun e =>
      match s.tenantOf e with
      | none => .ends s .paramInvalid 0
      | some j =>
        if (s.inst j).st != .quiesced || !(s.inst j).fresh then .ends s .notQuiesced 0
        else
          .waits ((s.modInst j fun n => { n with op := .restoring }).hostRead 0 (fld e 191 128) (fld e 223 192) none none)

end Sys2Proof.Machine
end

