-- ==== Sys2Proof/Machine/Host.lean ====
section
/-!
DEFINITION. Ends of host memory accesses: the data read for a command (R145, R148, R149), and accesses that the host refuses
or never completes (R114, R442).
-/
namespace Sys2Proof.Machine

/-! ### Reads made for a command -/

/-- Bytes that a command reads from host memory. -/
def readLength (e : CEntry) : Nat :=
  match ceOp e with
  | 0x30 => 8 * fld e 95 80
  | 0x33 => 8 * fld e 205 192
  | 0x48 => fld e 223 192
  | 0x4B => 32 * fld e 205 192
  | 0x4C => fld e 223 192
  | 0x4D => fld e 207 192
  | _ => 0

/-- The words of a STENCIL_LOAD have come (R145). -/
def State.loadData (s : State) (i : InstNo) (slot : BitVec 16) (e : CEntry) (data : List Byte) : State :=
  (s.storeWrite (1024 * (s.inst i).stBase + fld e 79 64) data).finish i slot .cmdOk 0

/-- The slot list of a COMMIT_ARM has come (R190): its first bad entry makes the command malformed; otherwise the commit binds once
no earlier command of the ring names a listed endpoint (R149). -/
def State.listData (s : State) (i : InstNo) (slot : BitVec 16) (e : CEntry) (data : List Byte) : State :=
  match (slotList data (fld e 205 192)).findSome? (s.listBad i) with
  | some code =>
    (s.modInst i fun n => { n with cmds := n.cmds.filter fun c => c.slot != slot }).malformed i code 0 0 slot.toNat
  | none =>
    let s := s.setPhase i slot (.read data)
    ((s.cmd i slot).bind (s.armOn i)).getD s

/-- A LIFECYCLE's record has come (R385, R388). -/
def State.recordData (s : State) (i : InstNo) (slot : BitVec 16) (e : CEntry) (data : List Byte) : State :=
  match lcTarget (fld e 67 64) with
  | none => s
  | some b =>
    match lcRecord s.pw.lcState b (data.length == 0) with
    | some t => s.lifeData i slot b t data
    | none => s.finish i slot .paramInvalid 0

/-- The data that a waiting command asked for. -/
def State.commandData (s : State) (i : InstNo) (slot : BitVec 16) (e : CEntry) (data : List Byte) : State :=
  match ceOp e with
  | 0x30 => s.loadData i slot e data
  | 0x33 => s.listData i slot e data
  | 0x48 => s.restoreData slot e data
  | 0x4B =>
    let (t, st) := s.egressData e data
    t.finish i slot st 0
  | 0x4C =>
    if s.boot.staging.isSome then s
    else match s.stageData slot data with
      | (t, some st) => t.finish i slot st 0
      | (t, none) => t
  | 0x4D => s.recordData i slot e data
  | _ => s

/-- COMMAND_HOST_READ_COMPLETE (R145, R148): the read of a waiting command completes with every byte that it asked for (DEDUCED, log 98). -/
def execCommandHostReadComplete (i : InstNo) (slot : BitVec 16) (data : List Byte) (s : State) : Answer :=
  match s.cmd i slot with
  | none => .next s
  | some c =>
    if !s.runs || (s.inst i).halted || c.phase != .waiting || data.length != readLength c.entry then .next s
    else done (s.commandData i slot c.entry data)

/-! ### Accesses that fail (R114, R442) -/

/-- A host access that ends without a completion that can be used is HOST_REFUSED malformed work of its owner. -/
def State.refuse (s : State) (acc : HostAccess) : State :=
  match acc with
  | .command i slot => s.malformed i mHostRefused 0 0 slot.toNat
  | .transfer k slot =>
    match s.ep k with
    | some e => s.malformed e.inst mHostRefused 0 (s.localIx e k + 1) slot.toNat
    | none => s
  | .event i e slot => s.malformed i mHostRefused 1 e.val slot.toNat
  | .mirror i e => s.malformed i mHostRefused 1 e.val 0xFFFF
  | .stencil c param => s.malformed (s.chan c).owner mHostRefused 2 c.val (if param then 0 else (s.chan c).pc.toNat)
  | .frameList i => (s.modInst i fun n => { n with walk := n.walk.map fun w => { w with next := none } }).malformed i mHostRefused 3 0 0
  | .trace => s.malformed 0 mHostRefused 3 0 0
  | .dirtyLog => s.malformed 0 mHostRefused 3 0 0
  | .backing off => s.malformedAt 0 mHostRefused 3 0 0 (some off)

/-- HOST_ACCESS_REFUSED (R114, R442): the access ended with Unsupported Request or Completer Abort. -/
def execHostAccessRefused (acc : HostAccess) (s : State) : Answer :=
  if s.runs then done (s.refuse acc) else .next s

/-- HOST_ACCESS_TIMEOUT (R114, R442): the access got no completion within 50 ms. -/
def execHostAccessTimeout (acc : HostAccess) (s : State) : Answer :=
  if s.runs then done (s.refuse acc) else .next s

end Sys2Proof.Machine
end

