-- ==== Sys2Proof/Machine/Dispatch.lean ====
section
/-! DEFINITION. One arm per command: each is one direct call of its meaning. -/
namespace Sys2Proof.Machine

def exec (i : Instr) (s : State) : Host.Outcome State Fault Refusal :=
  match i with
  | .vddAonRise => Sys2Proof.Machine.execVddAonRise s
  | .vddAonLoss => Sys2Proof.Machine.execVddAonLoss s
  | .perstNAssert => Sys2Proof.Machine.execPerstNAssert s
  | .perstNRelease => Sys2Proof.Machine.execPerstNRelease s
  | .mainSuppliesRemoved rail => Sys2Proof.Machine.execMainSuppliesRemoved rail s
  | .pllLock => Sys2Proof.Machine.execPllLock s
  | .firstWipeComplete => Sys2Proof.Machine.execFirstWipeComplete s
  | .pcieLinkUp => Sys2Proof.Machine.execPcieLinkUp s
  | .selfTestComplete failed dir0 dir1 => Sys2Proof.Machine.execSelfTestComplete failed dir0 dir1 s
  | .firmwareSlotReadDone ok => Sys2Proof.Machine.execFirmwareSlotReadDone ok s
  | .signatureCheckDone image => Sys2Proof.Machine.execSignatureCheckDone image s
  | .configImageReadDone image => Sys2Proof.Machine.execConfigImageReadDone image s
  | .configImageApplied => Sys2Proof.Machine.execConfigImageApplied s
  | .pcieHotReset => Sys2Proof.Machine.execPcieHotReset s
  | .pcieLinkDown => Sys2Proof.Machine.execPcieLinkDown s
  | .pfFunctionLevelReset => Sys2Proof.Machine.execPfFunctionLevelReset s
  | .sequencerWatchdog => Sys2Proof.Machine.execSequencerWatchdog s
  | .lathParityError block replays recovered => Sys2Proof.Machine.execLathParityError block replays recovered s
  | .vfEnableSet => Sys2Proof.Machine.execVfEnableSet s
  | .vfEnableClear => Sys2Proof.Machine.execVfEnableClear s
  | .numvfsWrite v => Sys2Proof.Machine.execNumvfsWrite v s
  | .functionD3hot fn => Sys2Proof.Machine.execFunctionD3hot fn s
  | .functionD0 fn => Sys2Proof.Machine.execFunctionD0 fn s
  | .busMasterEnableWrite fn v => Sys2Proof.Machine.execBusMasterEnableWrite fn v s
  | .vfFunctionLevelReset inst => Sys2Proof.Machine.execVfFunctionLevelReset inst s
  | .flrWipe inst => Sys2Proof.Machine.execFlrWipe inst s
  | .sheddingStepEngage sens => Sys2Proof.Machine.execSheddingStepEngage sens s
  | .sheddingStepRetrace sens => Sys2Proof.Machine.execSheddingStepRetrace sens s
  | .egressNAssert => Sys2Proof.Machine.execEgressNAssert s
  | .egressNDeassert => Sys2Proof.Machine.execEgressNDeassert s
  | .egressUnhaltRetry ep => Sys2Proof.Machine.execEgressUnhaltRetry ep s
  | .retainWake src => Sys2Proof.Machine.execRetainWake src s
  | .hostAccessRefused acc => Sys2Proof.Machine.execHostAccessRefused acc s
  | .hostAccessTimeout acc => Sys2Proof.Machine.execHostAccessTimeout acc s
  | .contextReadComplete slot bytes => Sys2Proof.Machine.execContextReadComplete slot bytes s
  | .doorbell inst w => Sys2Proof.Machine.execDoorbell inst w s
  | .strayDoorbellPageWrite inst => Sys2Proof.Machine.execStrayDoorbellPageWrite inst s
  | .fDoorbell w => Sys2Proof.Machine.execFDoorbell w s
  | .commandFetch inst entry => Sys2Proof.Machine.execCommandFetch inst entry s
  | .transferEntryTake ep entry ecc => Sys2Proof.Machine.execTransferEntryTake ep entry ecc s
  | .indexMirrorWrite inst e => Sys2Proof.Machine.execIndexMirrorWrite inst e s
  | .moderationIntervalExpiry inst e => Sys2Proof.Machine.execModerationIntervalExpiry inst e s
  | .msixVectorUnmask inst v => Sys2Proof.Machine.execMsixVectorUnmask inst v s
  | .l1ExitComplete => Sys2Proof.Machine.execL1ExitComplete s
  | .eventRingHeadWrite inst e head => Sys2Proof.Machine.execEventRingHeadWrite inst e head s
  | .commandRingEnable inst => Sys2Proof.Machine.execCommandRingEnable inst s
  | .commandRingDisable inst => Sys2Proof.Machine.execCommandRingDisable inst s
  | .eventRingEnable inst e => Sys2Proof.Machine.execEventRingEnable inst e s
  | .eventRingDisable inst e => Sys2Proof.Machine.execEventRingDisable inst e s
  | .backingStoreLock w => Sys2Proof.Machine.execBackingStoreLock w s
  | .registerWrite inst off w => Sys2Proof.Machine.execRegisterWrite inst off w s
  | .nop inst slot => Sys2Proof.Machine.execNop inst slot s
  | .admitDevice inst slot => Sys2Proof.Machine.execAdmitDevice inst slot s
  | .assignAddress inst slot => Sys2Proof.Machine.execAssignAddress inst slot s
  | .assignAddressReaddress inst slot => Sys2Proof.Machine.execAssignAddressReaddress inst slot s
  | .openEndpoint inst slot => Sys2Proof.Machine.execOpenEndpoint inst slot s
  | .modifyEndpoint inst slot => Sys2Proof.Machine.execModifyEndpoint inst slot s
  | .closeEndpoint inst slot => Sys2Proof.Machine.execCloseEndpoint inst slot s
  | .resetEndpoint inst slot => Sys2Proof.Machine.execResetEndpoint inst slot s
  | .haltClear inst slot => Sys2Proof.Machine.execHaltClear inst slot s
  | .setDequeue inst slot => Sys2Proof.Machine.execSetDequeue inst slot s
  | .releaseDevice inst slot => Sys2Proof.Machine.execReleaseDevice inst slot s
  | .portControlPowerOn inst slot => Sys2Proof.Machine.execPortControlPowerOn inst slot s
  | .portControlPowerOff inst slot => Sys2Proof.Machine.execPortControlPowerOff inst slot s
  | .portControlReset inst slot => Sys2Proof.Machine.execPortControlReset inst slot s
  | .portControlSuspend inst slot => Sys2Proof.Machine.execPortControlSuspend inst slot s
  | .portControlResume inst slot idleUs => Sys2Proof.Machine.execPortControlResume inst slot idleUs s
  | .portControlDisable inst slot => Sys2Proof.Machine.execPortControlDisable inst slot s
  | .portControlDeviceReset inst slot => Sys2Proof.Machine.execPortControlDeviceReset inst slot s
  | .treePowerSuspend inst slot => Sys2Proof.Machine.execTreePowerSuspend inst slot s
  | .treePowerResume inst slot => Sys2Proof.Machine.execTreePowerResume inst slot s
  | .treePowerPowerOff inst slot => Sys2Proof.Machine.execTreePowerPowerOff inst slot s
  | .treePowerPowerOn inst slot => Sys2Proof.Machine.execTreePowerPowerOn inst slot s
  | .stencilLoad inst slot => Sys2Proof.Machine.execStencilLoad inst slot s
  | .gateCreate inst slot => Sys2Proof.Machine.execGateCreate inst slot s
  | .gateCancel inst slot => Sys2Proof.Machine.execGateCancel inst slot s
  | .commitArm inst slot => Sys2Proof.Machine.execCommitArm inst slot s
  | .counterGrantManager inst slot => Sys2Proof.Machine.execCounterGrantManager inst slot s
  | .counterGrantTenant inst slot => Sys2Proof.Machine.execCounterGrantTenant inst slot s
  | .setShare inst slot => Sys2Proof.Machine.execSetShare inst slot s
  | .setReservation inst slot => Sys2Proof.Machine.execSetReservation inst slot s
  | .assignDevice inst slot => Sys2Proof.Machine.execAssignDevice inst slot s
  | .hawkQuota inst slot => Sys2Proof.Machine.execHawkQuota inst slot s
  | .quiesceInstance inst slot => Sys2Proof.Machine.execQuiesceInstance inst slot s
  | .quiesceComplete inst => Sys2Proof.Machine.execQuiesceComplete inst s
  | .resumeInstance inst slot => Sys2Proof.Machine.execResumeInstance inst slot s
  | .resetInstance inst slot => Sys2Proof.Machine.execResetInstance inst slot s
  | .saveInstance inst slot => Sys2Proof.Machine.execSaveInstance inst slot s
  | .restoreInstance inst slot => Sys2Proof.Machine.execRestoreInstance inst slot s
  | .dirtyLogStart inst slot => Sys2Proof.Machine.execDirtyLogStart inst slot s
  | .dirtyLogSync inst slot => Sys2Proof.Machine.execDirtyLogSync inst slot s
  | .dirtyLogStop inst slot => Sys2Proof.Machine.execDirtyLogStop inst slot s
  | .setSplit inst slot => Sys2Proof.Machine.execSetSplit inst slot s
  | .setSplitTakeEffect => Sys2Proof.Machine.execSetSplitTakeEffect s
  | .egressProgram inst slot => Sys2Proof.Machine.execEgressProgram inst slot s
  | .firmwareStage inst slot => Sys2Proof.Machine.execFirmwareStage inst slot s
  | .firmwareActivate inst slot => Sys2Proof.Machine.execFirmwareActivate inst slot s
  | .firmwareDiscard inst slot => Sys2Proof.Machine.execFirmwareDiscard inst slot s
  | .lifecycle inst slot => Sys2Proof.Machine.execLifecycle inst slot s
  | .subframeTick => Sys2Proof.Machine.execSubframeTick s
  | .plannerCutoff => Sys2Proof.Machine.execPlannerCutoff s
  | .commitMissed c => Sys2Proof.Machine.execCommitMissed c s
  | .frameListReadComplete inst rd => Sys2Proof.Machine.execFrameListReadComplete inst rd s
  | .reservationConversion p => Sys2Proof.Machine.execReservationConversion p s
  | .periodicInRound p now => Sys2Proof.Machine.execPeriodicInRound p now s
  | .periodicOutRound p now ecc => Sys2Proof.Machine.execPeriodicOutRound p now ecc s
  | .bulkPick p now => Sys2Proof.Machine.execBulkPick p now s
  | .trowelTakeWork k => Sys2Proof.Machine.execTrowelTakeWork k s
  | .stagingComplete txn data ecc => Sys2Proof.Machine.execStagingComplete txn data ecc s
  | .bulkInRound p now => Sys2Proof.Machine.execBulkInRound p now s
  | .bulkOutBurst p now => Sys2Proof.Machine.execBulkOutBurst p now s
  | .outSegmentContinue p now => Sys2Proof.Machine.execOutSegmentContinue p now s
  | .controlSetupStage p now => Sys2Proof.Machine.execControlSetupStage p now s
  | .controlDataStage p now => Sys2Proof.Machine.execControlDataStage p now s
  | .controlStatusStage p now => Sys2Proof.Machine.execControlStatusStage p now s
  | .dataBlockReceived p pkt now => Sys2Proof.Machine.execDataBlockReceived p pkt now s
  | .ackReceived p pkt now => Sys2Proof.Machine.execAckReceived p pkt now s
  | .stallReceived p pkt now => Sys2Proof.Machine.execStallReceived p pkt now s
  | .turnaroundTimeout p now => Sys2Proof.Machine.execTurnaroundTimeout p now s
  | .babbleDetected p now => Sys2Proof.Machine.execBabbleDetected p now s
  | .lineActiveTooLong p => Sys2Proof.Machine.execLineActiveTooLong p s
  | .strayPacket p => Sys2Proof.Machine.execStrayPacket p s
  | .silenceBackoffExpiry who => Sys2Proof.Machine.execSilenceBackoffExpiry who s
  | .recoveryBackoffExpiry ep => Sys2Proof.Machine.execRecoveryBackoffExpiry ep s
  | .transactionDeliveryDone d => Sys2Proof.Machine.execTransactionDeliveryDone d s
  | .lineStateChange p line => Sys2Proof.Machine.execLineStateChange p line s
  | .attachDebounceDone p => Sys2Proof.Machine.execAttachDebounceDone p s
  | .presenceWindow p low => Sys2Proof.Machine.execPresenceWindow p low s
  | .detachLowTimeout p => Sys2Proof.Machine.execDetachLowTimeout p s
  | .resetLowEnd p => Sys2Proof.Machine.execResetLowEnd p s
  | .chirpReplyReceived p => Sys2Proof.Machine.execChirpReplyReceived p s
  | .chirpReplyTimeout p => Sys2Proof.Machine.execChirpReplyTimeout p s
  | .trainingLock p => Sys2Proof.Machine.execTrainingLock p s
  | .trainingLockFail p => Sys2Proof.Machine.execTrainingLockFail p s
  | .trainDoneEcho p => Sys2Proof.Machine.execTrainDoneEcho p s
  | .trainDoneEchoTimeout p => Sys2Proof.Machine.execTrainDoneEchoTimeout p s
  | .fallbackReleaseEnd p => Sys2Proof.Machine.execFallbackReleaseEnd p s
  | .resetRecoveryEnd p => Sys2Proof.Machine.execResetRecoveryEnd p s
  | .downshift p => Sys2Proof.Machine.execDownshift p s
  | .suspendEnter p => Sys2Proof.Machine.execSuspendEnter p s
  | .suspendIdleDone p => Sys2Proof.Machine.execSuspendIdleDone p s
  | .resumeWakeEnd p => Sys2Proof.Machine.execResumeWakeEnd p s
  | .resumeLowEnd p => Sys2Proof.Machine.execResumeLowEnd p s
  | .remoteWakeRecognised p => Sys2Proof.Machine.execRemoteWakeRecognised p s
  | .remoteWakeResumeStart p => Sys2Proof.Machine.execRemoteWakeResumeStart p s
  | .portBlankingEnd p => Sys2Proof.Machine.execPortBlankingEnd p s
  | .portPowerFault p => Sys2Proof.Machine.execPortPowerFault p s
  | .portPowerRetry p => Sys2Proof.Machine.execPortPowerRetry p s
  | .babbleAutoReset p => Sys2Proof.Machine.execBabbleAutoReset p s
  | .prtChangeClear p w => Sys2Proof.Machine.execPrtChangeClear p w s
  | .trowelOosRequest k => Sys2Proof.Machine.execTrowelOosRequest k s
  | .trowelReturnRequest k => Sys2Proof.Machine.execTrowelReturnRequest k s
  | .trowelDrainComplete k => Sys2Proof.Machine.execTrowelDrainComplete k s
  | .trowelSelfCheckEnd k pass => Sys2Proof.Machine.execTrowelSelfCheckEnd k pass s
  | .trowelFault k watchdog => Sys2Proof.Machine.execTrowelFault k watchdog s
  | .snagLogFlush => Sys2Proof.Machine.execSnagLogFlush s
  | .hawkScrubRead ecc => Sys2Proof.Machine.execHawkScrubRead ecc s
  | .hwkRegionWrite inst d w => Sys2Proof.Machine.execHwkRegionWrite inst d w s
  | .hubPortQuery hub hport => Sys2Proof.Machine.execHubPortQuery hub hport s
  | .controllerControlTransferEnd id => Sys2Proof.Machine.execControllerControlTransferEnd id s
  | .enumerationStart => Sys2Proof.Machine.execEnumerationStart s
  | .hubResetWaitEnd => Sys2Proof.Machine.execHubResetWaitEnd s
  | .enumRetry pos => Sys2Proof.Machine.execEnumRetry pos s
  | .readdressTimeout zone => Sys2Proof.Machine.execReaddressTimeout zone s
  | .treeIdleExpiry pos => Sys2Proof.Machine.execTreeIdleExpiry pos s
  | .stencilStart inst c => Sys2Proof.Machine.execStencilStart inst c s
  | .stencilBegin c => Sys2Proof.Machine.execStencilBegin c s
  | .paramBlockReadDone c bytes => Sys2Proof.Machine.execParamBlockReadDone c bytes s
  | .stencilStop inst c => Sys2Proof.Machine.execStencilStop inst c s
  | .stencilManagerStop c => Sys2Proof.Machine.execStencilManagerStop c s
  | .stnOwnerWrite c w => Sys2Proof.Machine.execStnOwnerWrite c w s
  | .stnCountWrite inst c w => Sys2Proof.Machine.execStnCountWrite inst c w s
  | .stencilMove c row src ecc => Sys2Proof.Machine.execStencilMove c row src ecc s
  | .stencilFill c row => Sys2Proof.Machine.execStencilFill c row s
  | .stencilCmp c row a b ecc => Sys2Proof.Machine.execStencilCmp c row a b ecc s
  | .stencilLoop c line => Sys2Proof.Machine.execStencilLoop c line s
  | .stencilWait c line => Sys2Proof.Machine.execStencilWait c line s
  | .stencilWaitSatisfied c => Sys2Proof.Machine.execStencilWaitSatisfied c s
  | .stencilWaitTimeout c => Sys2Proof.Machine.execStencilWaitTimeout c s
  | .stencilSignal c line => Sys2Proof.Machine.execStencilSignal c line s
  | .stencilJump c line => Sys2Proof.Machine.execStencilJump c line s
  | .stencilEnd c line => Sys2Proof.Machine.execStencilEnd c line s
  | .dispatchDeliver => Sys2Proof.Machine.execDispatchDeliver s
  | .dspRelease inst w => Sys2Proof.Machine.execDspRelease inst w s
  | .dspGroupWrite g w => Sys2Proof.Machine.execDspGroupWrite g w s
  | .dspQmapWrite q w => Sys2Proof.Machine.execDspQmapWrite q w s
  | .dspQcfgWrite inst q w => Sys2Proof.Machine.execDspQcfgWrite inst q w s
  | .dspTraceEnable w => Sys2Proof.Machine.execDspTraceEnable w s
  | .dspTraceHeadWrite w => Sys2Proof.Machine.execDspTraceHeadWrite w s
  | .dspStatsWindowEnd => Sys2Proof.Machine.execDspStatsWindowEnd s
  | .cntValWrite set j w => Sys2Proof.Machine.execCntValWrite set j w s
  | .cntSelWrite set j w => Sys2Proof.Machine.execCntSelWrite set j w s
  | .counterSampleClear set w => Sys2Proof.Machine.execCounterSampleClear set w s
  | .mtrCfgWrite w => Sys2Proof.Machine.execMtrCfgWrite w s
  | .mtrWindowEnd => Sys2Proof.Machine.execMtrWindowEnd s
  | .sngIndexWrite w => Sys2Proof.Machine.execSngIndexWrite w s
  | .smbusHealth => Sys2Proof.Machine.execSmbusHealth s
  | .smbusSnagRange => Sys2Proof.Machine.execSmbusSnagRange s
  | .smbusSnagEntry sseq => Sys2Proof.Machine.execSmbusSnagEntry sseq s
  | .smbusPortOff port outranked => Sys2Proof.Machine.execSmbusPortOff port outranked s
  | .smbusReqResult => Sys2Proof.Machine.execSmbusReqResult s
  | .smbusReset data => Sys2Proof.Machine.execSmbusReset data s
  | .smbusClockLowTimeout => Sys2Proof.Machine.execSmbusClockLowTimeout s
  | .tapInstruction ins => Sys2Proof.Machine.execTapInstruction ins s
  | .tapReset => Sys2Proof.Machine.execTapReset s
  | .mainSuppliesValid => Sys2Proof.Machine.execMainSuppliesValid s
  | .firstTokenAfterResume p => Sys2Proof.Machine.execFirstTokenAfterResume p s
  | .hubBranchUsable hub hport => Sys2Proof.Machine.execHubBranchUsable hub hport s
  | .corruptPacketReceived p pkt now => Sys2Proof.Machine.execCorruptPacketReceived p pkt now s
  | .flashWriteComplete ok => Sys2Proof.Machine.execFlashWriteComplete ok s
  | .commandHostReadComplete inst slot data => Sys2Proof.Machine.execCommandHostReadComplete inst slot data s
  | .aspmL1Entry sub => Sys2Proof.Machine.execAspmL1Entry sub s

end Sys2Proof.Machine
end

