-- ==== Sys2Proof/Machine/Reads.lean ====
section
/-!
DEFINITION. What the registers read as (R7, R8, R404 to R412): the native blocks, the forerunner window, and configuration space. A read
has no side effect on any register (R407), so it is a function of the state and no command.
-/
namespace Sys2Proof.Machine

/-- A register of named fields (lowest bit, width, value); every other bit reads 0 (R8). -/
def regWord (l : List (Nat × Nat × Nat)) : Word := BitVec.ofNat 64 (pack l)

/-! ### The instance window (R405) -/

/-- RNG_STATUS (R129): on the physical function the halt fields stay 0. -/
def State.rngStatus (s : State) (i : InstNo) : Word :=
  let n := s.inst i
  let stray := (48, 16, n.strayWrites.toNat)
  if i = 0 then regWord [stray]
  else regWord [(0, 1, b2n n.halted), (5, 8, n.malCode.toNat), (13, 2, n.badKind.toNat), (15, 17, n.badTarget.toNat), (32, 16, n.badIndex.toNat),
    stray]

/-- Contexts pinned for the current and the coming subframe, each counted once (R102). -/
def Mems.pinned (m : Mems) : Nat := m.pinNow.length + (m.pinNext.filter fun k => !m.pinNow.contains k).length

/-- The RNG block (R127 to R132). -/
def State.readRng (s : State) (i : InstNo) (off : Nat) : Word :=
  let n := s.inst i
  if off = 0x000 then n.cmdBase
  else if off = 0x008 then regWord [(0, 4, n.cmdSize.toNat), (7, 1, b2n n.cmdEn)]
  else if off = 0x010 then regWord [(0, 16, n.cmdTail.toNat), (16, 16, n.cmdHead.toNat)]
  else if off = 0x018 then s.rngStatus i
  else if off = 0x020 then regWord [(0, 17, n.epBase), (32, 17, n.epLimit)]
  else if 0x040 ≤ off && off < 0x140 then
    let r := s.ring i ⟨(off - 0x40) / 0x20 % 8, by omega⟩
    match (off - 0x40) % 0x20 with
    | 0x00 => r.base
    | 0x08 => r.cfg
    | 0x10 => regWord [(0, 16, r.head.toNat)]
    | 0x18 => r.mirror
    | _ => 0
  else if i != 0 then 0
  else if off = 0x140 then s.bstore
  else if off = 0x148 then regWord [(0, 14, s.mem.cache.length), (16, 14, s.mem.pinned), (32, 32, s.mem.misses.toNat)]
  else 0

/-- FRM_NOW (R199). -/
def State.frmNow (s : State) : Word := BitVec.ofNat 64 s.pl.subN

/-- The SKM block (R198 to R202). -/
def State.readSkm (s : State) (i : InstNo) (off : Nat) : Word :=
  let n := s.inst i
  if off = 0x000 then n.flBase ||| regWord [(0, 4, n.flSize.toNat), (4, 1, b2n n.flEn)]
  else if off = 0x008 then regWord [(16, 16, n.lateWalks.toNat), (32, 16, n.overlong.toNat), (48, 16, n.badDesc.toNat)]
  else if off = 0x010 then s.frmNow
  else if 0x100 ≤ off && off < 0x200 then
    let p : PortNo := ⟨(off - 0x100) / 8 % 32, by omega⟩
    regWord [(0, 16, vget n.units p), (32, 16, s.bookedPeak i p)]
  else if i != 0 then 0
  else if off = 0x200 then
    regWord [(0, 1, b2n s.pl.periodicHw), (16, 9, (s.commits.filter fun c => c.2.phase == .armed).length), (32, 32, s.pl.lateBuilds.toNat)]
  else if 0x300 ≤ off && off < 0x400 then
    let x := s.port ⟨(off - 0x300) / 8 % 32, by omega⟩
    regWord [(0, 16, x.overrunMax.toNat), (16, 16, x.skimsLost.toNat), (32, 32, x.svcMissed.toNat)]
  else 0

/-- Active flows of an instance (R298): pairs of instance and flow ID with an item pending, parked or in service. -/
def State.flowsActive (s : State) (i : InstNo) : Nat :=
  ((s.disp.items.filterMap fun x => if x.2.owner == i && x.2.flow != 0 && x.2.st != .reserved then some x.2.flow else none).eraseDups).length

/-- DSP_QCFG as it reads (R309). -/
def Queue.cfg (q : Queue) : Word :=
  regWord [(8, 6, q.vector.toNat), (15, 1, b2n q.vecEn), (16, 3, q.evtRing.val), (19, 4, q.weight.toNat), (23, 8, q.depthMax.toNat),
    (31, 1, b2n q.enable)]

/-- DSP_CORE (R306, R309). -/
def Queue.core (q : Queue) : Word :=
  regWord [(0, 8, q.depth), (8, 14, q.delivered.toNat), (22, 10, q.load.toNat), (32, 32, q.waitAvg.toNat)]

/-- The DSP block (R307 to R311); DSP_RELEASE is WO. -/
def State.readDsp (s : State) (i : InstNo) (off : Nat) : Word :=
  let n := s.inst i
  let mine (q : QueueNo) : Bool := i == 0 || (s.queue q).owner == i
  let t := s.disp.trace
  if off = 0x008 then
    regWord [(0, 15, s.flowsActive i), (15, 17, s.itemsHeld i), (32, 16, n.gateStrays.toNat), (48, 16, n.badReleases.toNat)]
  else if 0x100 ≤ off && off < 0x300 then
    let q : QueueNo := ⟨(off - 0x100) / 8 % 64, by omega⟩
    if mine q then (s.queue q).cfg else 0
  else if 0x300 ≤ off && off < 0x500 then
    let q : QueueNo := ⟨(off - 0x300) / 8 % 64, by omega⟩
    if mine q then (s.queue q).core else 0
  else if i != 0 then 0
  else if 0x500 ≤ off && off < 0x580 then regWord [(0, 6, (s.group ⟨(off - 0x500) / 8 % 16, by omega⟩).owner.val)]
  else if 0x580 ≤ off && off < 0x780 then
    let q := s.queue ⟨(off - 0x580) / 8 % 64, by omega⟩
    regWord [(0, 6, q.owner.val), (6, 4, q.group.val)]
  else if off = 0x780 then regWord [(0, 10, s.disp.windowFrames.toNat)]
  else if off = 0x788 then t.base
  else if off = 0x790 then regWord [(0, 4, t.size.toNat), (8, 1, b2n t.enable), (48, 16, t.kinds.toNat)]
  else if off = 0x798 then regWord [(0, 20, t.tail.toNat), (32, 20, t.head.toNat), (63, 1, b2n t.stopped)]
  else 0

/-- A register of a channel (R285, R286); STN_CTRL is WO. -/
def Chan.read (x : Chan) (reg : Nat) : Word :=
  match reg with
  | 0x08 => regWord [(0, 3, x.evtRing.val), (8, 6, x.vector.toNat), (14, 1, b2n x.vecEn), (16, 16, x.progWords.toNat)]
  | 0x10 => x.progAddr ||| regWord [(0, 1, b2n x.store)]
  | 0x18 => x.paramAddr
  | 0x20 => x.tag
  | 0x28 => x.count.setWidth 64
  | 0x30 => regWord [(0, 3, x.cstate.ctorIdx), (3, 1, b2n x.flag), (8, 8, x.startIgnored.toNat), (24, 8, x.fault.toNat), (32, 16, x.post.toNat),
      (48, 16, x.pc.toNat)]
  | _ => 0

/-- The STN block (R284 to R287): the registers of channels that the instance does not own read 0 (R262). -/
def State.readStn (s : State) (i : InstNo) (off : Nat) : Word :=
  if off < 0x400 then
    let x := s.chan ⟨off / 0x40 % 16, by omega⟩
    if x.owner == i then x.read (off % 0x40) else 0
  else if i != 0 then 0
  else if off < 0x480 then regWord [(0, 6, (s.chan ⟨(off - 0x400) / 8 % 16, by omega⟩).owner.val)]
  else if off = 0x480 then regWord [(0, 1, b2n s.mem.hiGated)]
  else 0

/-- The HWK block (R230, R234 to R236). -/
def State.readHwk (s : State) (i : InstNo) (off : Nat) : Word :=
  let n := s.inst i
  let m := s.mem
  if off = 0x0000 then regWord [(0, 16, n.unitMap.length), (16, 16, n.carved), (32, 11, n.regionQuota)]
  else if off = 0x0008 then regWord [(32, 16, n.ueHits.toNat), (48, 16, n.carveRejects.toNat)]
  else if 0x2000 ≤ off then ((kget n.regions ((off - 0x2000) / 8)).map Region.word).getD 0
  else if i != 0 then 0
  else if off = 0x0010 then regWord [(16, 16, m.ueCount.toNat), (32, 32, m.ceCount.toNat)]
  else if off = 0x0018 then regWord [(3, 21, m.eccAddr.toNat / 8), (63, 1, b2n m.eccValid)]
  else if off = 0x0020 then regWord [(0, 8, m.passS.toNat)]
  else 0

/-- CNT_SEL as it reads (R354): CNT_ISEL, and on a device-wide counter `priv`. -/
def Counter.selRead (c : Counter) (dev : Bool) : Word :=
  BitVec.ofNat 64 (c.selWord + if dev then pack [(32, 3, c.priv.toNat)] else 0)

/-- A counter's four registers (R354, R355). -/
def Counter.read (c : Counter) (dev : Bool) (reg : Nat) : Word :=
  match reg with
  | 0x00 => c.selRead dev
  | 0x08 => BitVec.ofNat 64 c.valWord
  | 0x10 => c.lo
  | 0x18 => c.hi
  | _ => 0

/-- The instance counter block (R353 to R357). -/
def State.readICnt (s : State) (i : InstNo) (off : Nat) : Word :=
  let n := s.inst i
  if off < 0x080 then (vget n.ctrs ⟨off / 0x20 % 4, by omega⟩).read false (off % 0x20)
  else if off = 0x080 then regWord [(0, 4, n.userRead.toNat), (8, 4, n.allowed.toNat)]
  else if off = 0x088 then regWord [(8, 6, n.ctrVector.toNat)]
  else if off = 0x090 then BitVec.ofNat 64 n.sample.word
  else if off = 0x098 then n.sample.addr
  else if off = 0x0A0 then s.pl.cycle
  else 0

/-- The counter user page (R349). -/
def State.readUser (s : State) (i : InstNo) (off : Nat) : Word :=
  let n := s.inst i
  if off = 0x000 then (if n.allowed = 0 then 0 else s.pl.cycle)
  else if 0x008 ≤ off && off < 0x028 then
    let j := (off - 8) / 8
    if n.allowed.getLsbD j && n.userRead.getLsbD j then BitVec.ofNat 64 (vget n.ctrs ⟨j % 4, by omega⟩).valWord else 0
  else 0

/-- Eight bytes of an MSI-X table of `count` entries (R122, R407). -/
def State.readMsix (s : State) (i : InstNo) (count off : Nat) : Word :=
  let m := (s.inst i).msixAt (off / 16)
  if count ≤ off / 16 then 0
  else if off % 16 = 0 then m.addr
  else regWord [(0, 32, m.data.toNat), (32, 1, b2n m.masked)]

/-- Eight bytes at an aligned offset of the instance window (R405): the doorbell page reads 0 (R93). -/
def State.readWindow (s : State) (i : InstNo) (off : Nat) : Word :=
  let o := off % 0x1000
  match off / 0x1000 with
  | 0x0 => s.readRng i o
  | 0x1 => s.readSkm i o
  | 0x2 => s.readDsp i o
  | 0x3 => s.readStn i o
  | 0x4 | 0x5 | 0x6 | 0x7 => s.readHwk i (off - 0x4000)
  | 0x8 => s.readICnt i o
  | 0x9 => s.readUser i o
  | 0xC => s.readMsix i (vectors i) o
  | 0xD => if o = 0 then (s.inst i).pba else 0
  | _ => 0

/-! ### The physical function's blocks (R404) -/

/-- PRT_CTRL as it reads (R85); in COMPAT `max_speed` is held at Standard (R414). -/
def State.prtCtrl (s : State) (p : PortNo) : Word :=
  let x := s.port p
  regWord [(0, 4, x.pwrRetryGap.toNat), (4, 4, x.pwrRetryMax.toNat), (8, 5, x.faultBlank.toNat), (13, 1, b2n x.mgrHold),
    (14, 2, if s.inCompat then 1 else x.maxSpeed.toNat), (16, 1, b2n x.wakeEn)]

/-- PRT_STATUS (R86). -/
def Port.status (x : Port) : Word :=
  regWord [(7, 1, b2n x.egressPort), (8, 8, x.pwrRetries.toNat), (16, 3, x.disableCause.toNat), (19, 1, b2n x.upshiftPending),
    (20, 1, b2n x.bmcOffReq), (21, 1, b2n x.egressHold), (22, 1, b2n x.ppwrFlt), (23, 1, b2n x.ppwrEn), (24, 2, x.pullup.toNat),
    (26, 2, x.speed.ctorIdx), (28, 4, x.st.ctorIdx)]

/-- PRT_TIMING (R88): it follows `speed`. -/
def Port.timing (x : Port) : Word := regWord [(0, 16, tmoTierNs x.speed), (16, 16, tmoBaseNs x.speed)]

/-- The PRT block (R84 to R89). -/
def State.readPrt (s : State) (off : Nat) : Word :=
  if 0x800 ≤ off then 0
  else
    let p : PortNo := ⟨off / 0x40 % 32, by omega⟩
    match off % 0x40 with
    | 0x00 => s.prtCtrl p
    | 0x08 => (s.port p).status
    | 0x10 => (s.port p).change.setWidth 64
    | 0x18 => (s.port p).timing
    | 0x20 => (s.port p).errcnt
    | _ => 0

/-- TRE_PORT (R261). -/
def State.trePort (s : State) (p : PortNo) : Word :=
  let x := s.port p
  regWord [(1, 1, b2n (s.tree.marks.any (·.port == p))), (2, 1, b2n x.enumHw), (3, 1, b2n x.hubHw), (4, 1, b2n x.treeHw),
    (8, 8, min 255 (s.tree.waiting.filter (·.pos.port == p)).length), (16, 8, x.enumFails.toNat), (24, 8, x.hubPollErrs.toNat),
    (32, 12, x.poolFirst), (48, 12, x.poolLast)]

/-- The TRE block (R259 to R261). -/
def State.readTre (s : State) (off : Nat) : Word :=
  if off = 0 then s.tree.idleMs.setWidth 64
  else if 0x100 ≤ off && off < 0x200 then s.trePort ⟨(off - 0x100) / 8 % 32, by omega⟩
  else 0

/-- TRW_STATUS (R232). -/
def Trowel.status (x : Trowel) : Word :=
  let held (k : Nat) (lo : Nat) : List (Nat × Nat × Nat) := match x.holds[k]? with
    | some p => [(lo, 5, p.val), (lo + 5, 1, 1)]
    | none => []
  regWord ([(0, 3, x.slots.length), (28, 1, b2n x.oosRefused), (29, 3, x.tstate.ctorIdx)] ++ held 0 22 ++ held 1 16)

/-- The TRW block (R230 to R233). -/
def State.readTrw (s : State) (off : Nat) : Word :=
  if off < 0x600 then
    let x := s.trowel ⟨off / 0x20 % 48, by omega⟩
    match off % 0x20 with
    | 0x00 => regWord [(0, 1, b2n x.oosReq), (1, 1, b2n x.levelEn)]
    | 0x08 => x.status
    | 0x10 => regWord [(0, 32, x.taken.toNat), (32, 32, x.levelled.toNat)]
    | _ => 0
  else if 0x800 ≤ off && off < 0x900 then regWord [(0, 3, min 7 (s.port ⟨(off - 0x800) / 8 % 32, by omega⟩).queue.length)]
  else 0

/-- The INS block (R338, R339). -/
def State.readIns (s : State) (off : Nat) : Word :=
  if off < 0x200 then
    let n := s.inst ⟨off / 8 % 64, by omega⟩
    regWord [(0, 4, n.st.ctorIdx), (5, 1, b2n n.fresh), (6, 1, b2n n.dirty.isSome), (7, 1, b2n n.flrPending), (8, 4, n.op.ctorIdx)]
  else if off = 0x200 then regWord [(0, 32, s.saveCount.toNat), (32, 32, s.keyId)]
  else if off = 0x208 then Config.serial
  else 0

/-- The device-wide CNT block (R353 to R357). -/
def State.readCnt (s : State) (off : Nat) : Word :=
  let c := s.cnt
  if off < 0x100 then (vget c.ctrs ⟨off / 0x20 % 8, by omega⟩).read true (off % 0x20)
  else if off = 0x100 then s.pl.cycle
  else if off = 0x108 then regWord [(8, 6, c.vector.toNat)]
  else if off = 0x110 then regWord ((0, 1, b2n c.shedStopped) :: (List.finRange 8).map fun j => (8 + j.val, 1, b2n (vget c.ctrs j).ovf))
  else if off = 0x118 then BitVec.ofNat 64 c.sample.word
  else if off = 0x120 then c.sample.addr
  else 0

/-- The MTR block (R353, R358). -/
def State.readMtr (s : State) (off : Nat) : Word :=
  if off = 0 then
    regWord [(0, 10, s.cnt.mtrFrames.toNat), (16, 1, b2n s.cnt.mtrEnable), (32, 8, s.cnt.mtrSeq.toNat), (40, 1, b2n s.cnt.mtrValid)]
  else if 0x100 ≤ off && off < 0x200 then
    let x := s.port ⟨(off - 0x100) / 8 % 32, by omega⟩
    regWord [(0, 32, x.inBytes.toNat), (32, 32, x.outBytes.toNat)]
  else 0

/-- PWR_STATUS (R397). -/
def State.pwrStatus (s : State) : Word :=
  let w := s.pw
  let idle := (w.egressProg.filter fun x => x.length != 0 && !s.activeEntry x).length
  regWord [(0, 4, w.mode.code), (18, 3, w.shedStep), (21, 1, b2n w.halted), (22, 1, b2n w.sens.warnLow), (23, 1, b2n w.egress), (32, 13, idle),
    (48, 4, w.resetCause.toNat), (56, 8, (BitVec.ofInt 8 w.sens.tempC).toNat)]

/-- `slot` and `svn` of the running image (R398): 0 until an image runs. -/
def State.fwFields (s : State) : Nat := pack [(0, 1, b2n s.boot.slot), (24, 6, s.boot.svn.toNat)]

/-- LCY_STATE and LCY_FW (R398). -/
def State.lcyState (s : State) : Word :=
  regWord [(0, 4, s.pw.lcState.ctorIdx), (16, 1, b2n s.pw.siteKey.isSome), (24, 6, s.pw.minSvn.toNat), (32, 3, s.pw.whsLeft)]

def State.lcyFw (s : State) : Word :=
  let stage := match s.boot.staged with
    | none => 0
    | some (_, _, trial) => if trial then 2 else 1
  BitVec.ofNat 64 (s.fwFields + pack [(8, 1, b2n s.boot.trialFailed), (16, 2, stage), (32, 32, s.boot.build.toNat)])

/-- Byte `k` of LCY_DEVPUB (R398): the 97 bytes of the point, then 0. -/
def devPubByte (k : Nat) : Byte := if k < 97 then Config.devPub k else 0

/-- The PWR block (R396 to R399). -/
def State.readPwr (s : State) (off : Nat) : Word :=
  let w := s.pw
  let q (e : Option Snag) : Nat := (e.map (·.sseq.toNat)).getD 0
  if off = 0x000 then s.pwrStatus
  else if off = 0x008 then regWord [(0, 3, w.warnStep.toNat), (8, 1, b2n w.bmcResetEn)]
  else if off = 0x010 then regWord [(0, 16, w.sens.aonMv), (16, 16, w.sens.phyMv), (32, 16, w.sens.sramMv), (48, 16, w.sens.coreMv)]
  else if off = 0x018 then s.lcyState
  else if off = 0x020 then s.lcyFw
  else if off = 0x028 then regWord [(0, 32, q s.snag.oldest), (32, 32, q s.snag.newest)]
  else if off = 0x030 then s.snag.index.setWidth 64
  else if 0x040 ≤ off && off < 0x060 then BitVec.ofNat 64 (((s.snag.find s.snag.index).map fun e => numAt e.bytes (off - 0x40) 8).getD 0)
  else if off = 0x080 then Config.serial
  else if 0x088 ≤ off && off < 0x0A8 then BitVec.ofNat 64 (w.nonce.toNat >>> (8 * (off - 0x88)))
  else if 0x100 ≤ off && off < 0x168 then BitVec.ofNat 64 (leNat ((List.range 8).map fun k => devPubByte (off - 0x100 + k)))
  else 0

/-- Eight bytes at an aligned offset of the native BAR0 (R404, R405, R408). -/
def State.readNative (s : State) (i : InstNo) (off : Nat) : Word :=
  let o := off % 0x1000
  if off < 0x10000 then s.readWindow i off
  else if i != 0 then 0
  else match off / 0x1000 with
    | 0x10 => s.readPrt o
    | 0x11 => s.readTre o
    | 0x12 => s.readTrw o
    | 0x13 => s.readIns o
    | 0x14 => s.readCnt o
    | 0x15 => s.readMtr o
    | 0x16 => s.readPwr o
    | _ => 0

/-! ### The forerunner window (R411 to R414) -/

/-- The low or the high half of a register, as its offset names it. -/
def halfOf (w : Word) (off : Nat) : BitVec 32 := if off % 8 = 0 then lowHalf w else highHalf w

/-- An event ring of the window. -/
def EvtRing.readForerunner (r : EvtRing) (reg : Nat) : BitVec 32 :=
  match reg with
  | 0x00 => lowHalf r.base
  | 0x04 => highHalf r.base
  | 0x08 => lowHalf r.cfg
  | 0x0C => highHalf r.cfg
  | 0x10 => r.head.setWidth 32
  | 0x14 => lowHalf r.mirror
  | 0x18 => highHalf r.mirror
  | _ => 0

/-- A port of the window. -/
def State.readForerunnerPort (s : State) (p : PortNo) (reg : Nat) : BitVec 32 :=
  match reg with
  | 0x0 => lowHalf (s.prtCtrl p)
  | 0x4 => lowHalf (s.port p).status
  | 0x8 => (s.port p).change.setWidth 32
  | 0xC => lowHalf (s.port p).errcnt
  | _ => 0

/-- Four bytes at an aligned offset of the forerunner window (R412); F_DOORBELL reads 0 (R413). -/
def State.readForerunner (s : State) (off : Nat) : BitVec 32 :=
  if off % 4 != 0 then 0
  else if off = 0x0000 then 0x32160104
  else if off = 0x0004 then lowHalf s.pwrStatus
  else if off = 0x0008 then lowHalf s.frmNow
  else if off = 0x0010 || off = 0x0014 then halfOf (s.readRng 0 0x000) off
  else if off = 0x0018 then lowHalf (s.readRng 0 0x008)
  else if off = 0x001C then lowHalf (s.readRng 0 0x010)
  else if off = 0x0020 then lowHalf (s.rngStatus 0)
  else if off = 0x0028 || off = 0x002C then halfOf s.bstore off
  else if 0x0040 ≤ off && off < 0x00C0 then (s.ring 0 ⟨(off - 0x40) / 0x20 % 8, by omega⟩).readForerunner ((off - 0x40) % 0x20)
  else if 0x0100 ≤ off && off < 0x0200 then s.readForerunnerPort ⟨(off - 0x100) / 0x10 % 32, by omega⟩ (off % 0x10)
  else if 0x0300 ≤ off && off < 0x0380 then halfOf (s.queue ⟨(off - 0x300) / 8 % 64, by omega⟩).core off
  else if 0x1000 ≤ off && off < 0x1800 then halfOf (s.readHwk 0 (0x2000 + (off - 0x1000) / 8 * 8)) off
  else if 0x8000 ≤ off && off < 0x8100 then halfOf (s.readMsix 0 16 ((off - 0x8000) / 8 * 8)) off
  else if off = 0x9000 || off = 0x9004 then halfOf (s.inst 0).pba off
  else 0

/-! ### Memory requests (R407, R408, R411) -/

/-- The function answers memory requests (R408): its BAR is decoded, it is in D0 with Memory Space Enable set, and it is enabled. -/
def State.barOpen (s : State) (i : InstNo) : Bool :=
  s.pw.barsReady && s.pw.linkUp && (s.inst i).memSpace && !(s.inst i).d3hot && (i == 0 || (s.inst i).st != .disabled)

/-- The base of the function's BAR0 (R402): virtual function i's is i − 1 windows above VF BAR0. -/
def State.barBase (s : State) (i : InstNo) : Nat := if i = 0 then s.pw.bar0.toNat else s.pw.vfBar.toNat + (i.val - 1) * 0x10000

/-- Bytes of the function's BAR0 (R402, R404, R411). -/
def State.barSize (s : State) (i : InstNo) : Nat := if i = 0 && !s.inCompat then 0x20000 else 0x10000

/-- One byte of BAR0 as a read returns it; beyond its end 0 (R408). -/
def State.readByte (s : State) (i : InstNo) (off : Nat) : Byte :=
  if s.barSize i ≤ off then 0
  else if s.inCompat then BitVec.ofNat 8 ((s.readForerunner (off / 4 * 4)).toNat >>> (8 * (off % 4)))
  else BitVec.ofNat 8 ((s.readNative i (off / 8 * 8)).toNat >>> (8 * (off % 8)))

/-- A read request is one the window takes whole (R411): in COMPAT an aligned 4 or 8 bytes. -/
def State.readTaken (s : State) (off len : Nat) : Bool := !s.inCompat || (off % 4 == 0 && (len == 4 || len == 8))

/-- A read of `len` bytes of a function's BAR0 (R407, R408, R411): none for Unsupported Request. While the controller is halted every
register remains readable (R409). -/
def State.readBar (s : State) (i : InstNo) (off len : Nat) : Option (List Byte) :=
  if !s.barOpen i then none
  else if !s.readTaken off len then some (List.replicate len 0)
  else some ((List.range len).map fun k => s.readByte i (off + k))

/-- The register of instance `i` at an aligned offset of its native BAR0, as an 8-byte read samples it (R345, R407). -/
def State.readReg (s : State) (i : InstNo) (off : Nat) : Word := s.readNative i off

/-- The 7-bit address that the SMBus target answers to (R393). -/
def State.smbusAddress (s : State) : BitVec 7 := 0x58 + s.pw.strap.setWidth 7

/-! ### Configuration space (R4, R400 to R403) -/

/-- The capabilities of a function, by their offsets (R401). -/
def State.caps (s : State) (i : InstNo) : List Nat :=
  [0x040, 0x080, 0x090, 0x100] ++
  if i != 0 then [] else [0x110, 0x130, 0x160] ++ (if s.inCompat then [] else [0x180]) ++ [0x500]

/-- The offset of the capability after the one at `off` in its list, 0 after the last: the list of offsets below 0x100 ends before the
extended list begins. -/
def State.nextCap (s : State) (i : InstNo) (off : Nat) : Nat :=
  (((s.caps i).filter fun c => decide (off < c) && decide (c < 0x100 ∨ 0x100 ≤ off)).min?).getD 0

/-- Capability IDs of the PCI Express Base Specification (PRESUMED, log 83). -/
def capId (off : Nat) : Nat :=
  match off with
  | 0x040 => 0x10 | 0x080 => 0x01 | 0x090 => 0x11
  | 0x100 => 0x000E | 0x110 => 0x0019 | 0x130 => 0x0026 | 0x160 => 0x001E | 0x180 => 0x0010 | _ => 0x000B

/-- The Device ID of the physical function (R400). -/
def State.deviceId (s : State) : Nat :=
  if s.inCompat || (s.pw.mode == .prime && s.pw.lastCompat) then 0x3216 else 0x7480

/-- The header word of a capability: ID, version of an extended one, and the offset of the next. -/
def State.capHeader (s : State) (i : InstNo) (off : Nat) : Nat :=
  if off < 0x100 then pack [(0, 8, capId off), (8, 8, s.nextCap i off)]
  else pack [(0, 16, capId off), (16, 4, 1), (20, 12, s.nextCap i off)]

/-- The VSEC (R403). -/
def State.readVsec (s : State) (off : Nat) : BitVec 32 :=
  match off with
  | 0x504 => 0x01010001
  | 0x508 => BitVec.ofNat 32 (pack [(0, 4, s.pw.mode.code), (4, 1, b2n s.pw.halted), (5, 1, b2n s.pw.barsReady), (6, 1, b2n s.pw.egress),
      (7, 1, b2n s.inCompat)])
  | 0x50C => if s.pw.barsReady then BitVec.ofNat 32 s.fwFields else 0
  | _ => 0

/-- SR-IOV (R402). -/
def State.readSriov (s : State) (off : Nat) : BitVec 32 :=
  match off with
  | 0x188 => BitVec.ofNat 32 (pack [(0, 1, b2n s.pw.vfEnable), (3, 1, b2n (s.inst 1).memSpace), (4, 1, 1)])
  | 0x18C => BitVec.ofNat 32 (pack [(0, 16, 63), (16, 16, 63)])
  | 0x190 => BitVec.ofNat 32 (pack [(0, 16, s.pw.numVfs)])
  | 0x194 => BitVec.ofNat 32 (pack [(0, 16, 1), (16, 16, 1)])
  | 0x198 => BitVec.ofNat 32 (pack [(16, 16, 0x7481)])
  | 0x19C => 0x0000001F
  | 0x1A0 => s.pw.sysPage
  | 0x1A4 => BitVec.ofNat 32 (s.pw.vfBar.toNat % 2 ^ 32 + 4)
  | 0x1A8 => highHalf s.pw.vfBar
  | _ => 0

/-- Four bytes of a function's configuration space (R400 to R403): an offset of a capability that is absent reads 0; a register that
only the PCI Express Base Specification lays out is `Config.pciRegister` (PRESUMED, log 83). -/
def State.readConfig (s : State) (i : InstNo) (off : Nat) : BitVec 32 :=
  let n := s.inst i
  let pci := Config.pciRegister i.val off
  let at' := ((s.caps i).filter (· ≤ off)).foldl max 0
  if off = 0x000 then (if i = 0 then BitVec.ofNat 32 (pack [(0, 16, Config.vendorId.toNat), (16, 16, s.deviceId)]) else 0xFFFFFFFF)
  else if off = 0x004 then BitVec.ofNat 32 (pack [(1, 1, b2n n.memSpace), (2, 1, b2n n.busMaster), (20, 1, 1)])
  else if off = 0x008 then BitVec.ofNat 32 (pack [(0, 8, pci.toNat), (8, 24, 0x0C8000)])
  else if off = 0x010 then (if i != 0 then 0 else BitVec.ofNat 32 (s.pw.bar0.toNat % 2 ^ 32 + if s.inCompat then 0 else 4))
  else if off = 0x014 then (if i != 0 || s.inCompat then 0 else highHalf s.pw.bar0)
  else if off = 0x02C then BitVec.ofNat 32 (pack [(0, 16, Config.vendorId.toNat), (16, 16, pci.toNat >>> 16)])
  else if off = 0x034 then 0x00000040
  else if off < 0x040 then 0
  else if off = 0x050 then BitVec.ofNat 32 (pack [(0, 16, pci.toNat), (16, 4, s.pw.linkGen.val + 1), (20, 6, 2 ^ s.pw.linkLanes.val)])
  else if off = 0x084 then BitVec.ofNat 32 (pack [(0, 2, if n.d3hot then 3 else 0), (8, 1, b2n n.pmeEn), (15, 1, b2n (i == 0 && s.pw.pme))])
  else if off = 0x090 then
    BitVec.ofNat 32 (s.capHeader i off + pack [(16, 11, (if s.inCompat then 16 else vectors i) - 1), (30, 1, b2n n.funcMask),
      (31, 1, b2n n.msixEn)])
  else if off = 0x094 then (if s.inCompat then 0x8000 else 0xC000)
  else if off = 0x098 then (if s.inCompat then 0x9000 else 0xD000)
  else if off = at' then BitVec.ofNat 32 (s.capHeader i off + if off < 0x100 then pack [(16, 16, pci.toNat >>> 16)] else 0)
  else if at' = 0x500 then s.readVsec off
  else if at' = 0x180 then s.readSriov off
  else pci

/-- A read of a function's configuration space: none while there is no link, or no such function. -/
def State.configRead (s : State) (i : InstNo) (off : Nat) : Option (BitVec 32) :=
  if s.pw.linkUp && (i == 0 || (s.inst i).st != .disabled) then some (s.readConfig i (off / 4 * 4)) else none

end Sys2Proof.Machine
end

