-- ==== Sys2Proof/Safety.lean ====
section
/-!
DEFINITION. The terms in which claims are made: the state with its reporting set aside (`bare`), and the invariant that every
command keeps.
-/
namespace Sys2Proof.Machine

/-! ### The state without its reporting

A command may post events, send messages and count occurrences besides what it does. `bare` sets all of that aside and keeps
everything else, so that a claim `t.bare = u.bare` says that `t` is `u` but for what has been reported. -/

/-- A counter without its count and overflow flag, and without what is still to be discarded of it. -/
def Counter.bare (c : Counter) : Counter := { c with count := 0, ovf := false, discard := 0 }

/-- An event ring without its producer index and what it has still to announce: what software configures and consumes stays. -/
def EvtRing.bare (r : EvtRing) : EvtRing :=
  { r with tail := 0, reserved := 0, blocked := false, blockedTicks := 0, counted := 0, mirrorDue := false }

/-- An instance without the commands in hand, the events posted or waiting, pending messages, counts and dirty pages. -/
def Inst.bare (n : Inst) : Inst :=
  { n with
    evt := n.evt.map EvtRing.bare, waiting := [], waitData := [], unsol := [], pba := 0
    cmds := [], cmdHead := 0, cmdDone := []
    ctrs := n.ctrs.map Counter.bare, sample := {}, ctrMsgDue := false
    dirty := n.dirty.map fun d => { d with outside := false, pages := [] } }

/-- The state without what has been reported: what has left the block, free values taken, messages and PME, events and writes that wait, commands in
hand, counts, and which records the backing store has been given. -/
def State.bare (s : State) : State :=
  { s with
    out := []
    freeIx := 0
    pw := { s.pw with msgQueue := [], pme := false }
    insts := s.insts.map Inst.bare
    cnt := { s.cnt with ctrs := s.cnt.ctrs.map Counter.bare, sample := {}, msgDue := false }
    mem := { s.mem with recImage := [], mapImage := [] } }

/-! ### Instant 1 of PRIME -/

/-- `t` is `u` at instant 1 of R366: the reset cause latched, the frame and cycle counts at 0, the Wahus attempts renewed, WAKE_N
released and the wake cause reported. What has left the block, the snag log and the nonce are not said. -/
def State.AtInstantOne (u t : State) : Prop :=
  t = { u with
    out := t.out
    freeIx := t.freeIx
    snag := t.snag
    pl := { u.pl with subN := 0, cycle := 0 }
    pw := { u.pw with
      mode := .prime
      primeInstant := 1
      resetCause := u.pw.nextCause
      nonce := t.pw.nonce
      whsLeft := 4
      wakeN := false
      retention := u.pw.retention.map fun r => { r with wakeCause := none } } }

/-! ### The end of a command -/

/-- The state that a command answers once its effect has made it `u`: the backing store's records and the counter messages that fell due
are sent. -/
def State.ended (u : State) : State := u.syncStore.sendCtr

/-- The state that a Stoesk command answers once its effect has made it `u`: the COMMAND event with its status and result is posted. -/
def State.replied (u : State) (i : InstNo) (slot : BitVec 16) (st : Status) (result : Nat) : State := (u.finish i slot st result).ended

/-- The Stoesk command in a slot, with entry `e`, is carried out now: it is of the opcode and form, nothing holds it back (R149), and its
issuer may issue it (R135). -/
def State.Ordered (s : State) (i : InstNo) (slot : BitVec 16) (op : Nat) (form : CEntry → Bool) (e : CEntry) : Prop :=
  s.starts i slot op form = some e ∧ s.notPermitted i e = false

/-! ### The controller's own transfers -/

/-- The state with a procedure of the controller begun and its first transfer waiting (R241): its purpose, position, step, zone address and
what it still has to visit; the transfer's port, address, tier and block size, and the fields of its request (R238). -/
def State.asking (s : State) (pu : Purpose) (q : Pos) (step zone : Nat) (todo : List (Nat × Nat))
    (port : PortNo) (addr tier mb req tgt sel arg xlen : Nat) : State :=
  { s with
    nextId := s.nextId + 2
    tree := { s.tree with
      procs := s.tree.procs ++ [⟨s.nextId, pu, q, step, zone, todo, false⟩]
      own := s.tree.own ++ [
        { id := s.nextId + 1, port := port, addr := addr, tier := tier, maxBlock := mb, req := req, tgt := tgt, sel := sel, arg := arg
          xlen := xlen, proc := s.nextId, stage := .setup, data := [], err := 0, retry := 0, silenceRun := 0, backoff := false, backoffAt := 0
          picked := false, inSeq := 0, outSeq := 0, result := none }] } }

/-! ### Stencil instructions -/

/-- The channel executes the word `w` as its instruction of opcode `op` (R267, R276, R280): it runs, the word is the one at its `pc`, which
lies in the program, and no reserved bit or code stands in it. `line` is what the host's line read gives where the instruction enters a
line. -/
def State.Executes (s : State) (c : ChanNo) (op : Nat) (line : List Byte) (w : Word) : Prop :=
  s.chanRuns c = true ∧ s.pcOk (s.chan c) = true ∧ ((s.chan c).entersLine = true → line.length = 64) ∧
  s.progWord (s.chan c) line = w ∧ fld w 3 0 = op ∧ (∀ r ∈ stnReserved op, fld w r.1 r.2 = 0) ∧ stnCodeBad w = false

/-! ### The invariant -/

/-- Both memories are in canonical form, and the snag-log buffer holds at most its 64 entries (R390). -/
def State.Inv (s : State) : Prop :=
  Memory.wf s.mem.hawk = true ∧ Memory.wf s.mem.store = true ∧ s.snag.buffer.length ≤ 64

end Sys2Proof.Machine
end

