-- ==== Sys2Proof/Certificates/Slice0/Obligations.lean ====
section
/-!
DEFINITION. The statements for the provers.
-/
open Sys2Proof Sys2Proof.Machine

/-! ### The queue, reset, the invariant -/

/-- The invariant holds at reset. The model's choices it rests on: log 5, 9. -/
def Obligations.InvAtReset : Prop := State.reset.Inv

/-- Every step keeps the invariant, from every state that meets it. -/
def Obligations.InvKept : Prop := ∀ s t : State, s.Inv → step s = .next t → t.Inv

/-- A step takes the command at the front of the queue and runs it on the state with the queue's rest; on an empty queue it leaves the state
as it is. The model's choices it rests on: log 2. -/
def Obligations.StepTakesFront : Prop :=
  (∀ (c : Instr) (s : State), step { s with pending := c :: s.pending } = exec c s) ∧
  ∀ s : State, s.pending = [] → step s = .next s

/-- Every command, in every state, answers a next state whose queue is the one it was given: no command stops the block, and none adds to,
takes from or reorders the commands that wait. The model's choices it rests on: log 3. -/
def Obligations.QueueUntouched : Prop :=
  ∀ (c : Instr) (s : State), ∃ t, exec c s = .next t ∧ t.pending = s.pending

/-! ### PRIME, resets and RETAIN (R14, R364 to R376) -/

/-- A reset through PRIME (R371): every register, endpoint, device, commit and procedure at its reset value, every PPWR_EN that was high
driven low (R80), PRIME waiting before instant 1; the pins, the retention registers, the life cycle and its keys, the directory in flash,
the snag log's entries and, until they are wiped, the memories stay. -/
def Obligations.PrimeReset : Prop :=
  ∀ (s : State) (cause : BitVec 4),
    let t := s.toPrime cause
    t.ports = State.reset.ports ∧ t.trowels = State.reset.trowels ∧ t.insts = State.reset.insts ∧ t.chans = State.reset.chans ∧
    t.eps = [] ∧ t.devs = [] ∧ t.deliveries = [] ∧ t.commits = [] ∧ t.tree = State.reset.tree ∧ t.cnt = State.reset.cnt ∧
    t.pl = State.reset.pl ∧ t.disp.groups = State.reset.disp.groups ∧ t.disp.queues = State.reset.disp.queues ∧
    t.disp.trace = State.reset.disp.trace ∧ t.mem.ceCount = 0 ∧ t.mem.ueCount = 0 ∧ t.mem.bsLock = false ∧
    t.pw.mode = .prime ∧ t.pw.primeInstant = 0 ∧ t.pw.halted = false ∧ t.pw.linkUp = false ∧ t.pw.barsReady = false ∧
    t.pw.nextCause = cause ∧ t.pw.shedStep = 0 ∧ t.pw.vfEnable = false ∧
    t.pending = s.pending ∧ t.pw.perst = s.pw.perst ∧ t.pw.egress = s.pw.egress ∧ t.pw.retention = s.pw.retention ∧
    t.pw.lcState = s.pw.lcState ∧ t.pw.siteKey = s.pw.siteKey ∧ t.pw.minSvn = s.pw.minSvn ∧
    t.boot.dir0 = s.boot.dir0 ∧ t.boot.dir1 = s.boot.dir1 ∧ t.mem.hawk = s.mem.hawk ∧ t.mem.store = s.mem.store ∧
    t.snag.buffer.map Snag.bytes = s.snag.buffer.map Snag.bytes ∧ t.snag.flash.map Snag.bytes = s.snag.flash.map Snag.bytes ∧
    t.snag.next = s.snag.next ∧
    (∀ p, (s.port p).ppwrEn = true → .ppwrEn p false ∈ t.out) ∧
    ∀ p, (s.port p).ppwrEn = false → .ppwrEn p false ∈ t.out → .ppwrEn p false ∈ s.out

/-- PRIME up to the firmware slot (R14, R364, R366, R367, R373). It starts at instant 1 once PERST_N is released with every supply valid:
from the wait before instant 1, from OFF and from RETAIN. Each instant brings the next one and changes nothing else. The wipes clear the
hawk, the stencil store, the context cache, the gate and item tables and the egress store. The model's choices it rests on: log 16. It
states that these commands complete with their own effect: perstNRelease, vddAonRise, mainSuppliesValid, pllLock, firstWipeComplete,
pcieLinkUp, selfTestComplete, firmwareSlotReadDone. -/
def Obligations.PrimeInstants : Prop :=
  (∀ s : State, s.pw.mode = .prime → s.pw.primeInstant = 0 → s.pw.perst = true → s.pw.aonValid = true → s.pw.mainValid = true →
    ∃ t, exec .perstNRelease s = .next t ∧ ({ s with pw := { s.pw with perst := false } } : State).AtInstantOne t) ∧
  (∀ s : State, s.pw.mode = .off → s.pw.perst = false → s.pw.mainValid = true →
    ∃ t, exec .vddAonRise s = .next t ∧
      (({ s with pw := { s.pw with aonValid := true, nextCause := 1, retention := none, reqResult := 5,
                                       strap := Config.smbStraps } } : State).toPrime
        1).AtInstantOne t) ∧
  (∀ s : State, s.pw.mode = .retain → s.pw.perst = false → s.pw.aonValid = true →
    ∃ t, exec .mainSuppliesValid s = .next t ∧
      (({ s with pw := { s.pw with mainValid := true } } : State).toPrime 3).AtInstantOne t) ∧
  ∀ s : State, s.pw.mode = .prime → s.pw.primeFailed = false →
    (s.pw.primeInstant = 1 → exec .pllLock s = .next { s with pw := { s.pw with primeInstant := 2 } }) ∧
    (s.pw.primeInstant = 2 → exec .firstWipeComplete s = .next { s with
      pw := { s.pw with primeInstant := 3, egressProg := [] }
      disp := { s.disp with gates := [], items := [], gens := [] }
      mem := { s.mem with hawk := [], store := [], cache := [] } }) ∧
    (3 ≤ s.pw.primeInstant → ∃ t, exec .pcieLinkUp s = .next t ∧ t = { s with
      freeIx := t.freeIx
      pw := { s.pw with linkUp := true, linkGen := t.pw.linkGen, linkLanes := t.pw.linkLanes, l1 := none } }) ∧
    (s.pw.primeInstant = 3 → ∀ (code : BitVec 8) (dir0 dir1 : List Byte),
      ∃ t, exec (.selfTestComplete (some code) dir0 dir1) s = .next t ∧
        t = { s with freeIx := t.freeIx, snag := t.snag, pw := { s.pw with primeFailed := true } }) ∧
    (s.pw.primeInstant = 3 → ∀ dir0 dir1 : List Byte,
      ∃ t, exec (.selfTestComplete none dir0 dir1) s = .next t ∧
        (let b : Boot := { s.boot with dir0 := BootDir.read dir0, dir1 := BootDir.read dir1 }
         t = { s with
           out := t.out
           freeIx := t.freeIx
           pw := { s.pw with primeInstant := 5, egressProg := [] }
           disp := { s.disp with gates := [], items := [], gens := [] }
           mem := { s.mem with hawk := [], store := [], cache := [] }
           boot := { b with dir0 := t.boot.dir0, dir1 := t.boot.dir1, trying := t.boot.trying, isTrial := t.boot.isTrial, refused := none } } ∧
         t.boot.trying.isSome = true ∧
         (b.dir.valid = true → t.boot.trying = some (b.dir.trial.getD b.dir.active) ∧ t.boot.isTrial = b.dir.trial.isSome ∧
           t.boot.dir.trial = none ∧ t.boot.dir.active = b.dir.active))) ∧
    (s.pw.primeInstant = 5 →
      exec (.firmwareSlotReadDone true) s = .next { s with pw := { s.pw with primeInstant := 6 } }) ∧
    (s.pw.primeInstant = 5 → ∀ slot : Bool, s.boot.trying = some slot → s.boot.refused = none →
      exec (.firmwareSlotReadDone false) s = .next { s with
        boot := { s.boot with refused := some 5, trying := some (!slot), isTrial := false, trialFailed := s.boot.trialFailed || s.boot.isTrial } })

/-- The last instants of PRIME (R365 to R369): an accepted firmware image boots its slot and the first one refused leads to the other slot,
a configuration image is read, applied when it is well formed and otherwise refused into the snag log, and SOLE is entered with the BARs
decoded, `min_svn` raised where the image commits its `svn`. The model's choices it rests on: log 8, 72. It states that these commands
complete with their own effect: signatureCheckDone, configImageReadDone, configImageApplied. -/
def Obligations.PrimeEnds : Prop :=
  ∀ s : State, s.pw.mode = .prime → s.pw.primeFailed = false →
    (s.pw.primeInstant = 6 → ∀ img : List Byte, ∃ t, exec (.signatureCheckDone img) s = .next t ∧
      (fwRefusal img s.pw.minSvn = none →
        t = { s with
          out := t.out
          pw := { s.pw with primeInstant := 7 }
          boot := { s.boot with
            dir0 := t.boot.dir0, dir1 := t.boot.dir1, accepted := true, slot := s.boot.trying.getD false
            svn := BitVec.ofNat 6 (numAt img 0xC 2), build := BitVec.ofNat 64 (numAt img 0x10 8), svnCommit := numAt img 0xE 2 % 2 == 1 } } ∧
        (s.boot.isTrial = true → t.boot.dir.active = s.boot.trying.getD false ∧ t.boot.dir.trial = none) ∧
        (s.boot.isTrial = false → t.boot.dir0 = s.boot.dir0 ∧ t.boot.dir1 = s.boot.dir1)) ∧
      ∀ (r : BitVec 8) (slot : Bool), fwRefusal img s.pw.minSvn = some r → s.boot.trying = some slot → s.boot.refused = none →
        t = { s with
          pw := { s.pw with primeInstant := 5 }
          boot := { s.boot with
            refused := some r, trying := some (!slot), isTrial := false, trialFailed := s.boot.trialFailed || s.boot.isTrial } }) ∧
    (s.pw.primeInstant = 7 → ∀ img : List Byte,
      let u : State := { s with pw := { s.pw with primeInstant := 8 }, boot := { s.boot with cfgRead := true } }
      (u.cfgOk img = true → exec (.configImageReadDone img) s = .next (u.applyImage img)) ∧
      (u.cfgOk img = false → ∃ t, exec (.configImageReadDone img) s = .next t ∧ t = { u with freeIx := t.freeIx, snag := t.snag })) ∧
    (s.pw.primeInstant = 8 → s.pw.lcState ≠ .scrapped → s.boot.forerunner = false → s.pw.egress = false →
      ∃ t, exec .configImageApplied s = .next t ∧
        t.bare = State.bare { s with
          pw := { s.pw with
            primeInstant := 9, barsReady := true, mode := .sole, lastCompat := false
            minSvn := if s.boot.svnCommit ∧ s.pw.minSvn.toNat < s.boot.svn.toNat then s.boot.svn else s.pw.minSvn } })

/-- R369: at instant 9 the controller enters COMPAT when the configuration image accepted at instant 8 has `forerunner` set, and SOLE in
every other case. (A SCRAPPED part does not get to instant 9: R384.) It states that these commands complete with their own effect:
configImageReadDone, configImageApplied. -/
def Obligations.ModeEntered : Prop :=
  ∀ (s : State) (img : List Byte), s.pw.mode = .prime → s.pw.primeInstant = 7 → s.pw.primeFailed = false → s.pw.lcState ≠ .scrapped →
    s.boot.forerunner = false →
    ∃ u t, exec (.configImageReadDone img) s = .next u ∧ u.pw.primeInstant = 8 ∧ exec .configImageApplied u = .next t ∧
      t.pw.primeInstant = 9 ∧ t.pw.mode = if s.cfgOk img = true ∧ numAt img 6 2 % 2 = 1 then .compat else .sole

/-- The resets (R11, R14, R371, R395): loss of VDD_AON brings OFF; PERST_N, the watchdog, the board management controller and a lath that
fails four replays reset through PRIME, at once where the supplies are valid and PERST_N is released; hot reset, link down and the Function
Level Reset of the physical function reset the host side alone, which leaves the stencil channels, the gates, the dispatcher's groups and
queues, the device-wide counters and the registers of the hawk at their reset values (R372). The model's choices it rests on: log 76, 77,
150. It states that these commands complete with their own effect: vddAonLoss, perstNAssert, sequencerWatchdog, smbusReset, lathParityError,
pcieHotReset, pcieLinkDown, pfFunctionLevelReset. -/
def Obligations.Resets : Prop :=
  (∀ s : State, s.pw.mode ≠ .off →
    ∃ t, exec .vddAonLoss s = .next t ∧
      t = { s.toPrime 1 with
        out := t.out
        pw := { (s.toPrime 1).pw with
          mode := .off, aonValid := false, wakeN := false, egress := false, retention := none, reqResult := 5, snagSel := 0
          lastCompat := false }
        snag := { (s.toPrime 1).snag with buffer := [] } }) ∧
  (∀ s : State, s.pw.perst = false →
    let u : State := { s with pw := { s.pw with perst := true } }
    (s.pw.mode.isRunning = true ∨ s.pw.mode = .prime ∨ s.pw.mode = .retain → exec .perstNAssert s = .next (u.toPrime 2)) ∧
    (s.pw.mode = .off → exec .perstNAssert s = .next u) ∧
    (s.pw.mode = .standby →
      exec .perstNAssert s = .next { s with pw := { s.pw with perst := true, perstPending := true, linkUp := false, l1 := none } })) ∧
  (∀ s : State, s.pw.aonValid = true → s.pw.mainValid = true → s.pw.perst = false →
    (s.pw.mode.isRunning = true ∨ s.pw.mode = .prime →
      ∃ t, exec .sequencerWatchdog s = .next t ∧ (s.toPrime 5).AtInstantOne t) ∧
    (s.pw.mode.isRunning = true → s.pw.halted = true ∨ s.pw.bmcResetEn = true →
      ∃ t, exec (.smbusReset 0xA5) s = .next t ∧
        (({ s with pw := { s.pw with reqResult := 0 } } : State).toPrime 7).AtInstantOne t) ∧
    (s.pw.mode.isRunning = true → ∀ (block : BitVec 8) (n : Nat), n ≤ 4 →
      ∃ t, exec (.lathParityError block n true) s = .next t ∧ t.bare = State.bare { s with snag := t.snag }) ∧
    (s.pw.mode.isRunning = true → ∀ block : BitVec 8,
      ∃ t, exec (.lathParityError block 4 false) s = .next t ∧ t.pw.mode = .prime ∧ t.pw.primeInstant = 1 ∧ t.pw.resetCause = 4)) ∧
  (∀ s : State, s.runs = true → s.pw.linkUp = true →
    exec .pcieHotReset s = .next (s.warmReset 8 true) ∧
    exec .pcieLinkDown s = .next (s.warmReset 9 true) ∧
    exec .pfFunctionLevelReset s = .next (s.warmReset 10 false)) ∧
  ∀ (s : State) (cause : BitVec 4) (down : Bool),
    let t := s.warmReset cause down
    t.chans = State.reset.chans ∧ t.disp.gates = [] ∧ t.disp.groups = State.reset.disp.groups ∧
    t.disp.queues = State.reset.disp.queues ∧ t.disp.windowFrames = 0x3E7 ∧ t.cnt.ctrs = State.reset.cnt.ctrs ∧
    t.cnt.sample = {} ∧ t.cnt.mtrEnable = false ∧ t.mem.ceCount = 0 ∧ t.mem.ueCount = 0 ∧ t.mem.eccValid = false ∧ t.mem.passS = 1 ∧
    t.pl.lateBuilds = 0 ∧ t.tree.idleMs = 0x1388 ∧ t.snag.index = 0

/-- RETAIN (R14, R375, R376, R379, R423): the removal of the main supplies brings it from the running modes and STANDBY, with the retention
registers written and the halted state kept; a wake from it drives WAKE_N low and keeps the port. The model's choices it rests on: log 74.
It states that these commands complete with their own effect: mainSuppliesRemoved, retainWake. -/
def Obligations.Retain : Prop :=
  (∀ (s : State) (rail : Rail), s.pw.mode.isRunning = true ∨ s.pw.mode = .standby →
    ∃ t, exec (.mainSuppliesRemoved rail) s = .next t ∧
      t.pw.mode = .retain ∧ t.pw.mainValid = false ∧ t.pw.linkUp = false ∧ t.pw.barsReady = false ∧ t.pw.halted = s.pw.halted ∧
      t.pw.shedStep = 0 ∧ t.pw.egress = s.pw.egress ∧ t.pw.lcState = s.pw.lcState ∧ t.ports = s.ports ∧ t.mem = s.mem ∧
      ∃ r, t.pw.retention = some r ∧ r.modeBefore = s.pw.mode ∧ r.resetCause = s.pw.resetCause ∧ r.wakeCause = none ∧
        ∀ p, vget r.ppwr p = (s.port p).ppwrEn ∧ vget r.pullup p = (s.port p).pullup ∧ vget r.wakeEn p = (s.port p).wakeEn ∧
          vget r.egressPort p = (s.port p).egressPort) ∧
  (∀ (s : State) (rail : Rail),
    (s.pw.mode = .off ∨ s.pw.mode = .retain →
      exec (.mainSuppliesRemoved rail) s = .next { s with pw := { s.pw with mainValid := false } }) ∧
    (s.pw.mode = .prime →
      exec (.mainSuppliesRemoved rail) s =
        .next { s.toPrime s.pw.nextCause with pw := { (s.toPrime s.pw.nextCause).pw with mainValid := false } })) ∧
  ∀ (s : State) (r : Retention) (p : PortNo), s.pw.mode = .retain → s.pw.retention = some r → s.pw.wakeN = false →
    (s.port p).ppwrEn = true → vget r.wakeEn p = true →
    exec (.retainWake (some p)) s = .next { s with
      out := .wakeN true :: s.out
      pw := { s.pw with wakeN := true, retention := some { r with wakeCause := some (BitVec.ofNat 8 p.val) } } }

/-- EGRESS_N (R380 to R383): its assertion is recorded and put in force, in PRIME without an effect; its release ends every power hold and
touches nothing else; a failed clear-halt exchange of an active entry's endpoint is started again. The model's choices it rests on: log 89.
It states that these commands complete with their own effect: egressNAssert, egressNDeassert, egressUnhaltRetry. -/
def Obligations.Egress : Prop :=
  (∀ s : State, s.pw.egress = false →
    let u : State := (s.record 0x0A [1]).modPw fun w => { w with egress := true }
    (s.pw.mode = .prime → exec .egressNAssert s = .next u) ∧
    (s.pw.mode = .retain → exec .egressNAssert s = .next u.egressPower) ∧
    (s.alive = true → exec .egressNAssert s = done u.egressBegin)) ∧
  (∀ s : State, s.pw.mode ≠ .off → s.pw.egress = true →
    ∃ t, exec .egressNDeassert s = .next t ∧ (∀ p, t.port p = { s.port p with egressHold := false }) ∧
      t = { s with ports := t.ports, freeIx := t.freeIx, snag := t.snag, pw := { s.pw with egress := false } }) ∧
  ∀ (s : State) (k : Nat) (e : Ep), s.alive = true → s.egressNames k = true → s.ep k = some e → e.st = .halted → e.recovering = false →
    exec (.egressUnhaltRetry k) s =
      .next ((s.modEp k fun e => { e with recovering := true }).startUnhalt (.unhaltEgress k) e).ended

/-- The shedding ladder (R377 to R379): steps engage one at a time with their causes; the first enters SHED, the second stops counters and
trace, the seventh leads to RETAIN; a retrace undoes the deepest step, and that of the first leaves SHED for the mode before. The model's
choices it rests on: log 88. It states that these commands complete with their own effect: sheddingStepEngage, sheddingStepRetrace. -/
def Obligations.Shedding : Prop :=
  ∀ (s : State) (v : Sensors), s.runs = true → s.pw.hot = false → v.tempC < 110 →
    (s.pw.shedStep = 0 → ({ s.pw with sens := v } : Power).causes 1 ≠ 0 →
      ∃ t, exec (.sheddingStepEngage v) s = .next t ∧
        t.bare = State.bare { s with
          snag := t.snag, pw := { s.pw with sens := v, shedStep := 1, acted := 1, beforeShed := s.pw.mode, mode := .shed } }) ∧
    (s.pw.shedStep = 1 → ({ s.pw with sens := v } : Power).causes 2 ≠ 0 →
      ∃ t, exec (.sheddingStepEngage v) s = .next t ∧
        t.bare = State.bare { s with
          snag := t.snag, pw := { s.pw with sens := v, shedStep := 2, acted := 2 }, cnt := { s.cnt with shedStopped := true }
          disp := { s.disp with trace := { s.disp.trace with stopped := true } } }) ∧
    (s.pw.shedStep = 6 → ({ s.pw with sens := v } : Power).causes 7 ≠ 0 →
      ∃ t, exec (.sheddingStepEngage v) s = .next t ∧ t.pw.mode = .retain ∧ t.pw.shedStep = 0 ∧ t.pw.mainValid = false) ∧
    (s.pw.mode = .shed → s.pw.shedStep = 1 → s.pw.thermal = 0 → s.pw.acted = 1 → ({ s.pw with sens := v } : Power).causes 1 = 0 →
      ({ s.pw with sens := v } : Power).retraced 1 = true →
      ∃ t, exec (.sheddingStepRetrace v) s = .next t ∧
        (∀ p, t.port p =
          { s.port p with upshiftPending := (s.port p).upshiftPending || (s.port p).shedDown, shedDown := false }) ∧
        t.bare = State.bare { s with
          ports := t.ports, snag := t.snag, pw := { s.pw with sens := v, shedStep := 0, acted := 0, mode := s.pw.beforeShed } })

/-! ### Functions and instances (R14, R122 to R126, R312 to R329, R402) -/

/-- VF Enable, NumVFs, D3hot, D0 and Bus Master Enable (R14, R125, R315, R402): the tenants up to NumVFs become RUNNING, or FROZEN from step
5 of the ladder on, with every register at reset; the last function to enter D3hot brings STANDBY; a function that can write again is given
what waited for it. The model's choices it rests on: log 15, 67, 90. It states that these commands complete with their own effect:
numvfsWrite, vfEnableSet, vfEnableClear, functionD3hot, functionD0, busMasterEnableWrite. -/
def Obligations.Functions : Prop :=
  (∀ (s : State) (v : Nat), s.cfgOpen = true → s.pw.vfEnable = false → s.inCompat = false → v ≤ 63 →
    exec (.numvfsWrite v) s = .next { s with pw := { s.pw with numVfs := v } }) ∧
  (∀ s : State, s.cfgOpen = true → s.pw.vfEnable = false → s.inCompat = false → (∀ i, (s.inst i).leaving = false) →
    ∃ t, exec .vfEnableSet s = .next t ∧
      (∀ i : InstNo, t.inst i =
        if i ≠ 0 ∧ i.val ≤ s.pw.numVfs then { st := if 5 ≤ s.pw.shedStep then .frozen else .running, memSpace := (s.inst i).memSpace }
        else s.inst i) ∧
      t.pw.vfEnable = true ∧ (s.pw.mode = .sole → t.pw.mode = .shared) ∧ (s.pw.mode ≠ .sole → t.pw.mode = s.pw.mode) ∧
      t = { s with insts := t.insts, pw := { s.pw with
        vfEnable := true, mode := t.pw.mode, beforeShed := t.pw.beforeShed, beforeStandby := t.pw.beforeStandby } }) ∧
  (∀ s : State, s.cfgOpen = true → s.pw.vfEnable = true → s.pw.mode = .shared → (∀ i, i ≠ 0 → (s.inst i).st = .disabled) →
    ∃ t, exec .vfEnableClear s = .next t ∧ t.pw.mode = .sole ∧ t.pw.vfEnable = false ∧
      t.bare = State.bare { s with pw := { s.pw with
        vfEnable := false, mode := .sole, beforeShed := t.pw.beforeShed, beforeStandby := t.pw.beforeStandby } }) ∧
  (∀ (s : State) (i : InstNo), s.fnOpen i = true → (s.inst i).d3hot = false → (s.inst i).waiting = [] →
    ∃ t, exec (.functionD3hot i) s = .next t ∧
      (let u := s.modInst i fun n => { n with d3hot := true }
       ((∃ j, (u.inst j).d3hot = false ∧ (j = 0 ∨ (u.inst j).st ≠ .disabled)) → t = u) ∧
       (s.pw.mode.isRunning = true → (∀ j, (u.inst j).d3hot = true ∨ (j ≠ 0 ∧ (u.inst j).st = .disabled)) →
         t.pw.mode = .standby ∧ t.pw.beforeStandby = (if s.pw.mode = .shed then s.pw.beforeShed else s.pw.mode) ∧
         t.insts = u.insts ∧
         ∀ p, (∀ x ∈ (s.port p).queue, x ∈ (t.port p).queue) ∧
           t.port p = { s.port p with
             queue := (t.port p).queue,
             suspendPending := decide ((s.port p).st = .enabled ∧ ¬(s.pw.egress = true ∧ s.activeOn p = true)) || (s.port p).suspendPending }))) ∧
  (∀ (s : State) (i : InstNo), s.fnOpen i = true → (s.inst i).d3hot = true → i ≠ 0 ∨ s.pw.mode ≠ .standby →
    exec (.functionD0 i) s = .next ((s.modInst i fun n => { n with d3hot := false }).functionBack i).ended) ∧
  ∀ (s : State) (i : InstNo), s.fnOpen i = true →
    exec (.busMasterEnableWrite i false) s = .next (s.modInst i fun n => { n with busMaster := false }) ∧
    ((s.inst i).busMaster = false →
      exec (.busMasterEnableWrite i true) s = .next ((s.modInst i fun n => { n with busMaster := true }).functionBack i).ended)

/-- Messages and the link (R4, R122, R124): an unmasked vector's pending message goes; L1 is entered only with no message due, and on its
exit the messages that waited are sent, oldest first. The model's choices it rests on: log 13, 119. It states that these commands complete
with their own effect: msixVectorUnmask, l1ExitComplete, aspmL1Entry. -/
def Obligations.Messages : Prop :=
  (∀ (s : State) (i : InstNo) (v : Fin 64), s.regsOpen i = true → (s.inst i).fresh = false → v.val < vectors i → s.inCompat = false →
    let m := (kget (s.inst i).msix v).getD ⟨0, 0, true⟩
    exec (.msixVectorUnmask i v) s =
      .next ((s.modInst i fun n => { n with msix := kset n.msix v { m with masked := false } }).sendPending i).ended) ∧
  (∀ (s : State) (l : L1State), s.pw.l1 = some l →
    ∃ t, exec .l1ExitComplete s = .next t ∧ t.bare = State.bare { s with pw := { s.pw with l1 := none } } ∧
      ((∀ m ∈ s.pw.msgQueue, s.canWrite m.1 = true) → s.cnt.msgDue = false → (∀ i, (s.inst i).ctrMsgDue = false) →
        s.cnt.shedStopped = true → s.mem.bsLock = false →
        t.pw.msgQueue = [] ∧
        t.out = (s.pw.msgQueue.map fun m => Out.msix m.1 m.2).reverse ++ (if l = .l1 then [] else [.clkreqN true]) ++ s.out)) ∧
  ∀ (s : State) (sub : L1State), s.alive = true → s.pw.linkUp = true → s.pw.l1 = none → (∀ m ∈ s.pw.msgQueue, s.canWrite m.1 = false) →
    exec (.aspmL1Entry sub) s = .next { s with
      pw := { s.pw with l1 := some sub }
      out := if sub = .l1 then s.out else .clkreqN false :: s.out }

/-- The life of an instance under the manager's commands (R147, R148, R315, R319, R322, R329): a tenant that runs begins to quiesce, at once
with its unstarted work withdrawn, its commits stopped and its channels paused; a quiesced tenant runs again with what waited for it; a
quiesced or halted one is wiped. Dirty logging starts with a clear log over the window given, moves to another bitmap with a clear log, and
stops; the result gives `outside`. The model's choices it rests on: log 63, 69, 125, 132. It states that these commands complete with their
own effect: quiesceInstance, quiesceComplete, resumeInstance, resetInstance, vfFunctionLevelReset, flrWipe, dirtyLogStart, dirtyLogSync,
dirtyLogStop. -/
def Obligations.InstanceLife : Prop :=
  (∀ (s : State) (i : InstNo) (slot : BitVec 16) (e : CEntry) (j : InstNo), s.Ordered i slot 0x44 anyForm e → s.tenantOf e = some j →
    ((s.inst j).st = .running → bitOf e 70 = false →
      exec (.quiesceInstance i slot) s =
        .next ((((s.modInst j fun n => { n with st := .quiescing, abort := false }).stopWork j).setPhase i slot .waiting).ended)) ∧
    ((s.inst j).st = .running → bitOf e 70 = true →
      let u := (s.modInst j fun n => { n with st := .quiescing, abort := true }).stopWork j
      exec (.quiesceInstance i slot) s = .next ((((u.unlist (u.holds j)).abortInst j).setPhase i slot .waiting).ended)) ∧
    ((s.inst j).st = .frozen →
      exec (.quiesceInstance i slot) s = .next ((s.modInst j fun n => { n with st := .quiesced }).replied i slot .cmdOk 0))) ∧
  (∀ (s : State) (j : InstNo), s.runs = true → (s.inst j).st = .quiescing → (s.inst j).abort = false → s.quiet j = true →
    let u := (s.flushRings j).each ((s.flushRings j).epSlots j) State.writeBack
    exec (.quiesceComplete j) s =
      .next (((u.modInst j fun n => { n with st := .quiesced, abort := false, served := false }).endQuiesce j).ended)) ∧
  (∀ (s : State) (i : InstNo) (slot : BitVec 16) (e : CEntry) (j : InstNo), s.Ordered i slot 0x45 anyForm e → s.tenantOf e = some j →
    s.pw.shedStep < 5 → (s.inst j).st = .quiesced ∨ (s.inst j).st = .quiescing →
    exec (.resumeInstance i slot) s =
      .next (((s.modInst j fun n => { n with st := .running }).functionBack j).replied i slot .cmdOk 0)) ∧
  (∀ (s : State) (i : InstNo) (slot : BitVec 16) (e : CEntry) (j : InstNo), s.Ordered i slot 0x46 anyForm e → s.tenantOf e = some j →
    (s.inst j).st = .quiesced ∨ (s.inst j).st = .halted → s.midBlock j = false →
    let u := (s.wipeInst j).modInst j fun n => { n.cleared with st := .quiesced, served := false }
    exec (.resetInstance i slot) s = .next ((if bitOf e 70 then u.returnShares j else u).replied i slot .cmdOk 0)) ∧
  (∀ (s : State) (i : InstNo), i ≠ 0 → (s.inst i).st ≠ .disabled → (s.inst i).flrAsked = false → s.alive = true → s.pw.linkUp = true →
    let u := (s.askFlr i).stopAll i
    exec (.vfFunctionLevelReset i) s = .next (u.unsolicited 0 0 (.notice i 2) (u.flrNotice i)).ended) ∧
  (∀ (s : State) (i : InstNo), (s.inst i).flrAsked = true → (s.inst i).operating = false → s.midBlock i = false →
    ((s.inst i).leaving = true → exec (.flrWipe i) s = .next ((s.disableInst i).endQuiesce i).leaveShared.ended) ∧
    ((s.inst i).leaving = false → exec (.flrWipe i) s = .next ((s.wipeInst i).modInst i fun n =>
      { n with flrAsked := false, busMaster := false, msixEn := false, funcMask := false, d3hot := false, pmeEn := false }).ended)) ∧
  ∀ (s : State) (i : InstNo) (slot : BitVec 16) (e : CEntry) (j : InstNo), s.tenantOf e = some j →
    (s.Ordered i slot 0x49 (fun e => fld e 71 70 < 2) e → fld e 71 70 = 1 → (s.inst j).dirty = none →
      exec (.dirtyLogStart i slot) s = .next ((s.modInst j fun n =>
        { n with dirty := some ⟨fld e 191 128, fld e 255 192, fld e 287 256, false, []⟩ }).replied i slot .cmdOk 0)) ∧
    (s.Ordered i slot 0x49 (dirtyForm 3) e → ∀ d, (s.inst j).dirty = some d → d.bitmap ≠ fld e 191 128 →
      exec (.dirtyLogSync i slot) s = .next ((s.modInst j fun n =>
        { n with dirty := some { d with bitmap := fld e 191 128, pages := [] } }).replied i slot .cmdOk (b2n d.outside))) ∧
    (s.Ordered i slot 0x49 (dirtyForm 2) e → ∀ d, (s.inst j).dirty = some d →
      exec (.dirtyLogStop i slot) s = .next ((s.modInst j fun n => { n with dirty := none }).replied i slot .cmdOk (b2n d.outside)))

/-! ### Rings, doorbells and malformed work (R92 to R95, R112 to R132, R442) -/

/-- Doorbells (R93 to R95, R129, R413): one for the command ring sets its `tail`; one for an endpoint sets that of its ring and wakes its
branch; one to a ring that is not there, or that is not yet open (R152), and a write to a page that is no doorbell, is counted in
`stray_writes` alone. It states that these commands complete with their own effect: doorbell, fDoorbell, strayDoorbellPageWrite. -/
def Obligations.Doorbells : Prop :=
  (∀ (s : State) (i : InstNo) (w : Word), s.nativeRegs i = true → (s.inst i).fresh = false → (s.inst i).halted = false →
    fld w 63 33 = 0 →
    (fld w 32 16 = 0 → (s.inst i).cmdEn = true →
      tailOk (s.inst i).cmdEntries (s.inst i).cmdHead (s.inst i).cmdTail (BitVec.ofNat 16 (fld w 15 0)) = true →
      ∃ t, exec (.doorbell i w) s = .next t ∧
        t.bare = State.bare (s.modInst i fun n => { n with cmdTail := BitVec.ofNat 16 (fld w 15 0) })) ∧
    (fld w 32 16 = 0 → (s.inst i).cmdEn = false →
      exec (.doorbell i w) s = .next (s.modInst i fun n => { n with strayWrites := satInc n.strayWrites }).ended) ∧
    (fld w 32 16 ≠ 0 → ∀ k e, s.epOf i (fld w 32 16 - 1) = some (k, e) →
      (e.opening = none → tailOk e.ringSize e.trHead e.trTail (BitVec.ofNat 16 (fld w 15 0)) = true →
        exec (.doorbell i w) s = .next (((((s.count { cls := 0x15, inst := some i }).touch k).modEp k fun e =>
          { e with trTail := BitVec.ofNat 16 (fld w 15 0) }).wakeFor i w).ended)) ∧
      (e.opening.isSome = true →
        exec (.doorbell i w) s = .next (s.modInst i fun n => { n with strayWrites := satInc n.strayWrites }).ended))) ∧
  (∀ (s : State) (w : BitVec 32), s.regsOpen 0 = true → s.inCompat = true → (s.inst 0).fresh = false → (s.inst 0).halted = false →
    fld w 31 16 = 0 → (s.inst 0).cmdEn = true →
    tailOk (s.inst 0).cmdEntries (s.inst 0).cmdHead (s.inst 0).cmdTail (BitVec.ofNat 16 (fld w 15 0)) = true →
    ∃ t, exec (.fDoorbell w) s = .next t ∧
      t.bare = State.bare (s.modInst 0 fun n => { n with cmdTail := BitVec.ofNat 16 (fld w 15 0) })) ∧
  ∀ (s : State) (i : InstNo), s.nativeRegs i = true → (s.inst i).fresh = false →
    exec (.strayDoorbellPageWrite i) s = .next (s.modInst i fun n => { n with strayWrites := satInc n.strayWrites })

/-- The ring registers (R98, R120, R121, R128, R130, R132): a head write frees slots, and one past `tail` is counted and ignored; a command
ring is enabled with its indices at 0 and disabled when its entries have completed; an event ring is enabled with its indices at 0 and
disabled when nothing needs it; the backing store is placed once. The model's choices it rests on: log 78, 118, 129, 130, 131. It states
that these commands complete with their own effect: eventRingHeadWrite, commandRingEnable, commandRingDisable, eventRingEnable,
eventRingDisable, backingStoreLock. -/
def Obligations.RingRegisters : Prop :=
  ∀ (s : State) (i : InstNo), s.regsOpen i = true → (s.inst i).fresh = false →
    (∀ (e : RingNo) (h : BitVec 16), s.ringReached e = true →
      let r := s.ring i e
      let moved := (h.toNat + r.entries - r.head.toNat % r.entries) % r.entries
      (h.toNat < r.entries → moved ≤ r.used →
        exec (.eventRingHeadWrite i e h) s = .next ((s.modRing i e fun r => { r with head := h }).settle i e).ended) ∧
      (r.entries ≤ h.toNat ∨ r.used < moved →
        exec (.eventRingHeadWrite i e h) s = .next (s.modInst i fun n => { n with strayWrites := satInc n.strayWrites }))) ∧
    ((s.inst i).cmdEn = false → (s.ring i 0).enable = true → i ≠ 0 ∨ s.mem.bsLock = true →
      exec (.commandRingEnable i) s = .next (s.modInst i fun n =>
        { n with cmdEn := true, cmdHead := 0, cmdTail := 0, cmdFetch := 0, cmds := [], cmdDone := [] })) ∧
    ((s.inst i).cmdHead = (s.inst i).cmdTail → (∀ w ∈ (s.inst i).waiting, w.isCommand = false) →
      exec (.commandRingDisable i) s = .next (s.modInst i fun n => { n with cmdEn := false })) ∧
    (∀ e : RingNo, s.ringReached e = true → (s.ring i e).enable = false → s.canWrite i = false →
      exec (.eventRingEnable i e) s = .next ((s.modRing i e fun r =>
        { r with enable := true, head := 0, tail := 0, blocked := false, blockedTicks := 0, counted := 0, mirrorDue := true }).settle i
          e).ended) ∧
    (∀ e : RingNo, s.ringReached e = true → (s.ring i e).enable = false → s.canWrite i = true →
      exec (.eventRingEnable i e) s = .next (((s.modRing i e fun r =>
        { r with enable := true, head := 0, tail := 0, blocked := false, blockedTicks := 0, counted := 0, mirrorDue := true }).writeMirror
          i e).settle i e).ended) ∧
    (∀ e : RingNo, s.ringReached e = true → s.ringNeeded i e = false →
      exec (.eventRingDisable i e) s = .next (s.modRing i e fun r => { r with enable := false, blocked := false })) ∧
    (∀ w : Word, i = 0 → s.mem.bsLock = false →
      exec (.backingStoreLock w) s = .next { s with mem := { s.mem with
        bsBase := BitVec.ofNat 64 (fld w 63 21 * 2 ^ 21), bsLock := bitOf w 0, recImage := [], mapImage := [] } })

/-- Taking work (R92, R99, R104, R112, R118, R123, R149): a well-formed command is fetched with its event slot reserved; a well-formed
transfer entry of a bulk OUT endpoint is in progress with its event slot reserved; a due mirror is written and a ring with counted events
sends its message; a use of a context that is not in the cache is counted and reads it, one that is makes it the most recently used, and a
read with a right check byte enters the cache. The model's choices it rests on: log 21, 118. It states that these commands complete with
their own effect: commandFetch, transferEntryTake, indexMirrorWrite, moderationIntervalExpiry, contextReadComplete, nop. -/
def Obligations.TakingWork : Prop :=
  (∀ (s : State) (i : InstNo) (c : CEntry), s.takesWork i = true → (s.inst i).cmdEn = true → (s.inst i).cmdFetch ≠ (s.inst i).cmdTail →
    (s.inst i).started < 16 → (s.ring i 0).hasCredit = true → ceMalformed c = none →
    let slot := (s.inst i).cmdFetch
    exec (.commandFetch i c) s =
      .next ((((s.hostRead i ((s.inst i).cmdBase.toNat + 64 * slot.toNat) 64 none none).modInst i fun n =>
        { n with cmds := n.cmds ++ [⟨slot, c, .fetched⟩], cmdFetch := BitVec.ofNat 16 ((slot.toNat + 1) % n.cmdEntries) }).reserve i
          0).ended)) ∧
  (∀ (s : State) (k : Nat) (e : Ep) (t : TEntry) (ecc : Ecc), s.ep k = some e → s.takesEntry k e = true → s.cachedOf (.ep k) = true →
    teMalformed e t = none → e.kind = .bulk → e.inward = false → e.flowEn = false → e.force = none →
    ∃ u, exec (.transferEntryTake k t ecc) s = .next u ∧
      u.bare = State.bare ((s.touch k).modEp k fun e => { e with cur := some ⟨e.nextSlot, t, 0, .body, none, none, false⟩, force := none })) ∧
  (∀ (s : State) (i : InstNo) (e : RingNo), (s.ring i e).enable = true → s.canWrite i = true →
    ((s.ring i e).mirrorDue = true → exec (.indexMirrorWrite i e) s = .next (s.writeMirror i e).ended) ∧
    ((s.ring i e).counted ≠ 0 → exec (.moderationIntervalExpiry i e) s = .next (s.fireRing i e).ended)) ∧
  (∀ (s : State) (k : Nat) (bytes : List Byte), s.runs = true → k ∈ s.mem.reading → k ∉ s.mem.cache → (s.ep k).isSome = true →
    bytes.length = 64 →
    s.mem.cache.length < 8192 → crc8 (bytes.take 63) = bytes.getD 63 0 →
    exec (.contextReadComplete k bytes) s =
      .next (State.ended { s with mem := { s.mem with reading := s.mem.reading.filter (· != k), cache := k :: s.mem.cache } })) ∧
  (∀ (s : State) (k : Nat), s.mem.bsLock = true → k ∉ s.mem.cache → k ∉ s.mem.reading →
    (s.touch k).mem = { s.mem with misses := satInc s.mem.misses, reading := k :: s.mem.reading } ∧
    .hostRead 0 (s.mem.bsBase.toNat + 64 * k) 64 ∈ (s.touch k).out) ∧
  (∀ (s : State) (k : Nat), s.mem.bsLock = true → k ∈ s.mem.cache →
    s.touch k = { s with mem := { s.mem with cache := k :: s.mem.cache.filter (· != k) } }) ∧
  ∀ (s : State) (i : InstNo) (slot : BitVec 16) (e : CEntry), s.Ordered i slot 0x01 anyForm e →
    exec (.nop i slot) s = .next (s.replied i slot .cmdOk 0)

/-- Malformed work (R114 to R117, R442): the manager's halts the controller; a tenant's halts that tenant alone, with what was wrong in its
registers, its channels paused and the occurrence in the snag log. A refused host access and one without an answer are malformed work of the
command on whose behalf it was made. The model's choices it rests on: log 98. It states that these commands complete with their own effect:
hostAccessRefused, hostAccessTimeout. -/
def Obligations.Malformed : Prop :=
  (∀ (s : State) (slot : BitVec 16), s.runs = true → (s.inst 0).halted = false →
    ∃ t, exec (.hostAccessRefused (.command 0 slot)) s = .next t ∧
      t.bare = State.bare { s with snag := t.snag, pw := { s.pw with halted := true } }) ∧
  ∀ (s : State) (i : InstNo) (slot : BitVec 16), i ≠ 0 → s.runs = true → (s.inst i).halted = false → (s.inst i).st = .running →
    let u := s.modInst i fun n =>
      { n with halted := true, malCode := 0x0A, badKind := 0, badTarget := 0, badIndex := slot, st := .halted, served := false }
    ∃ t, exec (.hostAccessTimeout (.command i slot)) s = .next t ∧
      (t.inst i).halted = true ∧ (t.inst i).malCode = 0x0A ∧ (t.inst i).badKind = 0 ∧ (t.inst i).badTarget = 0 ∧
      (t.inst i).badIndex = slot ∧ (t.inst i).st = .halted ∧ (t.inst i).served = false ∧ (t.inst i).waiting = [] ∧
      (∀ c, t.chan c = if (s.chan c).owner = i ∧ ((s.chan c).cstate = .running ∨ (s.chan c).cstate = .waiting)
        then { s.chan c with cstate := .paused } else s.chan c) ∧
      t.bare = State.bare { (u.haltWork i) with snag := t.snag, chans := t.chans } ∧
      (∀ j, j ≠ i → (t.inst j).bare = (s.inst j).bare) ∧ (∀ k, k ∉ s.epSlots i → t.ep k = s.ep k) ∧
      (∀ d ∈ s.deliveries, d.ep ∉ s.epSlots i → d ∈ t.deliveries) ∧
      (∀ p, ∀ x ∈ (s.port p).queue, s.holds i x.who = false → x ∈ (t.port p).queue) ∧
      ∀ k, ∀ x ∈ (s.trowel k).slots, s.holds i x.who = false → x ∈ (t.trowel k).slots

/-! ### Registers, counters, meters and the dispatcher -/

/-- Register writes (R7, R85, R87, R228, R235, R259, R397, R399): each field that software may write takes its bits and nothing else of the
state changes; a value that a field does not take leaves it as it was; W1C bits clear where 1 is written. Register reads (R7, R8, R85, R88,
R93, R262): each field reads as it is held, reserved bits and the doorbell page read 0, PRT_TIMING follows the port's speed, and the
registers of a channel read 0 to an instance that does not own it. The model's choices it rests on: log 6, 56, 80, 83. It states that these
commands complete with their own effect: registerWrite, sngIndexWrite, prtChangeClear, hwkRegionWrite. -/
def Obligations.RegisterWrites : Prop :=
  ∀ s : State, s.regsOpen 0 = true → (s.inst 0).fresh = false →
    (∀ (p : PortNo) (w : Word), s.inCompat = false → (s.port p).reckoned ≠ .none →
      ∃ t, exec (.registerWrite 0 (0x10000 + 0x40 * p.val) w) s = .next t ∧
        t.bare = State.bare (s.modPort p fun x => { x with
          wakeEn := bitOf w 16
          maxSpeed := if fld w 15 14 = 3 then x.maxSpeed else BitVec.ofNat 2 (fld w 15 14)
          mgrHold := bitOf w 13
          faultBlank := if fld w 12 8 = 0 then x.faultBlank else BitVec.ofNat 5 (fld w 12 8)
          pwrRetryMax := BitVec.ofNat 4 (fld w 7 4)
          pwrRetryGap := BitVec.ofNat 4 (fld w 3 0) })) ∧
    (∀ w : Word, s.inCompat = false →
      ∃ t, exec (.registerWrite 0 0x11000 w) s = .next t ∧
        t.bare = State.bare { s with tree := { s.tree with
          idleMs := if fld w 15 0 = 0 then s.tree.idleMs else BitVec.ofNat 16 (fld w 15 0) } }) ∧
    (∀ w : Word, s.inCompat = false →
      ∃ t, exec (.registerWrite 0 0x16008 w) s = .next t ∧
        t.bare = State.bare { s with pw := { s.pw with
          bmcResetEn := bitOf w 8, warnStep := if fld w 2 0 = 7 then s.pw.warnStep else BitVec.ofNat 3 (fld w 2 0) } }) ∧
    (∀ w : Word, s.inCompat = false → s.sngOpen = true →
      exec (.sngIndexWrite w) s = .next { s with snag := { s.snag with index := w.setWidth 32 } }) ∧
    (∀ (p : PortNo) (w : Word), s.inCompat = false →
      exec (.prtChangeClear p w) s = .next (s.modPort p fun x => { x with change := x.change &&& ~~~(w.setWidth 8) })) ∧
    (∀ (d : Nat) (w : Word), d < 1024 →
      (s.regionOk 0 d ⟨bitOf w 63, fld w 47 32, fld w 15 0⟩ = true →
        exec (.hwkRegionWrite 0 d w) s = .next (s.modInst 0 fun n =>
          { n with regions := kset n.regions d ⟨bitOf w 63, fld w 47 32, fld w 15 0⟩ })) ∧
      (s.regionOk 0 d ⟨bitOf w 63, fld w 47 32, fld w 15 0⟩ = false →
        exec (.hwkRegionWrite 0 d w) s = .next (s.modInst 0 fun n => { n with carveRejects := satInc n.carveRejects }))) ∧
    (∀ p : PortNo, s.inCompat = false →
      let w := s.readReg 0 (0x10000 + 0x40 * p.val)
      let x := s.port p
      bitOf w 16 = x.wakeEn ∧ fld w 15 14 = x.maxSpeed.toNat ∧ bitOf w 13 = x.mgrHold ∧ fld w 12 8 = x.faultBlank.toNat ∧
      fld w 7 4 = x.pwrRetryMax.toNat ∧ fld w 3 0 = x.pwrRetryGap.toNat ∧ fld w 63 17 = 0) ∧
    (∀ p : PortNo, let w := s.readReg 0 (0x10018 + 0x40 * p.val)
      fld w 31 16 = (match (s.port p).speed with | .express => 800 | .standard => 1600 | .reach => 10000 | .none => 0) ∧
      fld w 15 0 = (match (s.port p).speed with | .express => 200 | .standard => 400 | .reach => 2000 | .none => 0) ∧ fld w 63 32 = 0) ∧
    (∀ (i : InstNo) (off : Nat), off < 0x1000 → s.readReg i (0xA000 + off) = 0) ∧
    ∀ (i : InstNo) (c : ChanNo) (reg : Nat), reg < 8 → (s.chan c).owner ≠ i → s.readReg i (0x3000 + 0x40 * c.val + 8 * reg) = 0

/-- A hawk region is taken only within the instance's quota and its units, and where it overlaps no other valid region of the instance
(R228). -/
def Obligations.RegionsDisjoint : Prop :=
  ∀ (s : State) (i : InstNo) (d : Nat) (r : Region), s.regionOk i d r = true →
    d < (s.inst i).regionQuota ∧ s.regionInUse i d = false ∧
    (r.valid = true → 0 < r.units ∧ r.base + r.units ≤ (s.inst i).unitMap.length ∧
      ∀ k x, (k, x) ∈ (s.inst i).regions → k ≠ d → x.valid = true → x.base + x.units ≤ r.base ∨ r.base + r.units ≤ x.base)

/-- R227: the carved extent is 1 plus the highest private unit that a valid region covers, or 0 when there is none; a HAWK_QUOTA that the
device can give but that sets `units` below it, or `regions` at or below the highest valid descriptor number, is SHARE_BELOW_RESERVED. It
states that these commands complete with their own effect: hawkQuota. -/
def Obligations.CarvedExtent : Prop :=
  (∀ (n : Inst) (d : Nat) (r : Region) (x : Nat), (d, r) ∈ n.regions → r.valid = true → r.base ≤ x → x < r.base + r.units → x < n.carved) ∧
  (∀ n : Inst, (∀ d r, (d, r) ∈ n.regions → r.valid = true → 0 < r.units) → n.carved ≠ 0 →
    ∃ d r, (d, r) ∈ n.regions ∧ r.valid = true ∧ r.base ≤ n.carved - 1 ∧ n.carved - 1 < r.base + r.units) ∧
  ∀ (s : State) (i : InstNo) (slot : BitVec 16) (e : CEntry) (j : InstNo), s.Ordered i slot 0x43 anyForm e →
    s.instOf (fld e 69 64) = some j →
    let others := allInsts.filter (· != j)
    fld e 95 80 ≤ 32768 → fld e 106 96 ≤ 1024 → (others.map fun k => (s.inst k).unitMap.length).sum + fld e 95 80 ≤ 32768 →
    (others.map fun k => (s.inst k).regionQuota).sum + fld e 106 96 ≤ 1024 →
    (fld e 95 80 < (s.inst j).carved ∨ ∃ d r, (d, r) ∈ (s.inst j).regions ∧ r.valid = true ∧ fld e 106 96 ≤ d) →
    exec (.hawkQuota i slot) s = .next (s.replied i slot .shareBelowReserved 0)

/-- Counter and meter registers (R346, R352 to R358): a written counter takes its count and flag, its selection takes the fields, a sample
is cleared by a 1, and a write of MTR_CFG discards the running totals. The model's choices it rests on: log 79. It states that these
commands complete with their own effect: cntValWrite, cntSelWrite, counterSampleClear, mtrCfgWrite, mtrWindowEnd. -/
def Obligations.CounterRegisters : Prop :=
  ∀ s : State, s.nativeRegs 0 = true → (s.inst 0).fresh = false →
    (∀ (j : Fin 8) (w : Word) (decs : Nat), exec (.cntValWrite .device j ⟨w, decs⟩) s = .next { s with cnt := { s.cnt with
      ctrs := vset s.cnt.ctrs j { vget s.cnt.ctrs j with
        ovf := bitOf w 63, count := BitVec.ofNat 48 (fld w 47 0), discard := decs } } }) ∧
    (∀ (j : Fin 8) (w : Word), exec (.cntSelWrite .device j w) s = .next { s with cnt := { s.cnt with
      ctrs := vset s.cnt.ctrs j { vget s.cnt.ctrs j with
        enable := bitOf w 63, irqEn := bitOf w 62, cls := BitVec.ofNat 8 (fld w 55 48), addrEn := bitOf w 44
        mtype := if 4 < fld w 43 41 then (vget s.cnt.ctrs j).mtype else BitVec.ofNat 3 (fld w 43 41)
        mid := BitVec.ofNat 6 (fld w 40 35), priv := BitVec.ofNat 3 (fld w 34 32) } } }) ∧
    (∀ w : Word, exec (.counterSampleClear .device w) s = .next (if bitOf w 63 then
      { s with cnt := { s.cnt with sample := { s.cnt.sample with valid := false } } } else s)) ∧
    (∀ w : Word, ∃ t, exec (.mtrCfgWrite w) s = .next t ∧
      (∀ p, t.port p = { s.port p with inAcc := 0, outAcc := 0 }) ∧
      t = { s with ports := t.ports, cnt := { s.cnt with
        mtrEnable := bitOf w 16, mtrFrames := BitVec.ofNat 10 (fld w 9 0), mtrRunning := false
        mtrValid := if bitOf w 16 then false else s.cnt.mtrValid } }) ∧
    (s.cnt.mtrRunning = true → s.cnt.shedStopped = false → s.cnt.mtrFrom + 8 * (s.cnt.mtrFrames.toNat + 1) ≤ s.pl.subN →
      ∃ t, exec .mtrWindowEnd s = .next t ∧
        (∀ p, t.port p = { s.port p with inBytes := (s.port p).inAcc, outBytes := (s.port p).outAcc, inAcc := 0, outAcc := 0 }) ∧
        t = { s with ports := t.ports, cnt := { s.cnt with
          mtrSeq := s.cnt.mtrSeq + 1, mtrValid := true, mtrFrom := 8 * (s.pl.subN / 8) } }) ∧
    (s.pl.subN < s.cnt.mtrFrom + 8 * (s.cnt.mtrFrames.toNat + 1) → exec .mtrWindowEnd s = .next s)

/-- An occurrence counted (R344, R345): a counter that selects it rises by the increment modulo 2^48 and its overflow flag is set when the
count wraps; one that does not select it stays; nothing but counters, samples and due messages changes. The model's choices it rests on: log
14. -/
def Obligations.Counting : Prop :=
  ∀ (s : State) (o : Occ), (s.count o).bare = s.bare ∧
    (s.cnt.shedStopped = false → ∀ j : Fin 8,
      let c := vget s.cnt.ctrs j
      let d := vget (s.count o).cnt.ctrs j
      if c.passes o true = true ∧ c.discard = 0 then
        d.count = BitVec.ofNat 48 (c.count.toNat + o.inc) ∧ d.ovf = (c.ovf || decide (2 ^ 48 ≤ c.count.toNat + o.inc))
      else d = if c.passes o true then { c with discard := c.discard - 1 } else c) ∧
    (s.cnt.shedStopped = false → ∀ (i : InstNo) (j : Fin 4),
      let c := vget (s.inst i).ctrs j
      let d := vget ((s.count o).inst i).ctrs j
      if o.inst = some i ∧ c.passes o false = true ∧ c.discard = 0 then
        d.count = BitVec.ofNat 48 (c.count.toNat + o.inc) ∧ d.ovf = (c.ovf || decide (2 ^ 48 ≤ c.count.toNat + o.inc))
      else d = if o.inst = some i ∧ c.passes o false = true then { c with discard := c.discard - 1 } else c)

/-- The dispatcher's registers (R292, R293, R297, R303, R305, R306): a group and a queue pass to an owner only when idle, a queue's
configuration takes the fields that it may, the trace starts with both indices at 0, and an accepted release frees its place. The model's
choices it rests on: log 54, 55, 56. It states that these commands complete with their own effect: dspGroupWrite, dspQmapWrite,
dspQcfgWrite, dspTraceEnable, dspTraceHeadWrite, dspRelease, dspStatsWindowEnd. -/
def Obligations.DispatchRegisters : Prop :=
  ∀ s : State, s.nativeRegs 0 = true → (s.inst 0).fresh = false →
    (∀ (g : GroupNo) (w : Word) (i : InstNo), i.val = fld w 5 0 →
      ((s.group g).fifo = [] → (∀ q, (s.queue q).group = g → (s.queue q).depth = 0) →
        exec (.dspGroupWrite g w) s = .next (s.modGroup g fun y => { y with owner := i })) ∧
      ((s.group g).fifo ≠ [] → exec (.dspGroupWrite g w) s = .next s)) ∧
    (∀ (q : QueueNo) (w : Word) (i : InstNo) (g : GroupNo), i.val = fld w 5 0 → g.val = fld w 9 6 →
      ((s.group g).owner = i → (s.queue q).depth = 0 →
        exec (.dspQmapWrite q w) s = .next (s.modQueue q fun y => { y with owner := i, group := g })) ∧
      ((s.group g).owner ≠ i → exec (.dspQmapWrite q w) s = .next s)) ∧
    (∀ (q : QueueNo) (w : Word) (e : RingNo), (s.queue q).depth = 0 → (s.queue q).owner = 0 → e.val = fld w 18 16 →
      fld w 30 23 ≠ 0 → fld w 22 19 ≠ 0 →
      exec (.dspQcfgWrite 0 q w) s = .next (s.modQueue q fun y =>
        { y with enable := bitOf w 31, depthMax := BitVec.ofNat 8 (fld w 30 23), weight := BitVec.ofNat 4 (fld w 22 19), evtRing := e
                 vecEn := bitOf w 15, vector := BitVec.ofNat 6 (fld w 13 8) })) ∧
    (∀ w : Word, s.disp.trace.enable = false → bitOf w 8 = true → fld w 3 0 ≤ 12 →
      exec (.dspTraceEnable w) s = .next { s with disp := { s.disp with trace := { s.disp.trace with
        kinds := BitVec.ofNat 16 (fld w 63 48), size := BitVec.ofNat 4 (fld w 3 0), enable := true, head := 0, tail := 0, lost := 0 } } }) ∧
    (∀ w : Word, s.disp.trace.enable = false →
      exec (.dspTraceHeadWrite w) s = .next { s with disp := { s.disp with trace := { s.disp.trace with
        head := BitVec.ofNat 20 (fld w 51 32) } } }) ∧
    (∀ (w : Word) (k : Nat) (x : Item) (q : QueueNo), s.released 0 w = some (k, x) → q.val = fld w 5 0 → s.disp.trace.enable = false →
      x.flow = 0 →
      ∃ t, exec (.dspRelease 0 w) s = .next t ∧
        t.bare = State.bare ((s.modQueue q fun y => { y with depth := y.depth - 1 }).dropItem k)) ∧
    (s.pw.mode.isRunning = true → s.disp.windowAt + 8 * (s.disp.windowFrames.toNat + 1) ≤ s.pl.subN →
      exec .dspStatsWindowEnd s = .next { s with disp := { s.disp with
        queues := s.disp.queues.map (·.window (s.disp.windowFrames.toNat + 1)), windowAt := 8 * (s.pl.subN / 8) } }) ∧
    (s.pl.subN < s.disp.windowAt + 8 * (s.disp.windowFrames.toNat + 1) → exec .dspStatsWindowEnd s = .next s)

/-- A DISPATCH cycle (R294, R295): when the group after the last one served has an item that a queue can take, the item goes to the queue
that is least loaded for its weight, the lowest of equals; it leaves its group's FIFO and the queue is one deeper. The model's choices it
rests on: log 55. It states that these commands complete with their own effect: dispatchDeliver. -/
def Obligations.Dispatch : Prop :=
  ∀ (s : State) (g : GroupNo) (k : Nat) (l : List Nat) (x : Item) (q : QueueNo), s.runs = true →
    g.val = (s.disp.lastGroup.val + 1) % 16 → (s.group g).fifo = k :: l → kget s.disp.items k = some x → x.flow = 0 → k ∉ l →
    s.servedNow x.owner = true → s.canWrite x.owner = true → s.chooseQueue g = some q → s.disp.trace.enable = false →
    ∃ t, exec .dispatchDeliver s = .next t ∧
      t.bare = State.bare { s with disp := { s.disp with
        lastGroup := g
        items := kset s.disp.items k { x with st := .inService q }
        groups := vset s.disp.groups g { s.group g with fifo := l, stalled := false }
        queues := vset s.disp.queues q { s.queue q with
          depth := (s.queue q).depth + 1, accN := (s.queue q).accN + 1
          accWait := (s.queue q).accWait + (s.pl.cycle - x.ready).toNat } } } ∧
      ∀ q', s.serves g q' = true → s.queueRoom q' = true →
        ((s.queue q).depth + 1) * (s.queue q').weight.toNat ≤ ((s.queue q').depth + 1) * (s.queue q).weight.toNat

/-! ### Root ports (R60 to R89) -/

/-- Attach and detach (R60, R62 to R64, R250, R251): an EMPTY port whose line shows a pull-up is ATTACHING, and ATTACHED after the debounce;
two presence windows that show only LOW, and 2 ms of LOW, bring EMPTY with the port's devices detached; a pull-up on the other leg than
before, with or without a shorter LOW between, detaches too; while the controller drives the line nothing is classified. The model's choices
it rests on: log 28, 144. It states that these commands complete with their own effect: lineStateChange, attachDebounceDone, presenceWindow,
detachLowTimeout, lineActiveTooLong, strayPacket. -/
def Obligations.AttachDetach : Prop :=
  (∀ (s : State) (p : PortNo), s.portLive p = true → (s.port p).st = .empty →
    ∃ t, exec (.lineStateChange p .restP) s = .next t ∧ (t.port p).st = .attaching ∧ (t.port p).line = .restP ∧ (t.port p).pullup = 1 ∧
      (t.port p).change = (s.port p).change ∧ (∀ q, q ≠ p → t.port q = s.port q) ∧ t.bare = State.bare { s with ports := t.ports }) ∧
  (∀ (s : State) (p : PortNo), s.portLive p = true → (s.port p).st = .attached → (s.port p).leg = 1 →
    (∃ t, exec (.lineStateChange p .low) s = .next t ∧ t = s.modPort p fun x => { x with line := .low, pullup := 0 }) ∧
    ∃ t, exec (.lineStateChange p .restN) s = .next t ∧ (t.port p).st = .attaching ∧ (t.port p).line = .restN ∧ (t.port p).pullup = 2 ∧
      bitOf (t.port p).change 7 = true ∧ ∀ q, q ≠ p → t.port q = s.port q) ∧
  (∀ (s : State) (p : PortNo) (line : Line), (s.port p).driven = true → exec (.lineStateChange p line) s = .next s) ∧
  (∀ (s : State) (p : PortNo), s.portLive p = true → (s.port p).st = .attaching → (s.port p).line = .restP →
    ∃ t, exec (.attachDebounceDone p) s = .next t ∧ (t.port p).st = .attached ∧ (t.port p).pullup = 1 ∧
      bitOf (t.port p).change 7 = true ∧ (∀ q, q ≠ p → t.port q = s.port q) ∧
      t.bare = State.bare { s with ports := t.ports, tree := t.tree }) ∧
  (∀ (s : State) (p : PortNo), s.inService p = true →
    exec (.presenceWindow p false) s = .next (s.modPort p fun x => { x with lowWindows := 0 }) ∧
    ((s.port p).lowWindows = 0 → exec (.presenceWindow p true) s = .next (s.modPort p fun x => { x with lowWindows := 1 })) ∧
    ((s.port p).lowWindows = 1 → exec (.presenceWindow p true) s =
      .next ((s.modPort p fun x => { x with lowWindows := 2, line := .low, pullup := 0 }).rootDetach p).ended)) ∧
  (∀ (s : State) (p : PortNo), s.portLive p = true →
    (s.port p).st = .attached ∨ (s.port p).st = .suspending ∨ (s.port p).st = .suspended ∨ (s.port p).st = .disabled →
    (s.port p).line = .low → exec (.detachLowTimeout p) s = .next (s.rootDetach p).ended) ∧
  (∀ (s : State) (p : PortNo), s.inService p = true → (s.port p).round = none →
    ∃ t, exec (.lineActiveTooLong p) s = .next t ∧ (t.port p).st = .disabled ∧ (t.port p).disableCause = 1 ∧
      bitOf (t.port p).change 2 = true ∧ bitOf (t.port p).change 6 = true ∧ ∀ q, q ≠ p → t.port q = s.port q) ∧
  (∀ (s : State) (p : PortNo), (s.port p).round = none →
    exec (.strayPacket p) s = .next (s.modPort p fun x => { x with strayPkts := satInc x.strayPkts }).ended) ∧
  ∀ (s : State) (p : PortNo),
    let t := s.rootDetach p
    (t.port p).st = .empty ∧ (t.port p).speed = .none ∧ (t.port p).round = none ∧ bitOf (t.port p).change 7 = true ∧
    ∀ z d, z ≠ 0 → s.dev z = some d → d.port = p → d.tier < 8 → ∃ d', t.dev z = some d' ∧ d'.st = .detached ∧ d'.awaiting = false

/-- A port reset and the speeds it negotiates (R65 to R67, R217): LOW ends by the pull-up, `max_speed` and the shedding step; Express is
reached through chirp, training and echo; a failure on the way falls back to Standard with `train_fails` and `speed_chg`; at the end of
recovery `reset_chg` is set. The model's choices it rests on: log 27, 44, 146. It states that these commands complete with their own effect:
resetLowEnd, chirpReplyReceived, trainingLock, trainingLockFail, trainDoneEchoTimeout, trainDoneEcho, chirpReplyTimeout, fallbackReleaseEnd.
-/
def Obligations.ResetNegotiation : Prop :=
  ∀ (s : State) (p : PortNo), s.portLive p = true → (s.port p).st = .resetting →
    ((s.port p).phase = .low → s.pw.shedStep = 0 → (s.port p).topSpeed = .express →
      exec (.resetLowEnd ⟨p, .restP⟩) s = .next { s.modPort p fun x => { x.classify .restP with phase := .chirp } with
        out := .drive p .chirp :: .drive p .release :: s.out }) ∧
    ((s.port p).phase = .low → s.pw.shedStep = 0 → (s.port p).topSpeed = .reach ∨ (s.port p).topSpeed = .standard →
      ∃ t, exec (.resetLowEnd ⟨p, .restP⟩) s = .next t ∧ (t.port p).st = .enabled ∧ (t.port p).speed = (s.port p).topSpeed ∧
        (t.port p).shedDown = (s.port p).shedDown ∧ rootPos p ∈ t.tree.marks) ∧
    ((s.port p).phase = .low → s.pw.shedStep ≠ 0 →
      ∃ t, exec (.resetLowEnd ⟨p, .restP⟩) s = .next t ∧ (t.port p).st = .enabled ∧ (t.port p).speed = .standard ∧
        (t.port p).shedDown = decide ((s.port p).topSpeed = .express) ∧ rootPos p ∈ t.tree.marks) ∧
    ((s.port p).phase = .low →
      ∃ t, exec (.resetLowEnd ⟨p, .restN⟩) s = .next t ∧ (t.port p).st = .enabled ∧ (t.port p).speed = .reach ∧ rootPos p ∈ t.tree.marks) ∧
    (∀ line : Line, line ≠ .restP → line ≠ .restN → (s.port p).phase = .low →
      ∃ t, exec (.resetLowEnd ⟨p, line⟩) s = .next t ∧ (t.port p).st = .empty ∧ bitOf (t.port p).change 7 = true) ∧
    ((s.port p).phase = .chirp →
      exec (.chirpReplyReceived p) s = .next { s.modPort p fun x => { x with phase := .training } with
        out := .drive p .training :: s.out }) ∧
    ((s.port p).phase = .training →
      exec (.trainingLock p) s = .next { s.modPort p fun x => { x with phase := .echo } with out := .drive p .trainDone :: s.out }) ∧
    ((s.port p).phase = .training →
      exec (.trainingLockFail p) s = .next { s.modPort p fun x => { x with phase := .fallback } with out := .drive p .release :: s.out }) ∧
    ((s.port p).phase = .echo →
      exec (.trainDoneEchoTimeout p) s =
        .next { s.modPort p fun x => { x with phase := .fallback } with out := .drive p .release :: s.out }) ∧
    ((s.port p).phase = .echo →
      ∃ t, exec (.trainDoneEcho p) s = .next t ∧ (t.port p).st = .enabled ∧
        (t.port p).speed = (if s.pw.shedStep = 0 then .express else .standard) ∧ (t.port p).phase = .idle ∧
        (t.port p).recovering = (s.port p).recovering ∧ bitOf (t.port p).change 6 = true ∧ rootPos p ∈ t.tree.marks ∧
        (∀ q, q ≠ p → t.port q = s.port q) ∧ (∀ i, vget (t.inst i).deficit p = 0) ∧
        t.bare = State.bare { s with ports := t.ports, tree := t.tree, insts := (s.zeroDeficits p).insts }) ∧
    ((s.port p).phase = .chirp →
      ∃ t, exec (.chirpReplyTimeout p) s = .next t ∧ (t.port p).st = .enabled ∧ (t.port p).speed = .standard ∧
        (t.port p).trainFails = satInc (s.port p).trainFails ∧ bitOf (t.port p).change 1 = true ∧ rootPos p ∈ t.tree.marks ∧
        (∀ q, q ≠ p → t.port q = s.port q) ∧
          t.bare = State.bare { s with ports := t.ports, tree := t.tree, insts := (s.zeroDeficits p).insts }) ∧
    ((s.port p).phase = .fallback →
      ∃ t, exec (.fallbackReleaseEnd p) s = .next t ∧ (t.port p).st = .enabled ∧ (t.port p).speed = .standard ∧
        (t.port p).trainFails = satInc (s.port p).trainFails ∧ bitOf (t.port p).change 1 = true ∧ rootPos p ∈ t.tree.marks ∧
        (∀ q, q ≠ p → t.port q = s.port q) ∧
          t.bare = State.bare { s with ports := t.ports, tree := t.tree, insts := (s.zeroDeficits p).insts })

/-- After negotiation (R66, R68, R83, R217): recovery ends with `reset_chg` and the deficits at 0; an Express port that may no longer run so
sends the downshift set, though not before the first SOSF after a resume; a port disabled for babble is reset once in hardware enumeration.
The model's choices it rests on: log 127, 144. It states that these commands complete with their own effect: resetRecoveryEnd, downshift,
babbleAutoReset. -/
def Obligations.AfterReset : Prop :=
  (∀ (s : State) (p : PortNo), s.portLive p = true → (s.port p).st = .enabled → (s.port p).recovering = true → (s.port p).enumHw = false →
    (∀ y ∈ s.tree.procs, y.pos ≠ rootPos p) →
    ∃ t, exec (.resetRecoveryEnd p) s = .next t ∧ (t.port p).recovering = false ∧ (t.port p).st = .enabled ∧
      bitOf (t.port p).change 0 = true ∧ (∀ i, vget (t.inst i).deficit p = 0) ∧ (∀ q, q ≠ p → t.port q = s.port q) ∧
      t.bare = State.bare { s with ports := t.ports, insts := (s.zeroDeficits p).insts }) ∧
  (∀ (s : State) (p : PortNo), s.portLive p = true → s.wantsDown p = true → (s.port p).round = none → (s.port p).downshift = false →
    ((s.port p).sosfHold = .none →
      exec (.downshift p) s =
        .next { s.modPort p fun x => { x with downshift := true, downHold := false } with out := .drive p .downshift :: s.out }) ∧
    ((s.port p).sosfHold ≠ .none → exec (.downshift p) s = .next s)) ∧
  ∀ (s : State) (p : PortNo), s.alive = true → (s.port p).st = .disabled → (s.port p).disableCause = 1 → (s.port p).enumHw = true →
    (s.port p).babbleAgain = false → exec (.babbleAutoReset p) s = .next (s.startReset p).ended

/-- Suspend, resume and remote wake (R70 to R75): a pending suspend takes the port to SUSPENDING and 3 ms of idle to SUSPENDED, which sets
`suspend_chg`; a resume drives WAKE, LOW and the release, its first SOSF goes at a tick at least 100 µs later, at Express after the training
pattern, and its first token waits; a suspended port that answers a remote wake sets `wake_chg` and resumes. The model's choices it rests
on: log 140. It states that these commands complete with their own effect: suspendEnter, suspendIdleDone, resumeWakeEnd, resumeLowEnd,
firstTokenAfterResume, remoteWakeRecognised, remoteWakeResumeStart. -/
def Obligations.SuspendResume : Prop :=
  ∀ (s : State) (p : PortNo), s.portLive p = true →
    ((s.port p).st = .enabled → (s.port p).suspendPending = true → rootPos p ∉ s.tree.marks → s.marked p = [] →
      ∃ t, exec (.suspendEnter p) s = .next t ∧ (t.port p).st = .suspending ∧ (t.port p).suspendPending = false ∧
        (t.port p).suspAt = s.pl.subN ∧ (t.port p).speed = (s.port p).speed ∧ (t.port p).change = (s.port p).change) ∧
    ((s.port p).st = .suspending → (s.port p).resumeWanted = false →
      ∃ t, exec (.suspendIdleDone p) s = .next t ∧ (t.port p).st = .suspended ∧ bitOf (t.port p).change 5 = true ∧
        (t.port p).speed = (s.port p).speed ∧ (∀ q, q ≠ p → t.port q = s.port q) ∧ t.bare = State.bare { s with ports := t.ports }) ∧
    ((s.port p).st = .resuming → exec (.resumeWakeEnd p) s = .next { s with out := .drive p .low :: s.out }) ∧
    (∀ us : Nat, (s.port p).st = .resuming →
      ∃ t, exec (.resumeLowEnd ⟨p, us⟩) s = .next t ∧ (t.port p).st = .enabled ∧ (t.port p).tokenWait = true ∧
        (t.port p).sosfHold = (if us < 100 then .late else if (s.port p).speed = .express then .train else .plain) ∧
        (t.port p).downHold = t.wantsDown p ∧ (∀ i, vget (t.inst i).deficit p = 0) ∧
        (t.port p).speed = (s.port p).speed ∧ (t.port p).change = (s.port p).change ∧ (∀ q, q ≠ p → t.port q = s.port q) ∧
        .drive p .release ∈ t.out ∧ t.bare = State.bare { s with ports := t.ports, insts := (s.zeroDeficits p).insts }) ∧
    ((s.port p).st = .enabled → (s.port p).tokenWait = true →
      ∃ t, exec (.firstTokenAfterResume p) s = .next t ∧ t.ports = (s.modPort p fun x => { x with tokenWait := false }).ports ∧
        (∀ i, vget (t.inst i).deficit p = 0) ∧ t = { s with ports := t.ports, insts := (s.zeroDeficits p).insts }) ∧
    ((s.port p).st = .suspended → (s.port p).wakeEn = true → (s.port p).wakeSeen = false → s.pw.mode ≠ .standby →
      ∃ t, exec (.remoteWakeRecognised p) s = .next t ∧ (t.port p).wakeSeen = true ∧ bitOf (t.port p).change 4 = true ∧
        (t.port p).st = .suspended ∧ (∀ q, q ≠ p → t.port q = s.port q) ∧ t.bare = State.bare { s with ports := t.ports }) ∧
    ((s.port p).st = .suspended → (s.port p).wakeSeen = true →
      ∃ t, exec (.remoteWakeResumeStart p) s = .next t ∧ (t.port p).st = .resuming ∧ .drive p .wake ∈ t.out ∧
        bitOf (t.port p).change 5 = true ∧ (∀ q, q ≠ p → t.port q = s.port q) ∧ t.bare = State.bare { s with ports := t.ports })

/-- Port power (R76 to R79, R395): blanking ends in EMPTY; `ppwr_flt` is the pin's level, and an over-current outside the blanking time
removes power in every mode and leaves FAULTED with its trip counted, and a retry within `pwr_retry_max` powers the port again; the board
management controller's order powers a port off. The model's choices it rests on: log 122, 124, 128. It states that these commands complete
with their own effect: portBlankingEnd, portPowerFault, portPowerRetry, smbusPortOff. -/
def Obligations.PortPower : Prop :=
  (∀ (s : State) (p : PortNo), s.portLive p = true → (s.port p).st = .powering →
    ∃ t, exec (.portBlankingEnd p) s = .next t ∧ (t.port p).st = .empty ∧ (t.port p).ppwrEn = (s.port p).ppwrEn ∧
      (∀ q, q ≠ p → t.port q = s.port q) ∧ t.bare = State.bare { s with ports := t.ports }) ∧
  (∀ (s : State) (p : PortNo) (low : Bool), s.pw.mode ≠ .off → s.pw.mode ≠ .prime →
    low = false ∨ (s.port p).ppwrEn = false ∨ (s.port p).st = .powering ∨ (s.port p).st = .faulted →
    exec (.portPowerFault ⟨p, low⟩) s = .next (s.modPort p fun x => { x with ppwrFlt := low })) ∧
  (∀ (s : State) (p : PortNo), s.pw.mode ≠ .off → s.pw.mode ≠ .prime → (s.port p).ppwrEn = true → (s.port p).st ≠ .powering →
    (s.port p).st ≠ .faulted →
    ∃ t, exec (.portPowerFault ⟨p, true⟩) s = .next t ∧ (t.port p).st = .faulted ∧ (t.port p).ppwrEn = false ∧ (t.port p).ppwrFlt = true ∧
      (t.port p).faultTrips = satInc (s.port p).faultTrips ∧ (t.port p).speed = .none ∧ bitOf (t.port p).change 3 = true ∧
      .ppwrEn p false ∈ t.out) ∧
  (∀ (s : State) (p : PortNo), s.alive = true → (s.port p).st = .faulted → (s.port p).ppwrEn = false →
    (s.port p).pwrRetries.toNat < (s.port p).pwrRetryMax.toNat →
    ∃ t, exec (.portPowerRetry p) s = .next t ∧ (t.port p).st = .powering ∧ (t.port p).ppwrEn = true ∧
      (t.port p).ppwrFlt = (s.port p).ppwrFlt ∧
      (t.port p).pwrRetries = satInc (s.port p).pwrRetries ∧ .ppwrEn p true ∈ t.out ∧ (∀ q, q ≠ p → t.port q = s.port q) ∧
      t.bare = State.bare { s with ports := t.ports, trowels := t.trowels }) ∧
  ∀ (s : State) (p : PortNo), s.runs = true → (s.port p).st ≠ .held → s.egressHolds p = false → (s.port p).mgrHold = false →
    (s.port p).mgrPowered = false →
    exec (.smbusPortOff (BitVec.ofNat 8 p.val) false) s =
      .next ((((s.powerOrdered p).modPort p fun x => { x with mgrPowered := false }).powerOff p).modPw fun w =>
        { w with reqResult := 0 }).ended

/-! ### Orders to ports and hubs (R79, R82, R140 to R143, R254 to R257) -/

/-- PORT_CONTROL on a root port (R70, R72, R76, R79, R82, R141, R159, R255): POWER_ON, RESET, SUSPEND and a resume of a suspended port begin
and wait; POWER_OFF, DISABLE and a resume of a port that has not yet suspended are done at once; a state from which the order cannot be
reached, and a protected port, give CONFLICT. The model's choices it rests on: log 1, 30, 122. It states that these commands complete with
their own effect: portControlPowerOn, portControlPowerOff, portControlReset, portControlSuspend, portControlResume, portControlDisable. -/
def Obligations.PortOrders : Prop :=
  ∀ (s : State) (i : InstNo) (slot : BitVec 16) (e : CEntry) (p : PortNo), fld e 76 72 = p.val → s.pw.acted < 6 →
    (s.Ordered i slot 0x20 powerOnForm e → ceAction e = 1 →
      ((s.port p).st = .unpowered ∨ (s.port p).st = .faulted → s.holderFound p = true →
        let u := ((s.powerOrdered p).modPort p fun x => { x with mgrPowered := true }).powerOn p
        exec (.portControlPowerOn i ⟨slot, false⟩) s = .next (u.setPhase i slot .waiting).ended ∧
          (u.port p).st = .powering ∧ (u.port p).ppwrEn = true ∧ (u.port p).mgrPowered = true ∧ (u.port p).pwrRetries = 0 ∧
          (u.port p).bmcOffReq = false ∧ (∀ q, q ≠ p → u.port q = s.port q) ∧
          u.bare = State.bare { s with ports := u.ports, trowels := u.trowels }) ∧
      ((s.port p).st = .unpowered ∨ (s.port p).st = .faulted → s.holderFound p = false →
        exec (.portControlPowerOn i ⟨slot, false⟩) s = .next (s.replied i slot .noResources (s.port p).result))) ∧
    (s.Ordered i slot 0x20 (portForm 2) e → (s.port p).st ≠ .held →
      (s.egressHolds p = false →
        let u := (s.powerOrdered p).powerOff p
        exec (.portControlPowerOff i ⟨slot, false⟩) s = .next (u.replied i slot .cmdOk (u.port p).result) ∧
          (u.port p).st = .unpowered ∧ (u.port p).ppwrEn = false ∧ (u.port p).speed = .none ∧ (u.port p).round = none ∧
          (∀ q, q ≠ p → (u.port q).st = (s.port q).st ∧ (u.port q).ppwrEn = (s.port q).ppwrEn) ∧
          (∀ k, p ∉ (u.trowel k).holds) ∧ ((s.port p).ppwrEn = true → .ppwrEn p false ∈ u.out)) ∧
      (s.egressHolds p = true →
        exec (.portControlPowerOff i ⟨slot, false⟩) s = .next (s.replied i slot .conflict (s.port p).result))) ∧
    (s.Ordered i slot 0x20 (portForm 3) e →
      ((s.port p).st.resettable = true →
        let u := s.startReset p
        exec (.portControlReset i ⟨slot, false⟩) s = .next (u.setPhase i slot .waiting).ended ∧
          (u.port p).st = .resetting ∧ (u.port p).phase = .low ∧ (u.port p).speed = .none ∧ (u.port p).round = none ∧
          (u.port p).recovering = true ∧ .drive p .low ∈ u.out) ∧
      ((s.port p).st.resettable = false → (s.port p).st ≠ .resetting →
        exec (.portControlReset i ⟨slot, false⟩) s = .next (s.replied i slot .conflict (s.port p).result))) ∧
    (s.Ordered i slot 0x20 (portForm 4) e →
      ((s.port p).st = .enabled → s.egressHolds p = false → s.periodicIn' (rootPos p) = false →
        exec (.portControlSuspend i ⟨slot, false⟩) s =
          .next ((s.modPort p fun x => { x with suspendPending := true }).setPhase i slot .waiting).ended) ∧
      ((s.port p).st ≠ .enabled ∨ s.periodicIn' (rootPos p) = true →
        exec (.portControlSuspend i ⟨slot, false⟩) s = .next (s.replied i slot .conflict (s.port p).result))) ∧
    (s.Ordered i slot 0x20 (portForm 5) e → ∀ us : Nat,
      ((s.port p).st = .suspended →
        let u := s.startResume p
        exec (.portControlResume i ⟨slot, false⟩ us) s = .next (u.setPhase i slot .waiting).ended ∧
          (u.port p).st = .resuming ∧ .drive p .wake ∈ u.out ∧ u.bare = State.bare { s with ports := u.ports }) ∧
      ((s.port p).st = .suspending → us < 2500 →
        let u := s.backEnabled p
        exec (.portControlResume i ⟨slot, false⟩ us) s = .next (u.replied i slot .cmdOk (u.port p).result) ∧
          (u.port p).st = .enabled ∧ (u.port p).speed = (s.port p).speed ∧ (u.port p).change = (s.port p).change) ∧
      ((s.port p).st = .suspending → 2500 ≤ us →
        exec (.portControlResume i ⟨slot, false⟩ us) s =
          .next ((s.modPort p fun x => { x with resumeWanted := true }).setPhase i slot .waiting).ended)) ∧
    (s.Ordered i slot 0x20 (portForm 6) e → (s.port p).st = .enabled → s.egressHolds p = false →
      let u := s.disablePort p 2
      exec (.portControlDisable i ⟨slot, false⟩) s = .next (u.replied i slot .cmdOk (u.port p).result) ∧
        (u.port p).st = .disabled ∧ (u.port p).disableCause = 2 ∧ bitOf (u.port p).change 6 = true ∧
        ∀ q ∈ u.tree.marks, q.port ≠ p) ∧
    (let refused := Host.Outcome.next (s.replied i slot .conflict (s.port p).result)
     (s.Ordered i slot 0x20 powerOnForm e → ceAction e = 1 → exec (.portControlPowerOn i ⟨slot, true⟩) s = refused) ∧
     (s.Ordered i slot 0x20 (portForm 2) e → exec (.portControlPowerOff i ⟨slot, true⟩) s = refused) ∧
     (s.Ordered i slot 0x20 (portForm 3) e → exec (.portControlReset i ⟨slot, true⟩) s = refused) ∧
     (s.Ordered i slot 0x20 (portForm 4) e → exec (.portControlSuspend i ⟨slot, true⟩) s = refused) ∧
     (s.Ordered i slot 0x20 (portForm 5) e → ∀ us : Nat, exec (.portControlResume i ⟨slot, true⟩ us) s = refused) ∧
     (s.Ordered i slot 0x20 (portForm 6) e → exec (.portControlDisable i ⟨slot, true⟩) s = refused))

/-- Orders in the tree (R142, R143, R221, R255, R441): a device below a hub is reset, and a hub's ports suspended, resumed or powered, by
HPORT_ACT, whose transfer the command waits for; a tier-1 device is reset by its root port; power on a hub that has no power control of its
own ports is PARAM_INVALID; with the branch down in host-assisted mode the command is CONFLICT. The HPORT_ACT is one transfer to the hub
with `tgt` 0x10, the port and the action; the named ports are shown as moving until they have reached their new state, and a failed command
leaves them as they were (R136, R254); a contradicting order of higher rank in the same cycle makes it CONFLICT (R158). The model's choices
it rests on: log 37, 122. It states that these commands complete with their own effect: portControlDeviceReset, treePowerSuspend,
treePowerResume, treePowerPowerOff, treePowerPowerOn. -/
def Obligations.HubOrders : Prop :=
  (∀ (s : State) (i : InstNo) (slot : BitVec 16) (e : CEntry) (z : Nat) (d : DevRec), s.pw.acted < 6 →
    s.Ordered i slot 0x20 (fun e => bitOf e 68) e →
    (if i = 0 then (s.dev (fld e 91 80)).map fun d => (fld e 91 80, d) else s.devOf i (fld e 91 80)) = some (z, d) → d.st = .addressed →
      ceAction e = 3 →
    i = 0 ∨ d.hub = false → z ≠ 0 →
    (d.tier ≤ 1 → (s.port d.port).st.resettable = true → i = 0 ∨ (s.egressHolds d.port = false ∧ s.managerHolds d.port = false) →
      exec (.portControlDeviceReset i ⟨slot, false⟩) s = .next (((s.startReset d.port).seqServed i 0x20).setPhase i slot .waiting).ended) ∧
    (1 < d.tier → s.branchDown ⟨d.port, d.parent, 0⟩ = false → (s.port d.port).treeHw = false →
      (∀ x ∈ s.tree.procs, x.pos = d.pos → x.step ≠ 2) → ∀ h, s.dev d.parent = some h →
      let u := s.asking (.devReset i slot) d.pos 2 0 [] h.port d.parent h.tier h.ep0Max 0x62 0x10 d.phport 3 0
      exec (.portControlDeviceReset i ⟨slot, false⟩) s = .next ((u.seqServed i 0x20).setPhase i slot .waiting).ended) ∧
    (1 < d.tier → s.branchDown ⟨d.port, d.parent, 0⟩ = true → (s.port d.port).treeHw = false →
      exec (.portControlDeviceReset i ⟨slot, false⟩) s = .next ((s.seqServed i 0x20).replied i slot .conflict 0))) ∧
  (∀ (s : State) (i : InstNo) (slot : BitVec 16) (e : CEntry) (z : Nat) (d : DevRec), s.pw.acted < 6 →
    s.treeHub i e = some (z, d) →
    let hp := fld e 79 76
    let q : Pos := ⟨d.port, z, hp⟩
    (s.branchDown d.pos = false → (s.port d.port).treeHw = false →
      (s.Ordered i slot 0x21 (treeForm 1) e → s.periodicIn' q = false → s.egressProtects q = false →
        exec (.treePowerSuspend i ⟨slot, false⟩) s = .next (((s.treeAct (some (i, slot)) z hp 4).seqServed i 0x21).setPhase i slot .waiting).ended) ∧
      (∀ outranked : Bool, s.Ordered i slot 0x21 (treeForm 1) e → s.periodicIn' q = true ∨ outranked = true →
        exec (.treePowerSuspend i ⟨slot, outranked⟩) s = .next ((s.seqServed i 0x21).replied i slot .conflict 0)) ∧
      (s.Ordered i slot 0x21 (treeForm 2) e →
        exec (.treePowerResume i ⟨slot, false⟩) s = .next (((s.treeAct (some (i, slot)) z hp 5).seqServed i 0x21).setPhase i slot .waiting).ended) ∧
      (s.Ordered i slot 0x21 (treeForm 3) e → d.perPort = true → s.egressProtects q = false →
        exec (.treePowerPowerOff i ⟨slot, false⟩) s = .next (((s.treeAct (some (i, slot)) z hp 2).seqServed i 0x21).setPhase i slot .waiting).ended) ∧
      (s.Ordered i slot 0x21 (fun e => fld e 83 80 == 0 || 4 ≤ fld e 83 80) e → fld e 83 80 = 4 → d.perPort = true →
        exec (.treePowerPowerOn i ⟨slot, false⟩) s = .next (((s.treeAct (some (i, slot)) z hp 1).seqServed i 0x21).setPhase i slot .waiting).ended)) ∧
    (s.Ordered i slot 0x21 (treeForm 3) e → d.perPort = false →
      exec (.treePowerPowerOff i ⟨slot, false⟩) s = .next ((s.seqServed i 0x21).replied i slot .paramInvalid 0)) ∧
    (s.Ordered i slot 0x21 (treeForm 2) e → s.branchDown d.pos = true → (s.port d.port).treeHw = false →
      exec (.treePowerResume i ⟨slot, false⟩) s = .next ((s.seqServed i 0x21).replied i slot .conflict 0))) ∧
  ∀ (s : State) (cmd : Option (InstNo × BitVec 16)) (hub hport action : Nat) (d : DevRec), s.dev hub = some d →
    let named := if hport = 0 then (List.range d.hubPorts).map (· + 1) else [hport]
    let t := s.treeAct cmd hub hport action
    t.tree.procs = s.tree.procs ++ [⟨s.nextId, .treePower cmd action, ⟨d.port, hub, hport⟩, 1, 0, named.map fun p => (hub, p), false⟩] ∧
    (∃ x, t.tree.own = s.tree.own ++ [x] ∧ x.addr = hub ∧ x.port = d.port ∧ x.req = 0x62 ∧ x.tgt = 0x10 ∧ x.sel = hport ∧
      x.arg = action ∧ x.xlen = 0 ∧ x.proc = s.nextId ∧ x.stage = .setup ∧ x.result = none) ∧
    (∃ d', t.dev hub = some d' ∧ d' = { d with hports := d'.hports } ∧
      (∀ p ∈ named, kget d'.hports p = some { (kget d.hports p).getD {} with moving := true }) ∧
      ∀ p, p ∉ named → kget d'.hports p = kget d.hports p) ∧
    (∀ z, z ≠ hub → t.dev z = s.dev z) ∧
    t = { s with nextId := s.nextId + 2, tree := t.tree, devs := t.devs }

/-! ### Addresses and endpoints (R54, R138, R139, R150, R173, R174) -/

/-- Addressing (R97, R139, R148, R247): ADMIT_DEVICE reads the identity at address 0, behind a hub after HPORT_QUERY, and is BUSY while the
record at address 0 is held (R242); ASSIGN_ADDRESS sends ADDR_SET, and first reads the identity again where it re-addresses; RELEASE_DEVICE
frees a detached device's record, map entry and contexts; ASSIGN_DEVICE moves the owner and the map entry. The model's choices it rests on:
log 29, 42, 105. It states that these commands complete with their own effect: admitDevice, assignAddress, assignAddressReaddress,
releaseDevice, assignDevice. -/
def Obligations.Addressing : Prop :=
  ∀ (s : State) (i : InstNo) (slot : BitVec 16) (e : CEntry), s.pw.acted < 6 →
    (s.Ordered i slot 0x10 anyForm e → ∀ q, s.admitPos e = some q → q ∈ s.tree.marks →
      (s.record0Held = true → exec (.admitDevice i slot) s = .next (s.replied i slot .busy 0)) ∧
      (s.record0Held = false → (s.marked q.port).length ≤ 1 → (s.port q.port).enumHw = false → (s.port q.port).treeHw = false →
      s.branchDown q = false →
      (q.hub = 0 → exec (.admitDevice i slot) s =
        .next ((s.asking (.admission i slot) q 3 0 [] q.port 0 (s.posTier q) 8 0x51 0 0 0 8).setPhase i slot .waiting).ended) ∧
      (∀ h, q.hub ≠ 0 → s.dev q.hub = some h → exec (.admitDevice i slot) s =
        .next ((s.asking (.admission i slot) q 1 0 [] h.port q.hub h.tier h.ep0Max 0x61 0x10 q.hport 0 4).setPhase i slot
          .waiting).ended))) ∧
    (s.Ordered i slot 0x10 anyForm e → s.admitPos e = none → exec (.admitDevice i slot) s = .next (s.replied i slot .paramInvalid 0)) ∧
    (s.Ordered i slot 0x11 (fun e => !bitOf e 95) e → ∀ d, s.dev 0 = some d → fld e 83 72 ≠ 0 → d.port.val = fld e 68 64 →
      (s.dev (fld e 83 72) = none → (∀ x ∈ s.tree.procs, x.addr ≠ fld e 83 72) → (s.marked d.port).length ≤ 1 →
        (s.port d.port).enumHw = false → (s.port d.port).treeHw = false →
        s.branchDown d.pos = false →
        exec (.assignAddress i slot) s = .next ((s.asking (.assign i slot) d.pos 4 (fld e 83 72) (s.path d.pos) d.port 0 (s.posTier d.pos) 8
          0x58 0 0 (fld e 83 72) 0).setPhase i slot .waiting).ended) ∧
      ((s.dev (fld e 83 72)).isSome = true ∨ (∃ x ∈ s.tree.procs, x.addr = fld e 83 72) →
        exec (.assignAddress i slot) s = .next (s.replied i slot .paramInvalid 0))) ∧
    (s.Ordered i slot 0x11 (fun e => bitOf e 95) e → ∀ z d, z ≠ 0 →
      (if i = 0 then (s.dev (fld e 83 72)).map fun d => (fld e 83 72, d) else s.devOf i (fld e 83 72)) = some (z, d) →
      (d.awaiting = true → (s.marked d.port).length ≤ 1 → (s.port d.port).treeHw = false → s.branchDown d.pos = false →
        exec (.assignAddressReaddress i slot) s = .next (((s.asking (.readdress i slot) d.pos 3 z (s.path d.pos) d.port 0 (s.posTier d.pos) 8
          0x51 0 0 0 8).seqServed i 0x11).setPhase i slot .waiting).ended) ∧
      (d.awaiting = false → exec (.assignAddressReaddress i slot) s = .next ((s.seqServed i 0x11).replied i slot .paramInvalid 0))) ∧
    (s.Ordered i slot 0x18 anyForm e → ∀ d, fld e 75 64 ≠ 0 → s.dev (fld e 75 64) = some d →
      (d.st = .detached → ∃ u : State, exec (.releaseDevice i slot) s = .next (u.replied i slot .cmdOk 0) ∧
        u.devs = kdel s.devs (fld e 75 64) ∧
        (∀ k x, (k, x) ∈ s.eps → x.zone = fld e 75 64 → u.ep k = none) ∧
        (∀ k, (∀ x, (k, x) ∈ s.eps → x.zone ≠ fld e 75 64) → u.ep k = s.ep k) ∧
        u.insts = (s.modInst d.owner fun n => { n with devMap := n.devMap.filter fun y => y.2 != fld e 75 64 }).insts ∧
        u = { s with eps := u.eps, devs := u.devs, insts := u.insts, ports := u.ports, tree := u.tree, mem := u.mem }) ∧
      (d.st ≠ .detached → exec (.releaseDevice i slot) s = .next (s.replied i slot .conflict 0))) ∧
    (s.Ordered i slot 0x42 anyForm e → ∀ j d, s.instOf (fld e 69 64) = some j → fld e 83 72 ≠ 0 → s.dev (fld e 83 72) = some d →
      (j = 0 ↔ fld e 95 84 = 0) → d.st = .addressed →
      (d.owner = 0 → j ≠ 0 → kget (s.inst j).devMap (fld e 95 84) = none →
        (∀ k y, (k, y) ∈ s.eps → y.zone = fld e 83 72 → y.inst ≠ 0) →
        ∃ u : State, exec (.assignDevice i slot) s = .next (u.replied i slot .cmdOk 0) ∧
          u.dev (fld e 83 72) = some { d with owner := j } ∧ kget (u.inst j).devMap (fld e 95 84) = some (fld e 83 72) ∧
          (∀ z, z ≠ fld e 83 72 → u.dev z = s.dev z) ∧ u.bare = State.bare { s with devs := u.devs, insts := u.insts }) ∧
      ((∃ k y, (k, y) ∈ s.eps ∧ y.zone = fld e 83 72 ∧ y.inst = d.owner) →
        exec (.assignDevice i slot) s = .next (s.replied i slot .conflict 0)))

/-- OPEN_ENDPOINT (R101, R139, R165, R173): the context is written running, with its rings empty and its counts 0; a periodic endpoint is
booked at its cost, and one that cannot be booked is NO_RESOURCES; until the command's event is written it is still to open (R152); an
endpoint already open at the slot or at the device is CONFLICT. The model's choices it rests on: log 35, 36. It states that these commands
complete with their own effect: openEndpoint. -/
def Obligations.OpenEndpoint : Prop :=
  ∀ (s : State) (i : InstNo) (slot : BitVec 16) (e : CEntry) (z : Nat) (d : DevRec), s.Ordered i slot 0x12 anyForm e →
    s.devOf i (fld e 92 81) = some (z, d) → s.openOk i e d = true → fld e 80 64 < (s.inst i).epLimit →
    let k := (s.inst i).epBase + fld e 80 64
    let cost := (if bitOf e 100 then 27 else 38) + fld e 123 114 + turnCharge (s.port d.port).reckon d.tier
    let opened (x : Ep) : Prop :=
      x.inst = i ∧ x.zone = z ∧ x.epid = BitVec.ofNat 5 (fld e 100 96) ∧ x.interval = fld e 106 103 ∧ x.maxBlock = fld e 123 114 ∧
      x.trBase = BitVec.ofNat 64 (fld e 191 128) ∧ x.trSize = fld e 127 124 ∧ x.region = fld e 201 192 ∧ x.egressSafe = bitOf e 239 ∧
      x.evtRing.val = fld e 95 93 ∧ x.st = .running ∧ x.trHead = 0 ∧ x.trTail = 0 ∧ x.nextSeq = 0 ∧ x.expectSeq = 0 ∧ x.errCount = 0 ∧
      x.retryCount = 0 ∧ x.blocksDone = 0 ∧ x.bytesDone = 0 ∧ x.cur = none ∧ x.heldValid = false ∧ x.commitRef = 0 ∧
      x.opening = some slot ∧ x.newlyOpen = true
    (s.ep k = none → (∀ j x, (j, x) ∈ s.eps → x.zone = z → x.epid.toNat ≠ fld e 100 96) →
      (fld e 102 101 ≠ 1 → ∃ x, opened x ∧ x.svcCost = 0 ∧
        exec (.openEndpoint i slot) s = .next (((s.setEp k x).cacheIn k).replied i slot .cmdOk 0)) ∧
      (fld e 102 101 = 1 → s.branchSuspends d.pos = false → (s.port d.port).converting = false →
        (∀ q, s.book k i d.port cost (fld e 106 103) (fld e 217 202) = some q → ∃ x, opened x ∧ x.svcCost = cost ∧ x.phase = q ∧
          exec (.openEndpoint i slot) s = .next (((s.setEp k x).cacheIn k).replied i slot .cmdOk (cost + 65536 * q))) ∧
        (s.book k i d.port cost (fld e 106 103) (fld e 217 202) = none →
          exec (.openEndpoint i slot) s = .next (s.replied i slot .noResources 0)))) ∧
    ((s.ep k).isSome = true → exec (.openEndpoint i slot) s = .next (s.replied i slot .conflict 0))

/-- Booking (R173, R174): a schedule is booked only where the booked load with the new cost stays within the instance's reservation on the
port in every entry of the schedule, at the phase asked for or, where the phase is left to the controller, at one with the smallest largest
load. -/
def Obligations.Booking : Prop :=
  ∀ (s : State) (slot : Nat) (i : InstNo) (p : PortNo) (cost n phase q : Nat), s.book slot i p cost n phase = some q →
    let bs := s.bookings.filter fun b => b.slot != slot
    let v := (s.port p).reckon
    (∀ k, k < 256 → bookedAt v n q k = true → loadAt bs i p v k + cost ≤ vget (s.inst i).units p) ∧
    (phase ≠ 0xFFFF → q = phase) ∧
    (phase = 0xFFFF → q < 2 ^ min n 8 ∧ (v = .reach → q % 8 = 0) ∧
      ∀ r, r < 2 ^ min n 8 → (v = .reach → r % 8 = 0) → peakAt bs i p v n q ≤ peakAt bs i p v n r) ∧
    s.pinsFit (⟨slot, i, p, cost, n, q⟩ :: bs) = true

/-- Endpoint commands (R54, R139, R150, R156, R207): MODIFY_ENDPOINT changes the fields of its mask, a schedule at the frame boundary;
CLOSE_ENDPOINT frees the slot and tells the head; RESET_ENDPOINT and HALT_CLEAR clear both ends, by a clear-halt exchange but for endpoint
0; SET_DEQUEUE moves the head of a halted endpoint. The model's choices it rests on: log 34, 38, 39, 40. It states that these commands
complete with their own effect: modifyEndpoint, closeEndpoint, resetEndpoint, haltClear, setDequeue. -/
def Obligations.EndpointCommands : Prop :=
  ∀ (s : State) (i : InstNo) (slot : BitVec 16) (c : CEntry) (k : Nat) (e : Ep) (d : DevRec), s.pw.acted < 6 →
    s.epOf i (fld c 80 64) = some (k, e) → s.epDev e = some d →
    (s.Ordered i slot 0x13 anyForm c → (s.ring i e.evtRing).enable = true → blockOk e.kind.ctorIdx d.ep0Max e.maxBlock = true →
      bitOf c 85 = false → bitOf c 86 = false → bitOf c 87 = false → masked c 83 (fld c 109 107) e.errThreshold ≠ 0 →
      s.atBoundary k = true →
      let x := { e with
        errThreshold := masked c 83 (fld c 109 107) e.errThreshold, retryLimit := masked c 84 (fld c 113 110) e.retryLimit
        egressSafe := if bitOf c 88 then bitOf c 239 else e.egressSafe }
      (bitOf c 81 = false → bitOf c 82 = false →
        exec (.modifyEndpoint i slot) s = .next (((s.touch k).setEp k x).replied i slot .cmdOk 0)) ∧
      (bitOf c 81 = true → bitOf c 82 = true → e.kind = .periodic → (s.port d.port).converting = false →
        schedOk 1 (fld c 106 103) (fld c 217 202) ((s.port d.port).reckon == .reach) = true →
        ∀ q, s.book k i d.port (svcCost (s.port d.port).reckon d.tier e.maxBlock e.inward) (fld c 106 103) (fld c 217 202) = some q →
          exec (.modifyEndpoint i slot) s = .next (((s.touch k).setEp k { x with
            svcCost := svcCost (s.port d.port).reckon d.tier e.maxBlock e.inward
            newSched := some (fld c 106 103, q) }).replied i slot .cmdOk 0))) ∧
    (s.Ordered i slot 0x14 anyForm c →
      (s.armedOn k = true → exec (.closeEndpoint i slot) s = .next (s.replied i slot .conflict 0)) ∧
      (s.armedOn k = false → s.midWait (.ep k) = false → e.cur = none ∨ s.canWrite i = true →
        ∃ u : State, exec (.closeEndpoint i slot) s =
            .next (u.replied i slot .cmdOk (if e.cur.isSome then e.advance.trHead.toNat else e.trHead.toNat)) ∧
          u.ep k = none ∧ (∀ j, j ≠ k → (u.ep j).isSome = (s.ep j).isSome) ∧ k ∉ u.mem.cache ∧ ∀ y ∈ u.deliveries, y.ep ≠ k)) ∧
    (s.Ordered i slot 0x15 anyForm c → e.st = .running ∨ e.st = .halted →
      let v := ((s.touch k).stopEp k .stopped).endSlot k .stopped
      (e.kind = .control → s.midWait (.ep k) = false →
        exec (.resetEndpoint i slot) s =
            .next ((v.modEp k fun e => { e.clear with st := .running, recovering := false }).replied i slot .cmdOk 0) ∧
          ∃ x, v.ep k = some x ∧ x.cur = none ∧
            (e.cur = none ∨ s.canWrite i = true → x.trHead = if e.cur.isSome then e.advance.trHead else e.trHead)) ∧
      (e.kind ≠ .control → (s.port d.port).treeHw = false →
        (s.branchDown d.pos = false → s.midWait (.ep k) = false → exec (.resetEndpoint i slot) s = .next ((v.asking (.unhaltCmd i slot k)
          d.pos 0 0 [] d.port e.zone d.tier d.ep0Max 0x5C 0x20 e.epid.toNat 0 0).setPhase i slot .waiting).ended) ∧
        (s.branchDown d.pos = true → exec (.resetEndpoint i slot) s = .next (s.replied i slot .conflict 0)))) ∧
    (s.Ordered i slot 0x16 anyForm c →
      (e.st = .running → exec (.haltClear i slot) s = .next (s.replied i slot .cmdOk 0)) ∧
      (e.st = .halted → e.kind = .control → exec (.haltClear i slot) s =
        .next (((s.touch k).modEp k fun e => { e.clear with st := .running, recovering := false }).replied i slot .cmdOk 0)) ∧
      (e.st = .halted → e.kind ≠ .control → (s.port d.port).treeHw = false → s.branchDown d.pos = false →
        exec (.haltClear i slot) s = .next (((s.touch k).asking (.unhaltCmd i slot k) d.pos 0 0 [] d.port e.zone d.tier d.ep0Max 0x5C 0x20
          e.epid.toNat 0 0).setPhase i slot .waiting).ended) ∧
      (e.st = .detached ∨ e.st = .stopped → exec (.haltClear i slot) s = .next (s.replied i slot .conflict 0))) ∧
    (s.Ordered i slot 0x17 anyForm c → e.trHead.toNat < e.ringSize → e.trTail.toNat < e.ringSize → fld c 111 96 < e.ringSize →
      let ahead (x : Nat) : Nat := (x + e.ringSize - e.trHead.toNat) % e.ringSize
      (e.st = .halted → e.cur = none → ahead (fld c 111 96) ≤ ahead e.trTail.toNat → exec (.setDequeue i slot) s =
        .next (((s.touch k).modEp k fun e => { e with trHead := BitVec.ofNat 16 (fld c 111 96) }).replied i slot .cmdOk 0)) ∧
      (ahead e.trTail.toNat < ahead (fld c 111 96) → exec (.setDequeue i slot) s = .next (s.replied i slot .paramInvalid 0)) ∧
      (e.st ≠ .halted → ahead (fld c 111 96) ≤ ahead e.trTail.toNat → exec (.setDequeue i slot) s = .next (s.replied i slot .conflict 0)))

/-! ### Stencil programs, gates, commits (R144, R145, R189 to R191, R283, R299 to R301) -/

/-- STENCIL_LOAD (R145, R283): the words are read from host memory and, once they have come, stand in the stencil store of the issuer; bytes
that a channel not IDLE executes from make it BUSY. The model's choices it rests on: log 25. It states that these commands complete with
their own effect: stencilLoad, commandHostReadComplete. -/
def Obligations.StencilLoad : Prop :=
  (∀ (s : State) (i : InstNo) (slot : BitVec 16) (e : CEntry), s.Ordered i slot 0x30 anyForm e →
    0 < fld e 95 80 → fld e 79 64 % 8 = 0 → fld e 79 64 + 8 * fld e 95 80 ≤ 1024 * (s.inst i).stSize →
    let lo := 1024 * (s.inst i).stBase + fld e 79 64
    ((∀ c a b, s.progRange c = some (a, b) → lo + 8 * fld e 95 80 ≤ a ∨ b ≤ lo) →
      ∃ t, exec (.stencilLoad i slot) s = .next t ∧ (t.cmd i slot).map (·.phase) = some .waiting ∧
        .hostRead i (fld e 191 128) (8 * fld e 95 80) ∈ t.out ∧ t.bare = (s.seqServed i 0x30).bare) ∧
    (∀ c a b, s.progRange c = some (a, b) → a < lo + 8 * fld e 95 80 → lo < b →
      exec (.stencilLoad i slot) s = .next ((s.seqServed i 0x30).replied i slot .busy 0))) ∧
  ∀ (s : State) (i : InstNo) (slot : BitVec 16) (c : Cmd) (data : List Byte), s.cmd i slot = some c → ceOp c.entry = 0x30 →
    c.phase = .waiting → s.runs = true → (s.inst i).halted = false → data.length = 8 * fld c.entry 95 80 →
    let u := s.storeWrite (1024 * (s.inst i).stBase + fld c.entry 79 64) data
    exec (.commandHostReadComplete i slot data) s = .next (u.replied i slot .cmdOk 0) ∧
    (∀ k, k < data.length → memRead u.mem.store (1024 * (s.inst i).stBase + fld c.entry 79 64 + k) = data.getD k 0) ∧
    (∀ a, a < 1024 * (s.inst i).stBase + fld c.entry 79 64 ∨ 1024 * (s.inst i).stBase + fld c.entry 79 64 + data.length ≤ a →
      memRead u.mem.store a = memRead s.mem.store a) ∧
    u = { s with mem := { s.mem with store := u.mem.store } }

/-- Gates (R145, R289, R299 to R301): GATE_CREATE takes a FREE gate, counting, with the item of its task reserved, within the quotas;
GATE_CANCEL frees it, withdraws the task that is not in service, and ends an armed commit with CANCELLED; the decrements of its own cycle
have no further effect (R302): each of them finds the gate cancelled and is counted, with no stray and no fault. The model's choices it
rests on: log 17, 122. It states that these commands complete with their own effect: gateCreate, gateCancel. -/
def Obligations.Gates : Prop :=
  ∀ (s : State) (i : InstNo) (slot : BitVec 16) (e : CEntry),
    (s.Ordered i slot 0x31 anyForm e → fld e 79 64 ≠ 0 → s.gatesHeld i < (s.inst i).gateQuota → ∀ g, kfree s.disp.gates 4096 = some g →
      (bitOf e 80 = false → exec (.gateCreate i slot) s = .next ((s.modDisp fun d =>
        { d with gates := kset d.gates g ⟨i, BitVec.ofNat 16 (fld e 79 64), none⟩ }).replied i slot .cmdOk g)) ∧
      (bitOf e 80 = true → ∀ gr : GroupNo, gr.val = fld e 84 81 → (s.group gr).owner = i → s.itemRoom i = true →
        ∃ u x, exec (.gateCreate i slot) s = .next (State.replied u i slot .cmdOk g) ∧
          kget u.disp.gates g =
            some ⟨i, BitVec.ofNat 16 (fld e 79 64), some ⟨gr, BitVec.ofNat 20 (fld e 104 85), BitVec.ofNat 64 (fld e 191 128), s.freeItem⟩⟩ ∧
          kget u.disp.items s.freeItem = some x ∧ x.owner = i ∧ x.group = gr ∧ x.src = 2 ∧ x.st = .reserved ∧
          (∀ k, k ≠ s.freeItem → kget u.disp.items k = kget s.disp.items k) ∧
          (∀ k, k ≠ g → kget u.disp.gates k = kget s.disp.gates k) ∧
          u = { s with disp := { s.disp with items := u.disp.items, gates := u.disp.gates, gens := u.disp.gens } })) ∧
    (s.Ordered i slot 0x31 anyForm e → fld e 79 64 ≠ 0 → bitOf e 80 = false → (s.inst i).gateQuota ≤ s.gatesHeld i →
      exec (.gateCreate i slot) s = .next (s.replied i slot .noResources 0)) ∧
    (s.Ordered i slot 0x32 anyForm e → ∀ x, kget s.disp.gates (fld e 75 64) = some x →
      (x.owner = i → x.task = none → s.disp.trace.enable = false →
        (∀ k c, (k, c) ∈ s.commits → c.gate = fld e 75 64 → c.phase ≠ .armed) →
        ∀ decs : Nat, ∃ u : State, exec (.gateCancel i ⟨slot, decs⟩) s = .next (u.replied i slot .cmdOk 0) ∧
          kget u.disp.gates (fld e 75 64) = none ∧
          (∀ k, k ≠ fld e 75 64 → kget u.disp.gates k = kget s.disp.gates k) ∧ u.disp.items = s.disp.items ∧ u.commits = s.commits ∧
          (u.disp.absorb.filter (· == fld e 75 64)).length = decs) ∧
      (∀ decs : Nat, x.owner ≠ i → exec (.gateCancel i ⟨slot, decs⟩) s = .next (s.replied i slot .paramInvalid 0))) ∧
    ∀ (g : Nat) (c : Option Nat), g ∈ s.disp.absorb →
      s.gateDec i g c = ({ s with disp := { s.disp with absorb := s.disp.absorb.erase g } } : State).count
        { cls := 0x13, inst := some i, chan := c }

/-- COMMIT_ARM (R145, R189 to R191): its own parameters are checked and its slot list is read; a list whose endpoints are suitable, not
bound and not repeated binds them to the release subframe with one event slot reserved; a list with a bad entry is malformed work. The
model's choices it rests on: log 41. It states that these commands complete with their own effect: commitArm, commandHostReadComplete. -/
def Obligations.Commits : Prop :=
  (∀ (s : State) (i : InstNo) (slot : BitVec 16) (e : CEntry), s.Ordered i slot 0x33 anyForm e →
    (s.armOk i e = true → ∃ t, exec (.commitArm i slot) s = .next t ∧ (t.cmd i slot).map (·.phase) = some .waiting ∧
      .hostRead i (fld e 191 128) (8 * fld e 205 192) ∈ t.out ∧ t.bare = s.bare) ∧
    (s.armOk i e = false → exec (.commitArm i slot) s = .next (s.replied i slot .paramInvalid 0))) ∧
  (∀ (s : State) (i : InstNo) (slot : BitVec 16) (c : Cmd) (data : List Byte) (code : Nat), s.cmd i slot = some c → ceOp c.entry = 0x33 →
    c.phase = .waiting → s.runs = true → (s.inst i).halted = false → i ≠ 0 → data.length = 8 * fld c.entry 205 192 →
    (slotList data (fld c.entry 205 192)).findSome? (s.listBad i) = some code →
    ∃ t, exec (.commandHostReadComplete i slot data) s = .next t ∧ (t.inst i).halted = true ∧ (t.inst i).malCode = BitVec.ofNat 8 code ∧
      (t.inst i).badIndex = slot ∧ t.commits = s.commits) ∧
  ∀ (s : State) (i : InstNo) (e : CEntry) (data : List Byte) (num : Nat),
    let l := slotList data (fld e 205 192)
    let k (x : ListEntry) : Nat := (s.inst i).epBase + x.ep
    s.armOk i e = true → (∀ x ∈ l, s.suits i (s.release e).1 x = true ∧ s.armedOn (k x) = false) → (l.map (·.ep)).Nodup →
    (s.commits.filter fun c => c.2.phase == .armed).length < 256 → (s.ring i (armRing e)).hasCredit = true →
    kfree s.commits 256 = some num →
    let r := s.bindCommit i e data
    r.2 = (.cmdOk, num) ∧
    (∃ c, kget r.1.commits num = some c ∧ c.inst = i ∧ c.gate = fld e 110 99 ∧ c.ring = armRing e ∧ c.subN = (s.release e).1 ∧
      c.phase = .armed ∧ c.slots.map (·.ep) = l.map k ∧ ∀ x ∈ c.slots, x.sent = false ∧ x.answered = false ∧ x.ended = none) ∧
    (∀ m, m ≠ num → kget r.1.commits m = kget s.commits m) ∧
    (∀ j, (r.1.ep j).map (fun y => { y with commitRef := 0 }) = (s.ep j).map fun y => { y with commitRef := 0 }) ∧
    r.1.bare = State.bare { s with commits := r.1.commits, eps := r.1.eps }

/-! ### Shares, the split, and the manager's device-wide commands (R19, R20, R145 to R148, R226, R316, R331 to R336, R350, R364 to R388) -/

/-- Shares (R145 to R148, R226, R316, R350): SET_SHARE, SET_RESERVATION and HAWK_QUOTA give an instance what no other holds, within the
device, and never less than it uses; COUNTER_GRANT sets what an instance may read; nothing of any other instance changes. The model's
choices it rests on: log 43, 149. It states that these commands complete with their own effect: setShare, setReservation, hawkQuota,
counterGrantManager, counterGrantTenant. -/
def Obligations.Shares : Prop :=
  ∀ (s : State) (i : InstNo) (slot : BitVec 16) (e : CEntry) (j : InstNo), s.instOf (fld e 69 64) = some j →
    let others := allInsts.filter (· != j)
    (s.Ordered i slot 0x40 anyForm e → 1 ≤ fld e 79 70 → fld e 79 70 ≤ 1000 → fld e 96 80 + fld e 113 97 ≤ 131072 → fld e 142 128 ≤ 16384 →
      (64 < fld e 149 144 + fld e 156 150 →
        (∀ k ∈ others, meetRange (fld e 96 80) (fld e 113 97) (s.inst k).epBase (s.inst k).epLimit = false ∧
          meetRange (fld e 149 144) (fld e 156 150) (s.inst k).stBase (s.inst k).stSize = false) →
        exec (.setShare i slot) s = .next (s.replied i slot .noResources 0)) ∧
      (fld e 149 144 + fld e 156 150 ≤ 64 →
        (∀ k ∈ others, meetRange (fld e 96 80) (fld e 113 97) (s.inst k).epBase (s.inst k).epLimit = false ∧
          meetRange (fld e 149 144) (fld e 156 150) (s.inst k).stBase (s.inst k).stSize = false) →
        (others.map fun k => (s.inst k).gateQuota).sum + fld e 125 114 ≤ 4096 →
        (others.map fun k => (s.inst k).flowQuota).sum + fld e 142 128 ≤ 16384 →
        (s.openOf j = [] ∨ fld e 96 80 = (s.inst j).epBase) → (∀ x ∈ s.openOf j, x < fld e 113 97) → s.gatesHeld j ≤ fld e 125 114 →
        s.itemsHeld j ≤ fld e 142 128 → s.progsInside j (fld e 149 144) (fld e 156 150) = true →
        ∃ u : State, exec (.setShare i slot) s = .next (u.replied i slot .cmdOk 0) ∧
          u.inst j = { s.inst j with
            weight := fld e 79 70, epBase := fld e 96 80, epLimit := fld e 113 97, gateQuota := fld e 125 114, flowQuota := fld e 142 128
            stBase := fld e 149 144, stSize := fld e 156 150, deficit := (u.inst j).deficit } ∧
          (∀ p, vget (u.inst j).deficit p = min (vget (s.inst j).deficit p) (fld e 79 70)) ∧ (∀ k, k ≠ j → u.inst k = s.inst k) ∧
          (∀ a, memRead u.mem.store a =
            if (1024 * fld e 149 144 ≤ a ∧ a < 1024 * (fld e 149 144 + fld e 156 150)) ∧
                ¬(1024 * (s.inst j).stBase ≤ a ∧ a < 1024 * ((s.inst j).stBase + (s.inst j).stSize)) then 0
            else memRead s.mem.store a) ∧
          u = { s with insts := u.insts, mem := { s.mem with store := u.mem.store } }) ∧
      (∀ k ∈ others, meetRange (fld e 96 80) (fld e 113 97) (s.inst k).epBase (s.inst k).epLimit = true →
        exec (.setShare i slot) s = .next (s.replied i slot .conflict 0))) ∧
    (s.Ordered i slot 0x41 anyForm e → ∀ p : PortNo, p.val = fld e 74 70 → (s.port p).converting = false →
      (periodicLimit (s.port p).reckon < (others.map fun k => vget (s.inst k).units p).sum + fld e 95 80 →
        exec (.setReservation i slot) s = .next (s.replied i slot .noResources 0)) ∧
      ((others.map fun k => vget (s.inst k).units p).sum + fld e 95 80 ≤ periodicLimit (s.port p).reckon →
        (s.bookedPeak j p ≤ fld e 95 80 → exec (.setReservation i slot) s =
          .next ((s.modInst j fun n => { n with units := vset n.units p (fld e 95 80) }).replied i slot .cmdOk 0)) ∧
        (fld e 95 80 < s.bookedPeak j p → exec (.setReservation i slot) s = .next (s.replied i slot .shareBelowReserved 0)))) ∧
    (s.Ordered i slot 0x43 anyForm e → fld e 95 80 ≤ 32768 → fld e 106 96 ≤ 1024 →
      (others.map fun k => (s.inst k).unitMap.length).sum + fld e 95 80 ≤ 32768 →
      (others.map fun k => (s.inst k).regionQuota).sum + fld e 106 96 ≤ 1024 → (s.inst j).carved ≤ fld e 95 80 →
      (s.inst j).highRegion ≤ fld e 106 96 →
      ∃ u : State, exec (.hawkQuota i slot) s = .next (u.replied i slot .cmdOk 0) ∧
        (u.inst j).unitMap.length = fld e 95 80 ∧
        u.inst j = { s.inst j with
          unitMap := (u.inst j).unitMap, regionQuota := fld e 106 96
          regions := (s.inst j).regions.filter fun r => decide (r.1 < fld e 106 96) } ∧
        (∀ x, x < (s.inst j).unitMap.length → x < fld e 95 80 → (u.inst j).unitMap[x]? = (s.inst j).unitMap[x]?) ∧
        (∀ k, k ≠ j → u.inst k = s.inst k) ∧
        (∀ a, memRead u.mem.hawk a = if a / 512 ∈ (s.inst j).unitMap.drop (fld e 95 80) then 0 else memRead s.mem.hawk a) ∧
        u = { s with insts := u.insts, mem := { s.mem with hawk := u.mem.hawk } }) ∧
    (s.Ordered 0 slot 0x34 anyForm e →
      (bitOf e 74 = true → exec (.counterGrantManager 0 slot) s =
        .next ((s.modInst j fun n => { n with allowed := n.allowed ||| BitVec.ofNat 4 (fld e 73 70) }).replied 0 slot .cmdOk 0)) ∧
      (bitOf e 74 = false → exec (.counterGrantManager 0 slot) s = .next ((s.modInst j fun n =>
        { n with allowed := n.allowed &&& ~~~BitVec.ofNat 4 (fld e 73 70)
                 userRead := n.userRead &&& ~~~BitVec.ofNat 4 (fld e 73 70) }).replied 0 slot .cmdOk 0))) ∧
    (s.Ordered i slot 0x34 (fun e => i != 0 || fld e 69 64 == 0) e →
      (BitVec.ofNat 4 (fld e 73 70) &&& ~~~(s.inst i).allowed = 0 → fld e 69 64 = 0 →
        exec (.counterGrantTenant i slot) s = .next (((s.modInst i fun n => { n with
          userRead := if bitOf e 74 then n.userRead ||| BitVec.ofNat 4 (fld e 73 70)
            else n.userRead &&& ~~~BitVec.ofNat 4 (fld e 73 70) }).seqServed i 0x34).replied i slot .cmdOk 0)) ∧
      (BitVec.ofNat 4 (fld e 73 70) &&& ~~~(s.inst i).allowed ≠ 0 →
        exec (.counterGrantTenant i slot) s = .next ((s.seqServed i 0x34).replied i slot .notPermitted 0)))

/-- The split (R19, R20, R148, R258): a SET_SPLIT waits for the frame boundary, replacing one for the same function and port that has not
fallen due; when it is due the function's mode is the one ordered, and in hardware enumeration the port has its pool. The model's choices it
rests on: log 102. It states that these commands complete with their own effect: setSplit, setSplitTakeEffect. -/
def Obligations.SplitModes : Prop :=
  (∀ (s : State) (i : InstNo) (slot : BitVec 16) (e : CEntry) (f : SplitFn), s.Ordered i slot 0x4A anyForm e →
    splitFn (fld e 66 64) = some f →
    let x (p : Option PortNo) : Split :=
      { fn := f, port := p, hw := bitOf e 67, recoverMs := BitVec.ofNat 8 (fld e 87 80), poolFirst := fld e 107 96
        poolLast := fld e 119 108, due := false }
    (s.splitOk f e = true → f.wide = true →
      exec (.setSplit i slot) s =
        .next ((s.modPl fun l => { l with splits := putSplit l.splits (x none) }).replied i slot .cmdOk 0)) ∧
    (s.splitOk f e = true → f.wide = false → bitOf e 68 = false → ∀ p : PortNo, p.val = fld e 73 69 →
      exec (.setSplit i slot) s =
        .next ((s.modPl fun l => { l with splits := putSplit l.splits (x (some p)) }).replied i slot .cmdOk 0)) ∧
    (s.splitOk f e = true → f.wide = false → bitOf e 68 = true →
      exec (.setSplit i slot) s = .next ((s.modPl fun l =>
        { l with splits := allPorts.foldl (fun a p => putSplit a (x (some p))) l.splits }).replied i slot .cmdOk 0)) ∧
    (s.splitOk f e = false → exec (.setSplit i slot) s = .next (s.replied i slot .paramInvalid 0))) ∧
  ∀ (s : State) (x : Split), s.alive = true → s.pl.splits.filter (·.due) = [x] →
    ∃ t, exec .setSplitTakeEffect s = .next t ∧ t.pl.splits = s.pl.splits.filter (fun y => !y.due) ∧
      (x.fn = .schedule → t.bare = State.bare { s with pl := { s.pl with splits := t.pl.splits, periodicHw := x.hw } }) ∧
      (x.fn = .recovery → t.bare = State.bare { s with pl := { s.pl with
        splits := t.pl.splits, recoverHw := x.hw, recoverMs := if x.hw then x.recoverMs else s.pl.recoverMs } }) ∧
      (∀ p, x.port = some p → x.fn = .enumeration → (t.port p).enumHw = x.hw ∧
        (x.hw = true → (t.port p).poolFirst = x.poolFirst ∧ (t.port p).poolLast = x.poolLast) ∧
        (x.hw = false → (s.port p).enumHw = true → ∀ w ∈ t.tree.waiting, w.pos.port ≠ p)) ∧
      (∀ p, x.port = some p → x.fn = .hubManagement → (t.port p).hubHw = x.hw) ∧
      (∀ p, x.port = some p → x.fn = .treePower → (t.port p).treeHw = x.hw)

/-- EGRESS_PROGRAM and FIRMWARE_STAGE (R148, R364, R365, R370, R381): a program replaces the one in force with the ports that it names, and
not while EGRESS_N is asserted; an image is accepted under R365 and written to the slot that is not active, and a staged slot is activated
by naming it for trial. The model's choices it rests on: log 70. It states that these commands complete with their own effect:
egressProgram, commandHostReadComplete, firmwareStage, flashWriteComplete, firmwareActivate, firmwareDiscard. -/
def Obligations.DeviceCommands : Prop :=
  (∀ (s : State) (i : InstNo) (slot : BitVec 16) (e : CEntry), s.Ordered i slot 0x4B anyForm e → fld e 205 192 ≠ 0 →
    (s.pw.egress = false → ∃ t, exec (.egressProgram i slot) s = .next t ∧ (t.cmd i slot).map (·.phase) = some .waiting ∧
      .hostRead i (fld e 191 128) (32 * fld e 205 192) ∈ t.out ∧ t.bare = s.bare) ∧
    (s.pw.egress = true → exec (.egressProgram i slot) s = .next (s.replied i slot .conflict 0))) ∧
  (∀ (s : State) (i : InstNo) (slot : BitVec 16) (c : Cmd) (data : List Byte), s.cmd i slot = some c → ceOp c.entry = 0x4B →
    c.phase = .waiting → s.runs = true → (s.inst i).halted = false → data.length = 32 * fld c.entry 205 192 → s.pw.egress = false →
    (∀ l, egrProgram data (fld c.entry 205 192) = some l →
      ∃ u : State, exec (.commandHostReadComplete i slot data) s = .next (u.replied i slot .cmdOk 0) ∧
        (∀ p, u.port p = { s.port p with egressPort := l.any fun y => y.port == p }) ∧
        u = { s with ports := u.ports, pw := { s.pw with egressProg := l } }) ∧
    (egrProgram data (fld c.entry 205 192) = none →
      exec (.commandHostReadComplete i slot data) s = .next (s.replied i slot .paramInvalid 0))) ∧
  (∀ (s : State) (i : InstNo) (slot : BitVec 16) (e : CEntry), s.Ordered i slot 0x4C (fun e => fld e 65 64 < 2) e → fld e 65 64 = 1 →
    (fld e 223 192 = 0 → exec (.firmwareStage i slot) s = .next (s.replied i slot .paramInvalid 0)) ∧
    (fld e 223 192 ≠ 0 → s.boot.staging = none → ∃ t, exec (.firmwareStage i slot) s = .next t ∧
      (t.cmd i slot).map (·.phase) = some .waiting ∧
      .hostRead i (fld e 191 128) (fld e 223 192) ∈ t.out ∧ t.bare = s.bare) ∧
    (fld e 223 192 ≠ 0 → s.boot.staging.isSome = true → exec (.firmwareStage i slot) s = .next (s.replied i slot .busy 0))) ∧
  (∀ (s : State) (i : InstNo) (slot : BitVec 16) (c : Cmd) (img : List Byte), s.cmd i slot = some c → ceOp c.entry = 0x4C →
    c.phase = .waiting → s.runs = true → (s.inst i).halted = false → img.length = fld c.entry 223 192 → s.boot.staging = none →
    (fwRefusal img s.pw.minSvn = none →
      ∃ t, exec (.commandHostReadComplete i slot img) s = .next t ∧
        .flash (if s.boot.dir.active then 0x10000 else 0x210000) img ∈ t.out ∧
        t.bare = State.bare { s with boot := { s.boot with
          staged := none, staging := some (some slot, !s.boot.dir.active, BitVec.ofNat 6 (numAt img 0xC 2)) } }) ∧
    ((fwRefusal img s.pw.minSvn).isSome = true → ∃ u : State,
      exec (.commandHostReadComplete i slot img) s = .next (u.replied i slot .paramInvalid 0) ∧
        u = { s with freeIx := u.freeIx, snag := u.snag })) ∧
  (∀ (s : State) (c : BitVec 16) (k : Bool) (v : BitVec 6), s.runs = true → s.boot.staging = some (some c, k, v) →
    (∃ u : State, exec (.flashWriteComplete true) s = .next (u.replied 0 c .cmdOk 0) ∧
      u = { s with freeIx := u.freeIx, snag := u.snag, boot := { s.boot with staging := none, staged := some (k, v, false) } }) ∧
    ∃ (u : State) (st : Status), exec (.flashWriteComplete false) s = .next (u.replied 0 c st 0) ∧ st ≠ .cmdOk ∧
      u = { s with freeIx := u.freeIx, snag := u.snag, boot := { s.boot with staging := none, staged := none } }) ∧
  ∀ (s : State) (i : InstNo) (slot : BitVec 16) (e : CEntry) (k : Bool) (v : BitVec 6) (act : Bool), s.boot.staged = some (k, v, act) →
    (s.Ordered i slot 0x4C (stageForm 2) e → ∃ u : State, exec (.firmwareActivate i slot) s = .next (u.replied i slot .cmdOk 0) ∧
      u.boot.dir.valid = true ∧ u.boot.dir.active = s.boot.dir.active ∧ u.boot.dir.trial = some k ∧ u.boot.staged = some (k, v, true) ∧
      u = { s with out := u.out, freeIx := u.freeIx, snag := u.snag, boot := { s.boot with
        dir0 := u.boot.dir0, dir1 := u.boot.dir1, staged := u.boot.staged } }) ∧
    (s.Ordered i slot 0x4C (stageForm 3) e → ∃ u : State, exec (.firmwareDiscard i slot) s = .next (u.replied i slot .cmdOk 0) ∧
      u.boot.dir.valid = true ∧ u.boot.dir.active = s.boot.dir.active ∧ u.boot.dir.trial = none ∧ u.boot.staged = none ∧
      u = { s with out := u.out, freeIx := u.freeIx, snag := u.snag, boot := { s.boot with
        dir0 := u.boot.dir0, dir1 := u.boot.dir1, staged := none } })

/-- LIFECYCLE (R148, R384 to R389): a transition that is not in the table is PARAM_INVALID; one that needs no record takes the controller
through PRIME in its new state; one that needs a record reads it, and changes nothing but the attempts left where it is refused. The model's
choices it rests on: log 8, 71. It states that these commands complete with their own effect: lifecycle, commandHostReadComplete. -/
def Obligations.ProductLife : Prop :=
  (∀ (s : State) (i : InstNo) (slot : BitVec 16) (e : CEntry) (b : LcState), s.Ordered i slot 0x4D anyForm e →
    lcTarget (fld e 67 64) = some b →
    (lcRecord s.pw.lcState b (fld e 207 192 == 0) = none → exec (.lifecycle i slot) s = .next (s.replied i slot .paramInvalid 0)) ∧
    (lcRecord s.pw.lcState b (fld e 207 192 == 0) = some 0 → s.pw.perst = false → s.pw.aonValid = true → s.pw.mainValid = true →
      ∃ t, exec (.lifecycle i slot) s = .next t ∧ t.pw.lcState = b ∧ t.pw.mode = .prime ∧ t.pw.primeInstant = 1 ∧
        t.pw.resetCause = 6 ∧ (b = .field → t.pw.siteKey = s.pw.siteKey) ∧ (b = .scrapped → t.pw.siteKey = none ∧ t.pw.deviceKey = false) ∧
        t.eps = [] ∧ t.devs = []) ∧
    (∀ k, lcRecord s.pw.lcState b (fld e 207 192 == 0) = some (k + 1) → k + 1 ≠ 2 ∨ s.pw.whsLeft ≠ 0 → fld e 207 192 ≠ 0 →
      ∃ t, exec (.lifecycle i slot) s = .next t ∧ (t.cmd i slot).map (·.phase) = some .waiting ∧
        .hostRead i (fld e 191 128) (fld e 207 192) ∈ t.out ∧ t.bare = s.bare)) ∧
  ∀ (s : State) (i : InstNo) (slot : BitVec 16) (c : Cmd) (r : List Byte) (b : LcState) (k : Nat), s.cmd i slot = some c →
    ceOp c.entry = 0x4D → c.phase = .waiting → s.runs = true → (s.inst i).halted = false → r.length = fld c.entry 207 192 →
    lcTarget (fld c.entry 67 64) = some b → lcRecord s.pw.lcState b (r.length == 0) = some k →
    (s.authRefusal k r = none → s.pw.perst = false → s.pw.aonValid = true → s.pw.mainValid = true →
      ∃ t, exec (.commandHostReadComplete i slot r) s = .next t ∧ t.pw.lcState = b ∧ t.pw.mode = .prime ∧ t.pw.resetCause = 6 ∧
        (b = .provisioned → k = 1 → t.pw.siteKey = Config.unwrapSiteKey (r.drop 16))) ∧
    (∀ code, s.authRefusal k r = some code → k ≠ 2 →
      exec (.commandHostReadComplete i slot r) s = .next (s.replied i slot .paramInvalid 0)) ∧
    (∀ code, s.authRefusal k r = some code → k = 2 → ∃ u : State,
      exec (.commandHostReadComplete i slot r) s = .next (u.replied i slot .paramInvalid 0) ∧ u.pw.whsLeft = s.pw.whsLeft - 1 ∧
        u = { s with freeIx := u.freeIx, snag := u.snag, pw := { s.pw with whsLeft := u.pw.whsLeft, nonce := u.pw.nonce } })

/-- Saving and restoring an instance (R148, R331 to R333, R335): SAVE_INSTANCE writes the image of a quiesced instance, unsealed first and
its seal last, and tells its length; without a site key it is NOT_PERMITTED. RESTORE_INSTANCE reads an image into a quiesced instance that
is fresh; one whose seal does not hold leaves the instance quiesced, fresh and wiped. The model's choices it rests on: log 8, 93, 94, 96. It
states that these commands complete with their own effect: saveInstance, restoreInstance, commandHostReadComplete. -/
def Obligations.SaveRestore : Prop :=
  (∀ (s : State) (i : InstNo) (slot : BitVec 16) (e : CEntry) (j : InstNo), s.Ordered i slot 0x47 anyForm e → s.tenantOf e = some j →
    let img := s.imageParts j
    let len := img.1.length + img.2.1.length + img.2.2.length
    (s.pw.siteKey = none → exec (.saveInstance i slot) s = .next (s.replied i slot .notPermitted 0)) ∧
    (s.pw.siteKey.isSome = true → (s.inst j).st = .running → exec (.saveInstance i slot) s = .next (s.replied i slot .notQuiesced 0)) ∧
    (s.pw.siteKey.isSome = true → (s.inst j).st = .quiesced →
      (fld e 223 192 < len → exec (.saveInstance i slot) s = .next (s.replied i slot .noResources len)) ∧
      (len ≤ fld e 223 192 → s.canWrite 0 = true → (s.inst 0).dirty = none →
        ∃ u : State, exec (.saveInstance i slot) s = .next (u.replied i slot .cmdOk len) ∧
          u.out.take 4 = [.hostWrite 0 (fld e 191 128 + img.1.length + img.2.1.length) img.2.2,
            .hostWrite 0 (fld e 191 128 + img.1.length) img.2.1, .hostWrite 0 (fld e 191 128) img.1,
            .hostWrite 0 (fld e 191 128 + img.1.length + img.2.1.length) (List.replicate 64 0)] ∧
          u.saveCount = s.saveCount + 1 ∧ u.bare = State.bare { s with saveCount := u.saveCount }))) ∧
  (∀ (s : State) (i : InstNo) (slot : BitVec 16) (e : CEntry) (j : InstNo), s.Ordered i slot 0x48 anyForm e → s.tenantOf e = some j →
    ((s.inst j).st = .quiesced → (s.inst j).fresh = true →
      ∃ t, exec (.restoreInstance i slot) s = .next t ∧ (t.cmd i slot).map (·.phase) = some .waiting ∧ (t.inst j).op = .restoring ∧
        .hostRead 0 (fld e 191 128) (fld e 223 192) ∈ t.out ∧ t.bare = (s.modInst j fun n => { n with op := .restoring }).bare) ∧
    ((s.inst j).st ≠ .quiesced ∨ (s.inst j).fresh = false →
      exec (.restoreInstance i slot) s = .next (s.replied i slot .notQuiesced 0))) ∧
  ∀ (s : State) (slot : BitVec 16) (c : Cmd) (img : List Byte) (j : InstNo) (st : Status), s.cmd 0 slot = some c → ceOp c.entry = 0x48 →
    c.phase = .waiting → s.runs = true → (s.inst 0).halted = false → img.length = fld c.entry 223 192 → s.tenantOf c.entry = some j →
    (∀ p, (s.port p).converting = false) → s.sealCheck img (fld c.entry 223 192) = some st →
    ∃ u : State, exec (.commandHostReadComplete 0 slot img) s = .next (u.replied 0 slot st 0) ∧
      (u.inst j).st = (s.inst j).st ∧ (u.inst j).fresh = true ∧ ∀ k x, (k, x) ∈ u.eps → x.inst ≠ j

/-! ### Frames, lists, rounds and transactions (R25 to R54, R161 to R220) -/

/-- The frame timer (R25, R26, R162, R192): a tick counts the subframe and 150,000 clock cycles, opens the next span's cut-off, and on every
port in service whose span begins sends SOSF, after which its line is idle for the gap, and makes the fixed list the skim; after a resume
the first SOSF may pass over one tick, and follows the training pattern at Express; a halted controller counts on and does nothing else;
outside the modes in which the timer runs nothing happens. A missed commit ends at its release tick, a frame-list link word leads the walk
on, and a run beyond 4,096 descriptors is cut and counted. The model's choices it rests on: log 10, 61, 104. It states that these commands
complete with their own effect: subframeTick, commitMissed, frameListReadComplete. -/
def Obligations.Frames : Prop :=
  (∀ s : State, s.pw.mode.isRunning = true → s.pw.halted = false →
    ∃ t, exec .subframeTick s = .next t ∧ t.pl.subN = s.pl.subN + 1 ∧ t.pl.cycle = s.pl.cycle + 150000 ∧ t.pl.cutDone = false ∧
      ∀ p, (s.port p).st = .enabled → (s.port p).suspendPending = false → (s.port p).downshift = false →
        ((s.port p).sosfHold = .late → (t.port p).list = [] ∧
          (t.port p).sosfHold = if (s.port p).speed = .express then .train else .plain) ∧
        ((s.port p).sosfHold ≠ .late → s.spanAt p (s.pl.subN + 1) = true →
        .packet p (s.port p).speed (sosfPacket ((s.pl.subN + 1) / 8 % 2048) ((s.pl.subN + 1) % 8)) ∈ t.out ∧
        (t.port p).skim = (s.port p).list ∧ (t.port p).list = [] ∧ (t.port p).ctrlUsed = 0 ∧ (t.port p).excess = 0 ∧
        (t.port p).sosfHold = .none ∧ (t.port p).lineAt = 12 ∧
        ((s.port p).sosfHold = .train → .drive p .training ∈ t.out))) ∧
  (∀ s : State, s.pw.mode.isRunning = true → s.pw.halted = true →
    exec .subframeTick s = .next { s with pl := { s.pl with
      subN := s.pl.subN + 1, cycle := s.pl.cycle + 150000, cutDone := false } }) ∧
  (∀ s : State, s.pw.mode.isRunning = false → s.pw.mode ≠ .standby → exec .subframeTick s = .next s) ∧
  (∀ (s : State) (c : Fin 256) (x : Commit), kget s.commits c = some x → x.phase = .missed → x.subN ≤ s.pl.subN →
    ∃ t, exec (.commitMissed c) s = .next t ∧ kget t.commits c = none ∧ (∀ m, m ≠ c.val → kget t.commits m = kget s.commits m) ∧
      t.bare = State.bare { s with commits := t.commits, eps := t.eps }) ∧
  (∀ (s : State) (i : InstNo) (w : Walk) (l : Word), s.runs = true → s.pl.cutDone = false → (s.inst i).walk = some w →
    w.next.isSome = true →
    w.atLink = true → exec (.frameListReadComplete i (.link l)) s = .next (s.modInst i fun x => { x with walk := some { w with
      atLink := false, next := if bitOf l 0 then none else some (l.toNat / 32 * 32) } })) ∧
  ∀ (s : State) (i : InstNo) (w : Walk) (ds : List (BitVec 256)) (d : BitVec 256), s.runs = true → s.pl.cutDone = false →
    (s.inst i).walk = some w → w.next.isSome = true → w.atLink = false → ds.head? = some d → ds.length = fld d 95 88 + 1 →
    ∃ t, exec (.frameListReadComplete i (.run ds)) s = .next t ∧ t.pl = s.pl ∧
      ∃ v, (t.inst i).walk = some v ∧ v.count = w.count + min (4096 - w.count) ds.length ∧
        (4096 - w.count < ds.length → v.next = none ∧ (t.inst i).overlong = satInc (s.inst i).overlong) ∧
        (ds.length < 4096 - w.count → (t.inst i).overlong = (s.inst i).overlong ∧ v.atLink = false ∧
          v.next = if bitOf (ds.getLast?.getD 0) 0 then none else some (fld (ds.getLast?.getD 0) 63 0 / 32 * 32))

/-- The cut-off (R163, R177, R313): it decides which tenants are served from now on and ends every walk, and the list that it fixes for a
port takes of an instance's reservation on that port no more than there is. The model's choices it rests on: log 108, 133. It states that
these commands complete with their own effect: plannerCutoff. -/
def Obligations.Cutoff : Prop :=
  ∀ s : State, s.alive = true → s.pl.cutDone = false →
    ∃ t, exec .plannerCutoff s = .next t ∧ t.pl.cutDone = true ∧ t.pl.subN = s.pl.subN ∧ (∀ i, (t.inst i).walk = none) ∧
      (∀ i, i ≠ 0 → (t.inst i).served = decide ((s.inst i).st = .running ∧ (s.inst i).flrAsked = false)) ∧
      ∀ (p : PortNo) (i : InstNo), s.spanAt p (s.pl.subN + 1) = true → s.carries p = true →
        ((t.port p).list.map fun h => match h with
          | .ep k => ((s.ep k).map fun e => if e.inst = i then e.svcCost else 0).getD 0
          | _ => 0).sum ≤ vget (s.inst i).units p

/-- A change of speed converts the reservations (R175): units and costs are reckoned at the new speed, on that port alone. It states that
these commands complete with their own effect: reservationConversion. -/
def Obligations.Conversion : Prop :=
  ∀ (s : State) (p : PortNo), s.alive = true → (s.port p).converting = true →
    ∃ t, exec (.reservationConversion p) s = .next t ∧ (t.port p).reckoned = (s.port p).speed ∧ (∀ q, q ≠ p → t.port q = s.port q) ∧
      (∀ i, vget (t.inst i).units p = convertUnits (s.port p).reckon (s.port p).speed (vget (s.inst i).units p)) ∧
      (∀ i q, q ≠ p → vget (t.inst i).units q = vget (s.inst i).units q) ∧
      (∀ k e, s.ep k = some e → ∃ c, t.ep k = some { e with svcCost := c } ∧
        (e.kind = .periodic → s.epPort e = some p → c = svcCost (s.port p).speed (s.epTier e) e.maxBlock e.inward) ∧
        (s.epPort e ≠ some p → c = e.svcCost)) ∧
      (∀ i, (t.inst i).bare = ({ s.inst i with units := (t.inst i).units } : Inst).bare) ∧
      t.bare = State.bare { s with ports := t.ports, insts := t.insts, eps := t.eps, devs := t.devs }

/-- Periodic rounds (R48, R50, R177, R178): the holder at the head of the skim, if its round ends within the span, gets its POLL, or its
PUSH and block; one that no longer fits misses its service; an OUT endpoint with nothing to send has no round. The model's choices it rests
on: log 1. It states that these commands complete with their own effect: periodicInRound, periodicOutRound. -/
def Obligations.PeriodicRounds : Prop :=
  ∀ (s : State) (p : PortNo) (now k : Nat) (l : List Holder) (e : Ep) (w : Wire), s.lineFree p now = true →
    (s.port p).skim = .ep k :: l → s.listedLive (.ep k) = true → s.ep k = some e → e.kind = .periodic → s.wire (.ep k) = some w →
    (s.cachedOf (.ep k) = false →
      (e.inward = true → exec (.periodicInRound p now) s = .next (s.touch k).ended) ∧
      (e.inward = false → exec (.periodicOutRound p now .ok) s = .next (s.touch k).ended)) ∧
    (s.cachedOf (.ep k) = true → e.inward = true →
      (now + 27 + e.maxBlock + timeout (s.port p).speed w.tier ≤ spanLimit (s.port p).speed s.pl.subN →
        ∃ t, exec (.periodicInRound p now) s = .next t ∧
          .packet p (s.port p).speed (tokenPacket pidPoll w.addr e.epid e.expectSeq 0) ∈ t.out ∧ t.ep k = some { e with missRun := false } ∧
          (t.port p).skim = l ∧ (∃ r, (t.port p).round = some r ∧ r.kind = .perIn ∧ r.who = .ep k ∧ r.t0 = now ∧ r.n = 1 ∧
            r.s = e.expectSeq ∧ r.got = 0) ∧
          (∀ q, q ≠ p → t.port q = s.port q) ∧
            t.bare = State.bare { s with ports := t.ports, eps := t.eps, mem := { s.mem with cache := t.mem.cache } }) ∧
      (spanLimit (s.port p).speed s.pl.subN < now + 27 + e.maxBlock + timeout (s.port p).speed w.tier →
        exec (.periodicInRound p now) s = .next ((((s.touch k).popSkim p).missed p (.ep k)).overrunAtEnd p).ended)) ∧
    (s.cachedOf (.ep k) = true → e.inward = false →
      (s.outPayload k = none → now + 38 + e.maxBlock + timeout (s.port p).speed w.tier ≤ spanLimit (s.port p).speed s.pl.subN →
        exec (.periodicOutRound p now .ok) s = .next (((s.touch k).popSkim p).overrunAtEnd p)) ∧
      (∀ pay src, s.outPayload k = some (pay, src) →
        (now + 38 + e.maxBlock + timeout (s.port p).speed w.tier ≤ spanLimit (s.port p).speed s.pl.subN →
          ∃ t, exec (.periodicOutRound p now .ok) s = .next t ∧
            .packet p (s.port p).speed (tokenPacket pidPush w.addr e.epid e.nextSeq 0) ∈ t.out ∧
              .packet p (s.port p).speed (dataPacket e.nextSeq true true pay) ∈ t.out ∧
            t.ep k = some { e with missRun := false } ∧ (t.port p).skim = l ∧
            ∃ r, (t.port p).round = some r ∧ r.kind = .perOut ∧ r.who = .ep k ∧ r.t0 = now ∧ r.n = 1 ∧ r.sent = 1 ∧ r.s = e.nextSeq ∧
              r.src = src)) ∧
      (spanLimit (s.port p).speed s.pl.subN < now + 38 + e.maxBlock + timeout (s.port p).speed w.tier →
        exec (.periodicOutRound p now .ok) s = .next ((((s.touch k).popSkim p).missed p (.ep k)).overrunAtEnd p).ended))

/-- Picking and taking transactions (R203 to R212): a pick adds at most one transaction at the end of the port's queue, which never holds
more than four; a trowel takes the head of its own port's queue; staged data stands with the transaction. The model's choices it rests on:
log 20, 106, 107. It states that these commands complete with their own effect: bulkPick, trowelTakeWork, stagingComplete. -/
def Obligations.Picking : Prop :=
  (∀ (s : State) (p : PortNo) (now : Nat), (s.port p).queue.length ≤ 4 →
    ∃ t, exec (.bulkPick p now) s = .next t ∧ (t.port p).queue.length ≤ 4 ∧ t.pl = s.pl ∧
      (t.out = s.out ∨ ∃ z, s.cachedOf (.ep z) = false ∧ t.out = .hostRead 0 (s.mem.bsBase.toNat + 64 * z) 64 :: s.out) ∧
      ((t.port p).queue = (s.port p).queue ∨
        ∃ x : Txn, (t.port p).queue = (s.port p).queue ++ [x] ∧ x.id = s.nextId ∧ x.port = p ∧ x.phase = .queued ∧ x.sent = 0 ∧ 0 < x.n)) ∧
  (∀ (s : State) (p : PortNo) (now : Nat) (r : Ready) (n : Nat), (s.port p).st = .enabled → s.alive = true →
    (s.port p).recovering = false → (s.port p).tokenWait = false → (s.port p).queue.length < 4 → s.pw.mode ≠ .standby → s.pw.acted < 6 →
    (s.port p).ctrlUsed < controlShare (s.port p).speed → s.controlPick p (s.readyOn p) (s.startEstimate p now) = some (r, n) →
    exec (.bulkPick p now) s = .next ((s.pick p r n false).modPort p fun x => { x with ctrlTurn := r.inst })) ∧
  (∀ (s : State) (k : TrowelNo) (p : PortNo) (x : Txn) (q : List Txn), p.val = k.val → s.isHome k = true → s.alive = true →
    (s.trowel k).open = true → s.standbyGated k = false → (s.port p).queue = x :: q →
    (s.txnLive x = true → x.kind = .bulkIn ∨ x.kind = .ctlIn ∨ x.kind = .setup ∨ x.kind = .stIn ∨ x.kind = .stOut →
      ∃ t, exec (.trowelTakeWork k) s = .next t ∧ (t.port p).queue = q ∧
        t.trowel k = { s.trowel k with slots := (s.trowel k).slots ++ [{ x with phase := .staged }], taken := satInc (s.trowel k).taken } ∧
        (∀ j, j ≠ k → t.trowel j = s.trowel j) ∧ t.bare = State.bare { s with ports := t.ports, trowels := t.trowels }) ∧
    (s.txnLive x = false →
      exec (.trowelTakeWork k) s = .next ((s.modPort p fun y => { y with queue := q }).unpick x.who).ended)) ∧
  ∀ (s : State) (k : TrowelNo) (x : Txn) (z : Nat) (e : Ep) (data : List Byte),
    (allTrowels.findSome? fun k => ((s.trowel k).slots.find? fun t => t.id == x.id && t.phase == .taken).map fun t => (k, t)) = some (k, x) →
    x.who = .ep z → s.ep z = some e → data.length = s.stageLen x →
    ∃ t, exec (.stagingComplete x.id data .ok) s = .next t ∧ { x with phase := .staged, data := data } ∈ (t.trowel k).slots ∧
      (∀ j, j ≠ k → t.trowel j = s.trowel j) ∧
      t.bare = State.bare { s with trowels := t.trowels, eps := t.eps, mem := { s.mem with hawk := t.mem.hawk } }

/-- Bulk and control rounds (R39 to R41, R52): the transaction whose turn it is starts its round with a POLL for the blocks that fit, with a
PUSH for all that are left or for a segment of them, with SETUP and the setup block, or with the status stage. The model's choices it rests
on: log 1, 103, 107. It states that these commands complete with their own effect: bulkInRound, controlDataStage, bulkOutBurst,
outSegmentContinue, controlSetupStage, controlStatusStage. -/
def Obligations.WorkRounds : Prop :=
  ∀ (s : State) (p : PortNo) (now : Nat) (k : TrowelNo) (x : Txn) (w : Wire),
    let limit := s.workLimit p
    let begun (t : State) (n seq : Nat) (sent : Nat) : Prop :=
      (∃ r, (t.port p).round = some r ∧ r.kind = x.kind ∧ r.who = x.who ∧ r.trowel = k ∧ r.txn = some x.id ∧ r.t0 = now ∧ r.n = n ∧
        r.s.toNat = seq ∧ r.sent = sent ∧ r.got = 0) ∧
      (∀ q, q ≠ p → t.port q = s.port q) ∧ ∀ y ∈ (t.trowel k).slots, y.id = x.id → y.phase = .line
    let inRound (n : Nat) (t : State) : Prop :=
      .packet p (s.port p).speed (tokenPacket pidPoll w.addr (s.epidOf x.who true) (s.expectOf x.who) (n - 1)) ∈ t.out ∧
      begun t n (s.expectOf x.who).toNat 0
    let outRound (t : State) : Prop :=
      .packet p (s.port p).speed (tokenPacket pidPush w.addr (s.epidOf x.who false) (x.s + BitVec.ofNat 5 x.sent) (x.n - x.sent - 1)) ∈ t.out
    let started (kinds : List RoundKind) (opened : Bool) : Prop :=
      s.startable p kinds opened now = some (k, x, w) ∧ s.cachedOf x.who = true
    let n := fitBlocks (s.port p).speed x.kind w.tier w.mb now limit x.n
    let m := segmentFit (s.port p).speed w.tier w.mb now limit (x.n - x.sent)
    (started [.bulkIn] false → n ≠ 0 → ∃ t, exec (.bulkInRound p now) s = .next t ∧ inRound n t) ∧
    (started [.ctlIn, .ctlOut] false → x.kind = .ctlIn → n ≠ 0 →
      ∃ t, exec (.controlDataStage p now) s = .next t ∧ inRound n t) ∧
    (started [.bulkOut] false → m ≠ 0 → ∃ t, exec (.bulkOutBurst p now) s = .next t ∧ outRound t ∧
      (x.sent + m = x.n → begun t x.n x.s.toNat x.n) ∧
      (x.sent + m ≠ x.n → (t.port p).round = (s.port p).round ∧ ∀ y ∈ (t.trowel k).slots, y.id = x.id → ∃ z ∈ (s.trowel k).slots,
        y = { z with sent := z.sent + m, started := true })) ∧
    (started [.bulkOut, .ctlOut] true → m ≠ 0 → ∃ t, exec (.outSegmentContinue p now) s = .next t ∧ outRound t ∧
      (x.sent + m = x.n → begun t x.n x.s.toNat x.n)) ∧
    (started [.setup] false → now + longestSetup (s.port p).speed w.tier ≤ limit →
      ∃ t, exec (.controlSetupStage p now) s = .next t ∧ .packet p (s.port p).speed (tokenPacket pidSetup w.addr 0 0 0) ∈ t.out ∧
        .packet p (s.port p).speed (dataPacket 0 true true (s.setupOf x.who)) ∈ t.out ∧
        (∀ z e, x.who = .ep z → s.ep z = some e → t.ep z = some { e with nextSeq := 0, expectSeq := 0 }) ∧
        ∃ r, (t.port p).round = some r ∧ r.kind = .setup ∧ r.who = x.who ∧ r.n = 1 ∧ r.s = 0 ∧ r.sent = 1) ∧
    (started [.stIn, .stOut] false → now + longestRound (s.port p).speed x.kind w.tier 0 1 ≤ limit →
      (x.kind = .stIn → ∃ t, exec (.controlStatusStage p now) s = .next t ∧
        .packet p (s.port p).speed (tokenPacket pidPoll w.addr 0x10 (s.expectOf x.who) 0) ∈ t.out ∧ begun t 1 (s.expectOf x.who).toNat 0) ∧
      (x.kind = .stOut → ∃ t, exec (.controlStatusStage p now) s = .next t ∧
        .packet p (s.port p).speed (tokenPacket pidPush w.addr 0 x.s 0) ∈ t.out ∧
          .packet p (s.port p).speed (dataPacket x.s true true []) ∈ t.out ∧
        begun t 1 x.s.toNat 1))

/-- The counts and the halts (R43, R44, R46, R53): what an outcome does to an endpoint's counts, when they halt it, and that its entry in
progress then ends: at once, or with the last of the deliveries that it still has (R16). -/
def Obligations.Outcomes : Prop :=
  ∀ (s : State) (x : Nat) (p : PortNo) (k : TrowelNo) (o : RoundEnd) (e : Ep), s.ep x = some e →
    let halted (y : Ep) : Prop := y.st = .halted ∧
      if s.deliveries.any (·.ep == x) then y.cur = e.cur else y.cur = none
    ∃ e', (s.epOutcome x p k o).ep x = some e' ∧
      (o = .answered → e' = { e with errCount := 0, retryCount := 0, silenceRun := 0 }) ∧
      (o = .silence → e'.errCount = min 7 (e.errCount + 1) ∧ e'.silenceRun = min 15 (e.silenceRun + 1) ∧ e'.retryCount = e.retryCount ∧
        (e.errThreshold ≤ min 7 (e.errCount + 1) → s.egressActive x = false → halted e') ∧
        (min 7 (e.errCount + 1) < e.errThreshold ∨ s.egressActive x = true → e'.st = e.st ∧ e'.cur = e.cur)) ∧
      (o = .corrupt → e.retryCount + 1 ≤ e.retryLimit →
        e'.errCount = e.errCount ∧ e'.retryCount = e.retryCount + 1 ∧ e'.st = e.st ∧ e'.cur = e.cur) ∧
      (o = .corrupt → e.retryLimit < e.retryCount + 1 → e'.errCount = min 7 (e.errCount + 1) ∧ e'.retryCount = 0 ∧
        (e.errThreshold ≤ min 7 (e.errCount + 1) → s.egressActive x = false → halted e')) ∧
      (o = .stall → ((∀ d ∈ s.deliveries, d.ep ≠ x) → e'.cur = none) ∧ e'.errCount = 0 ∧
        e'.st = if e.kind = .control then e.st else .halted) ∧
      (o = .babble → halted e' ∧ e'.errCount = e.errCount) ∧
      ∀ (d : Delivery) (l l' : List Delivery), s.deliveries = l ++ d :: l' → d.ep = x → (∀ y ∈ l', y.ep ≠ x) →
        (∀ y ∈ s.deliveries, y.ep = x → y.fin = none) → (∀ y ∈ l ++ l', y.id ≠ d.id) → e.cur.isSome = true → s.commitOf x = none →
        (s.haltEp x .stalled).deliveries = l ++ { d with fin := some .stalled } :: l'

/-- Responses (R34, R37, R38, R42, R45 to R49, R53, R54, R204): the block expected of a periodic IN endpoint is accepted and held where no
entry takes it; the acknowledgement of every block sent ends the round ANSWERED, an earlier one CORRUPT; STALL, a bad packet, silence and
babble end it with their outcomes; back-offs end; a delivery is made with its completion, and discarded where the instance is halted. The
model's choices it rests on: log 1, 115, 138. It states that these commands complete with their own effect: dataBlockReceived,
stallReceived, corruptPacketReceived, ackReceived, turnaroundTimeout, babbleDetected, silenceBackoffExpiry, recoveryBackoffExpiry,
transactionDeliveryDone. -/
def Obligations.Responses : Prop :=
  (∀ (s : State) (p : PortNo) (pkt : List Byte) (now : Nat) (r : Round) (x : Nat) (e : Ep) (w : Wire), (s.port p).round = some r →
    r.kind = .perIn → r.who = .ep x → s.ep x = some e → s.wire (.ep x) = some w → (s.inst e.inst).halted = false →
    (∀ d, receive w.mb pkt = .data d → d.length ≤ w.mb → d.seq = e.expectSeq → e.cur = none → d.length ≠ 0 →
      ∃ t, exec (.dataBlockReceived p pkt now) s = .next t ∧ (t.port p).round = none ∧
        t.ep x = some { e with
          expectSeq := e.expectSeq + 1, blocksDone := e.blocksDone + 1, errCount := 0, retryCount := 0, silenceRun := 0, heldValid := true
          heldLen := d.length, heldReplaced := if e.heldValid then min 0xFFFF (e.heldReplaced + 1) else e.heldReplaced }) ∧
    (receive w.mb pkt = .stall → e.kind ≠ .control → ∃ t, exec (.stallReceived p pkt now) s = .next t ∧ (t.port p).round = none ∧
      ∃ e', t.ep x = some e' ∧ e'.st = .halted ∧ ((∀ d ∈ s.deliveries, d.ep ≠ x) → e'.cur = none)) ∧
    (receive w.mb pkt = .corrupt → ∃ t, exec (.corruptPacketReceived p pkt now) s = .next t ∧ (t.port p).round = none ∧
      (t.port p).corruptPkts = satInc (s.port p).corruptPkts ∧ ∃ e', t.ep x = some e' ∧ e'.expectSeq = e.expectSeq ∧
        (e.retryCount + 1 ≤ e.retryLimit → e'.retryCount = e.retryCount + 1))) ∧
  (∀ (s : State) (p : PortNo) (pkt : List Byte) (now : Nat) (r : Round) (next : BitVec 5), (s.port p).round = some r →
    r.kind.isIn = false → r.sent = r.n → s.haltedRound r = false → s.orderPending p = none → receive 512 pkt = .ack next →
    ((next - r.s).toNat = r.n → exec (.ackReceived p pkt now) s = .next (s.endRound p r .answered r.n now).ended) ∧
    ((next - r.s).toNat < r.n → exec (.ackReceived p pkt now) s = .next (s.endRound p r .corrupt (next - r.s).toNat now).ended)) ∧
  (∀ (s : State) (p : PortNo) (now : Nat) (r : Round), (s.port p).round = some r →
    (r.awaits = true → s.haltedRound r = false → r.kind.isIn = false ∨ r.got = 0 →
      exec (.turnaroundTimeout p now) s = .next (s.endRound p r .silence 0 now).ended) ∧
    (r.kind.isIn = true → s.haltedRound r = false → r.got ≠ 0 →
      exec (.turnaroundTimeout p now) s = .next (s.closeBurst p r false now).ended) ∧
    (r.kind.isIn = true → exec (.babbleDetected p now) s = .next (s.endRound p r .babble 0 now).ended)) ∧
  (∀ (s : State) (p : PortNo) (now : Nat) (r : Round) (x id : Nat) (e : Ep), (s.port p).round = some r → r.kind = .bulkIn →
    r.got = 0 → r.who = .ep x → r.txn = some id → s.ep x = some e → (s.inst e.inst).halted = false → e.st = .running → e.cur.isSome = true →
    s.ending x = false → min 7 (e.errCount + 1) < e.errThreshold →
    ∃ t e', exec (.turnaroundTimeout p now) s = .next t ∧ t.ep x = some e' ∧ e'.backoff = true ∧
      e'.backoffAt = s.pl.subN + min 8 (2 ^ (min 15 (e.silenceRun + 1) - 1))) ∧
  (∀ (s : State) (k : Nat) (e : Ep), s.ep k = some e →
    ∃ t, exec (.silenceBackoffExpiry (.ep k)) s = .next t ∧ t = { s with eps := t.eps } ∧ (∀ j, j ≠ k → t.ep j = s.ep j) ∧
      (e.backoffAt ≤ s.pl.subN → t.ep k = some { e with backoff := false }) ∧ (s.pl.subN < e.backoffAt → t.ep k = some e)) ∧
  (∀ (s : State) (k : Nat) (e : Ep) (d : DevRec), s.runs = true → s.pl.recoverHw = true → s.ep k = some e → e.st = .halted →
    e.recovering = false → (s.inst e.inst).halted = false → s.epDev e = some d →
    (e.kind = .control → (s.port d.port).treeHw = false → ∃ t, exec (.recoveryBackoffExpiry k) s = .next t ∧
      (s.reachable e.zone = true → s.usable d.port = true → t.ep k = some { e.clear with st := .running, recovering := false }) ∧
      (s.reachable e.zone = false ∨ s.usable d.port = false → t.ep k = some { e with recovering := true })) ∧
    (e.kind ≠ .control → (s.port d.port).treeHw = false → exec (.recoveryBackoffExpiry k) s =
      .next ((s.modEp k fun e => { e with recovering := true }).asking (.unhaltHw k) d.pos 0 0 [] d.port e.zone d.tier d.ep0Max 0x5C 0x20
        e.epid.toNat 0 0).ended)) ∧
  ∀ (s : State) (n : Nat) (d : Delivery) (e : Ep), s.deliveries.find? (fun x => x.id == n) = some d → s.ep d.ep = some e →
    (s.deliveries.find? fun y => y.ep == d.ep).map (·.id) = some n →
    (s.canWrite e.inst = true → exec (.transactionDeliveryDone n) s = .next (s.deliver d).ended ∧
      (∀ y ∈ (s.deliver d).deliveries, y.id ≠ n) ∧
      (∀ c, e.cur = some c → d.data ≠ [] → .hostWrite e.inst (teBuf c.entry + d.off) d.data ∈ (s.deliver d).out) ∧
      ∃ e', (s.deliver d).ep d.ep = some e' ∧ (d.fin.isSome = true → e'.cur = none) ∧ (d.fin = none → e'.cur = e.cur)) ∧
    (s.canWrite e.inst = false → (s.inst e.inst).halted = true → ∃ t, exec (.transactionDeliveryDone n) s = .next t ∧
      (∀ y ∈ t.deliveries, y.id ≠ n) ∧ t.out = s.out ∧
      t.eps = (s.modEp d.ep fun e => { e with delivering := false, picked := false }).eps)

/-! ### Trowels, the hawk's check bits, and the tree (R213 to R225, R238 to R258, R444) -/

/-- Trowels (R214, R215, R218, R219, R224): one that can be relieved of its ports drains, with what it has not started given back; one that
cannot is refused; it is out of service when nothing is left, returns through its self-check, and faults out of service, or with a skim in
its hands resets the controller. What a scrub read shows is recorded. The model's choices it rests on: log 82, 123, 134, 135. It states that
these commands complete with their own effect: trowelOosRequest, trowelReturnRequest, trowelDrainComplete, trowelSelfCheckEnd, trowelFault,
hawkScrubRead. -/
def Obligations.Trowels : Prop :=
  (∀ (s : State) (k : TrowelNo), s.nativeRegs 0 = true → (s.inst 0).fresh = false →
    (s.canRelieve k = false → exec (.trowelOosRequest k) s = .next (s.modTrowel k fun w => { w with oosRefused := true })) ∧
    (s.canRelieve k = true → (s.trowel k).tstate = .inService → ∃ t, exec (.trowelOosRequest k) s = .next t ∧
      (t.trowel k).tstate = .draining ∧ (t.trowel k).oosReq = true ∧ (t.trowel k).oosRefused = false ∧
      (t.trowel k).slots = (s.trowel k).slots.filter (·.started) ∧ (∀ j, j ≠ k → t.trowel j = s.trowel j) ∧
      t = { s with ports := t.ports, trowels := t.trowels }) ∧
    ((s.trowel k).tstate ≠ .inService → exec (.trowelReturnRequest k) s =
      .next (s.modTrowel k fun w => { w with oosReq := false, oosRefused := false, tstate := .returning }))) ∧
  (∀ (s : State) (k : TrowelNo),
    ((s.trowel k).tstate = .draining → (s.trowel k).slots = [] → (s.trowel k).holds = [] → exec (.trowelDrainComplete k) s =
      .next (s.modTrowel k fun w => { w with tstate := if w.oosReq then .outOfService else .gatedShed })) ∧
    ((s.trowel k).tstate = .returning → s.pw.acted < 4 → ∀ pass : Bool, exec (.trowelSelfCheckEnd k pass) s =
      .next (s.modTrowel k fun w => { w with tstate := if pass then .inService else .faulted }))) ∧
  (∀ (s : State) (k : TrowelNo) (dog : Bool), s.alive = true →
    ((∀ p ∈ (s.trowel k).holds, s.inService p = false) → (s.trowel k).tstate = .inService → ∃ t, exec (.trowelFault k dog) s = .next t ∧
      (t.trowel k).tstate = .faulted ∧ (t.trowel k).slots = [] ∧ t.pw = { s.pw with msgQueue := t.pw.msgQueue, pme := t.pw.pme }) ∧
    ((∃ p ∈ (s.trowel k).holds, s.inService p = true) → ∃ t, exec (.trowelFault k dog) s = .next t ∧ t.pw.mode = .prime ∧
      t.pw.nextCause = 4 ∧ t.eps = [])) ∧
  ∀ (s : State) (a : BitVec 24), s.alive = true → s.mem.passS ≠ 0 →
    (exec (.hawkScrubRead .ok) s = .next s.ended) ∧
    (∃ t, exec (.hawkScrubRead (.corrected a)) s = .next t ∧
      t.bare = State.bare { s with mem := { s.mem with ceCount := satInc s.mem.ceCount } }) ∧
    ∃ t, exec (.hawkScrubRead (.uncorrectable a)) s = .next t ∧ t.mem.ueCount = satInc s.mem.ueCount ∧ t.mem.eccValid = true ∧
      t.mem.eccAddr = a ∧ t.mem.hawk = s.mem.hawk ∧ ∀ i, s.regionOwner a.toNat = some i → (t.inst i).ueHits = satInc (s.inst i).ueHits

/-- Enumeration and hubs (R139, R242 to R249, R254, R256, R444): a waiting position is reset and its procedure begins; the end of a transfer
takes its procedure on; a port whose status bit a poll showed is read; a device that is not seen attached again in time is detached; an idle
branch is suspended, and a resumed one is usable. The model's choices it rests on: log 24, 29, 100, 113, 141, 143. It states that these
commands complete with their own effect: enumerationStart, hubResetWaitEnd, controllerControlTransferEnd, enumRetry, readdressTimeout,
hubPortQuery, treeIdleExpiry, hubBranchUsable. -/
def Obligations.Enumeration : Prop :=
  (∀ (s : State) (w : EnumWait), s.runs = true → s.pw.acted < 6 → s.tree.waiting = [w] → s.canEnum w = true → w.pos ∉ s.tree.marks →
    (∀ x ∈ s.tree.procs, x.step ≠ 30) →
    ∃ t, exec .enumerationStart s = .next t ∧ t.tree.waiting = [] ∧
      (∃ x ∈ t.tree.procs, x.id = s.nextId ∧ x.pos = w.pos ∧ x.step = 2 ∧ x.todo = s.path w.pos ∧
        x.purpose = (match w.zone with | some z => .reenum z | none => .enum) ∧
        (w.zone = none → s.poolAddr w.pos.port = some x.addr)) ∧
      (w.pos.hub = 0 → (t.port w.pos.port).st = .resetting ∧ .drive w.pos.port .low ∈ t.out)) ∧
  (∀ (s : State) (x : Proc) (h : DevRec), s.tree.procs.find? (fun x => x.step == 20) = some x → s.dev x.pos.hub = some h →
    ∃ t, exec .hubResetWaitEnd s = .next t ∧ { x with step := 21 } ∈ t.tree.procs ∧
      (∃ o ∈ t.tree.own, o.id = s.nextId ∧ o.proc = x.id ∧ o.addr = x.pos.hub ∧ o.req = 0x61 ∧ o.tgt = 0x10 ∧ o.sel = x.pos.hport ∧
        o.xlen = 4) ∧ t.bare = State.bare { s with nextId := s.nextId + 1, tree := t.tree }) ∧
  (∀ (s : State) (id : Nat) (o : OwnXfer) (x : Proc) (st : Status), s.ownXfer id = some o → o.result = some st →
    s.tree.procs.find? (fun x => x.id == o.proc) = some x →
    let u : State := { s with tree := { s.tree with own := s.tree.own.filter fun x => x.id != id } }
    (st = .success → exec (.controllerControlTransferEnd id) s = .next (u.procOk x o.data).admitNext.ended) ∧
    (st ≠ .success → exec (.controllerControlTransferEnd id) s = .next (u.procFail x st).admitNext.ended) ∧
    (st = .success → ∀ k e, x.purpose = .unhaltHw k → s.ep k = some e → ∃ t, exec (.controllerControlTransferEnd id) s = .next t ∧
      t.ep k = some { e.clear with st := .running, recovering := false }) ∧
    (st = .success → ∀ i slot d, x.purpose = .assign i slot → x.step = 4 → x.todo = [] → x.addr ≠ 0 → s.dev 0 = some d → d.hub = false →
      ∃ t, exec (.controllerControlTransferEnd id) s = .next t ∧ t.dev x.addr = some { d with st := .addressed } ∧ t.dev 0 = none ∧
        x.pos ∉ t.tree.marks ∧ ∀ z, z ≠ 0 → z ≠ x.addr → t.dev z = s.dev z)) ∧
  (∀ (s : State) (q : Pos), s.runs = true → q ∈ s.tree.failedOnce → (s.port q.port).enumHw = true →
    ∃ t, exec (.enumRetry q) s = .next t ∧ (∃ w ∈ t.tree.waiting, w.pos = q) ∧
      t = { s with tree := { s.tree with waiting := t.tree.waiting } }) ∧
  (∀ (s : State) (z : Nat) (d : DevRec), s.runs = true → s.dev z = some d → d.awaiting = true → d.st ≠ .detached →
    ∃ t d', exec (.readdressTimeout z) s = .next t ∧ t.dev z = some d' ∧ d'.st = .detached ∧ d'.awaiting = false ∧
      ∀ y, y ≠ z → t.dev y = s.dev y) ∧
  (∀ (s : State) (hub hport : Nat) (d : DevRec), s.dev hub = some d → s.runs = true → d.hub = true → d.statusOn = true →
    d.st = .addressed → d.awaiting = false → 1 ≤ hport → hport ≤ d.hubPorts → bitOf d.bits hport = true → s.querying hub hport = false →
    exec (.hubPortQuery hub hport) s = .next ((s.modDev hub fun d => { d with bits := d.bits &&& ~~~(BitVec.ofNat 16 (2 ^ hport)) }).asking
      (.query hub hport (s.port d.port).hubHw) d.pos 0 0 [] d.port hub d.tier d.ep0Max 0x61 0x10 hport 0 4).ended) ∧
  (∀ (s : State) (q : Pos), s.runs = true → s.pw.acted < 6 → (s.port q.port).treeHw = true → s.usable q.port = true →
    s.branchIdle q = true → s.branchDown q = false → ∀ r, s.restAt q = some r →
    s.branchRests r = true ∧ (s.branchRests (rootPos q.port) = true → r = rootPos q.port) ∧
    (r.hub = 0 → exec (.treeIdleExpiry q) s = .next (s.modPort r.port fun x => { x with suspendPending := true })) ∧
    (r.hub ≠ 0 → exec (.treeIdleExpiry q) s = .next (s.treeAct none r.hub r.hport 4).ended)) ∧
  ∀ (s : State) (hub hport : Nat) (d : DevRec) (x : HPort), s.dev hub = some d → kget d.hports hport = some x → x.waking = true →
    ∃ t d', exec (.hubBranchUsable hub hport) s = .next t ∧ t.dev hub = some d' ∧
      kget d'.hports hport = some { x with usable := true, waking := false } ∧ (∀ p, p ≠ hport → kget d'.hports p = kget d.hports p) ∧
      t = { s with devs := t.devs }

/-! ### The stencil engine (R262 to R287) -/

/-- Channels (R262 to R265, R277, R280, R281): a start makes an IDLE channel PENDING, and one that is not IDLE counts it; the channel begins
with one slot reserved and its parameter block read; a block that is well formed gives its pointers and strides, and any other is a fault; a
stop ends the program; the owner of an IDLE channel and its count register are set, and a decrement of the cycle of that write is discarded.
The model's choices it rests on: log 53, 122. It states that these commands complete with their own effect: stencilStart, stencilStop,
stnCountWrite, stencilBegin, paramBlockReadDone, stencilManagerStop, stnOwnerWrite. -/
def Obligations.Channels : Prop :=
  (∀ (s : State) (i : InstNo) (c : ChanNo), s.nativeRegs i = true → (s.inst i).fresh = false → (s.chan c).owner = i →
    ((s.chan c).cstate = .idle → exec (.stencilStart i c) s = .next (s.modChan c fun x => { x with cstate := .pending })) ∧
    ((s.chan c).cstate ≠ .idle →
      exec (.stencilStart i c) s = .next (s.modChan c fun x => { x with startIgnored := satInc x.startIgnored })) ∧
    ((s.chan c).cstate = .running ∨ (s.chan c).cstate = .waiting ∨ (s.chan c).cstate = .paused →
      ∃ t, exec (.stencilStop i c) s = .next t ∧ t.chan c = (s.chan c).idle ∧ (∀ d, d ≠ c → t.chan d = s.chan d) ∧
        t.bare = State.bare { s with chans := t.chans }) ∧
    (∀ (w : Word) (decs : Nat), exec (.stnCountWrite i c ⟨w, decs⟩) s =
      .next (s.modChan c fun x => { x with count := w.setWidth 32, discard := decs }))) ∧
  (∀ (s : State) (c : ChanNo), (s.chan c).discard ≠ 0 →
    s.countDown c = s.modChan c fun x => { x with discard := x.discard - 1 }) ∧
  (∀ (s : State) (c : ChanNo), (s.chan c).cstate = .pending → (s.ring (s.chan c).owner (s.chan c).evtRing).hasCredit = true →
    s.gated c = false → s.servedNow (s.chan c).owner = true → s.canWrite (s.chan c).owner = true →
    ∃ t, exec (.stencilBegin c) s = .next t ∧ .hostRead (s.chan c).owner (s.chan c).paramAddr.toNat 128 ∈ t.out ∧
      t.chan c = { s.chan c with
        cstate := .running, ready := false, flag := false, loops := Vector.replicate 4 0, post := 0, pc := 0, wait := none
        tagBegin := (s.chan c).tag, resv := some (s.chan c).evtRing, line := none, moved := 0, hit := false } ∧
      t.bare = State.bare { s with chans := t.chans }) ∧
  (∀ (s : State) (c : ChanNo) (bs : List Byte), s.runs = true → (s.chan c).cstate = .running → (s.chan c).ready = false →
    bs.length = 128 →
    ((∀ b ∈ bs.drop 96, b = 0) → (∀ k, k < 8 → s.ptrOk (s.chan c).owner (paramPtr bs k) = true) →
      ∃ t, exec (.paramBlockReadDone c bs) s = .next t ∧ (t.chan c).ready = true ∧ (∀ k, vget (t.chan c).ptrs k = paramPtr bs k) ∧
        (∀ k, vget (t.chan c).strides k = paramStride bs k) ∧ (t.chan c).pc = (s.chan c).pc ∧ (t.chan c).cstate = .running ∧
        t = { s with chans := t.chans }) ∧
    ((∃ b ∈ bs.drop 96, b ≠ 0) ∨ (∃ k, k < 8 ∧ s.ptrOk (s.chan c).owner (paramPtr bs k) = false) →
      ∃ t, exec (.paramBlockReadDone c bs) s = .next t ∧ (t.chan c).cstate = .idle ∧ (t.chan c).fault = 0x0A ∧
        t.bare = State.bare { s with chans := t.chans })) ∧
  ∀ (s : State) (c : ChanNo), s.nativeRegs 0 = true → (s.inst 0).fresh = false →
    ((s.chan c).cstate = .running → ∃ t, exec (.stencilManagerStop c) s = .next t ∧ t.chan c = (s.chan c).idle ∧
      t.bare = State.bare { s with chans := t.chans }) ∧
    ((s.chan c).cstate = .idle → ∀ (w : Word) (i : InstNo), i.val = fld w 5 0 → i ≠ (s.chan c).owner →
      ∃ t, exec (.stnOwnerWrite c w) s = .next t ∧ (t.chan c).owner = i ∧ (t.chan c).cstate = .idle ∧ (t.chan c).progWords = 0 ∧
        (t.chan c).count = 0 ∧ (∀ d, d ≠ c → t.chan d = s.chan d) ∧ t = { s with chans := t.chans })

/-- MOVE, FILL and CMP (R265, R268 to R270, R275): MOVE and FILL write their bytes to the hawk or to the host in bursts of at most 512
bytes, CMP sets the flag where the areas differ; each advances its pointers and goes on at the next word once its last burst has been
carried out, and until then a step carries out the bursts it is given. A hawk byte outside the area written keeps its value. The model's
choices it rests on: log 46, 50, 53. It states that these commands complete with their own effect: stencilMove, stencilFill, stencilCmp. -/
def Obligations.StencilData : Prop :=
  (∀ (s : State) (c : ChanNo) (line : List Byte) (w : Word) (bursts : Nat) (src : List Byte), s.Executes c 1 line w →
    let x := (s.lineRead c line).chan c
    let len := fld w 63 40
    let ps := fld w 9 7
    let pd := fld w 6 4
    let off := x.moved
    let n := x.part len bursts
    let bs := s.areaBytes x ps off n src
    s.accessFault x ps len = none → s.accessFault x pd len = none → x.dataHere ps n src = true →
    x.inHawk pd = true ∨ s.canWrite x.owner = true → s.overlap x ps pd len = false →
    ∃ t, exec (.stencilMove c ⟨line, bursts⟩ src .ok) s = .next t ∧
      t.chan c = (if len ≤ off + n then { (x.advance ps (fld w 13 12) len).advance pd (fld w 11 10) len with
          pc := BitVec.ofNat 16 (x.pc.toNat + 1), moved := 0, hit := false }
        else { x with moved := off + n }) ∧
      (∀ d, d ≠ c → t.chan d = s.chan d) ∧
      (x.inHawk pd = true → t.mem.hawk = (s.hawkWrite x.owner (s.areaAt x pd + off) bs).mem.hawk) ∧
      (∀ a, (∀ k, k < bs.length → s.hawkPhys x.owner (s.areaAt x pd + off + k) ≠ some a) → memRead t.mem.hawk a = memRead s.mem.hawk a) ∧
      (x.inHawk pd = false → t.mem.hawk = s.mem.hawk ∧ ∀ j, j < (bs.length + 511) / 512 →
        .hostWrite x.owner (s.areaAt x pd + off + 512 * j) (bytesAt bs (512 * j) 512) ∈ t.out) ∧
      t.bare = State.bare { s with chans := t.chans, mem := { s.mem with hawk := t.mem.hawk } }) ∧
  (∀ (s : State) (c : ChanNo) (line : List Byte) (w : Word) (bursts : Nat), s.Executes c 2 line w →
    let x := (s.lineRead c line).chan c
    let len := fld w 31 11 * 2 ^ fld w 10 9
    let pd := fld w 6 4
    let off := x.moved
    let n := x.part len bursts
    let bs := bytesAt (fillBytes w) off n
    s.accessFault x pd len = none → x.inHawk pd = true ∨ s.canWrite x.owner = true →
    ∃ t, exec (.stencilFill c ⟨line, bursts⟩) s = .next t ∧ (fillBytes w).length = len ∧ bs.length = n ∧
      t.chan c = (if len ≤ off + n then
          { x.advance pd (fld w 8 7) len with pc := BitVec.ofNat 16 (x.pc.toNat + 1), moved := 0, hit := false }
        else { x with moved := off + n }) ∧
      (x.inHawk pd = true → t.mem.hawk = (s.hawkWrite x.owner (s.areaAt x pd + off) bs).mem.hawk) ∧
      (∀ a, (∀ k, k < n → s.hawkPhys x.owner (s.areaAt x pd + off + k) ≠ some a) → memRead t.mem.hawk a = memRead s.mem.hawk a) ∧
      t.bare = State.bare { s with chans := t.chans, mem := { s.mem with hawk := t.mem.hawk } }) ∧
  (∀ (s : State) (c : ChanNo) (line : List Byte) (w : Word) (bursts : Nat) (a b : List Byte), s.Executes c 3 line w →
    let x := (s.lineRead c line).chan c
    let len := fld w 47 24
    let pa := fld w 6 4
    let pb := fld w 9 7
    let off := x.moved
    let n := x.part len bursts
    let hit := x.hit || differs (fld w 15 14) (fld w 63 48) (s.areaBytes x pa off n a) (s.areaBytes x pb off n b)
    s.accessFault x pa len = none → s.accessFault x pb len = none → x.dataHere pa n a = true → x.dataHere pb n b = true →
    (fld w 15 14 = 0 ∨ len % (2 * fld w 15 14) = 0 →
      ∃ t, exec (.stencilCmp c ⟨line, bursts⟩ a b .ok) s = .next t ∧
        (len ≤ off + n → (t.chan c).flag = (hit || (bitOf w 16 && x.flag)) ∧ (t.chan c).moved = 0 ∧ (t.chan c).hit = false ∧
          (t.chan c).pc = BitVec.ofNat 16 (x.pc.toNat + 1) ∧
          (t.chan c).ptrs = ((x.advance pa (fld w 11 10) len).advance pb (fld w 13 12) len).ptrs) ∧
        (off + n < len → t.chan c = { x with moved := off + n, hit := hit }) ∧
        (∀ d, d ≠ c → t.chan d = s.chan d) ∧ t.bare = State.bare { s with chans := t.chans }) ∧
    (fld w 15 14 ≠ 0 → len % (2 * fld w 15 14) ≠ 0 →
      ∃ t, exec (.stencilCmp c ⟨line, bursts⟩ a b .ok) s = .next t ∧ (t.chan c).cstate = .idle ∧ (t.chan c).fault = 0x06)) ∧
  ∀ (x : Chan) (k : Fin 8) (code len : Nat),
    let n := if ptrSpace (vget x.ptrs k) = 2 then 32 else 62
    let y := x.advance k.val code len
    (∀ j, j ≠ k → vget y.ptrs j = vget x.ptrs j) ∧
    fld (vget y.ptrs k) 63 n = fld (vget x.ptrs k) 63 n ∧
    (code = 0 → fld (vget y.ptrs k) (n - 1) 0 = fld (vget x.ptrs k) (n - 1) 0) ∧
    (code = 1 → fld (vget y.ptrs k) (n - 1) 0 = (fld (vget x.ptrs k) (n - 1) 0 + len) % 2 ^ n)

/-- LOOP, WAIT, SIGNAL, JUMP and END (R267, R271 to R274, R277, R278, R280): where each goes on, what it leaves in the loop counter, the
flag, the post and count registers and the gate, and when it faults. The model's choices it rests on: log 46, 48, 52, 53. It states that
these commands complete with their own effect: stencilLoop, stencilWait, stencilWaitSatisfied, stencilWaitTimeout, stencilSignal,
stencilJump, stencilEnd. -/
def Obligations.StencilFlow : Prop :=
  (∀ (s : State) (c : ChanNo) (line : List Byte) (w : Word) (lc : Fin 4), s.Executes c 4 line w → lc.val = fld w 5 4 →
    let x := (s.lineRead c line).chan c
    let old := vget x.loops lc
    let n : BitVec 24 := if old = 0 then BitVec.ofNat 24 (fld w 31 8) - 1 else old - 1
    old ≠ 0 ∨ fld w 31 8 ≠ 0 →
    (n = 0 ∨ x.inProgram (x.target w) = true → ∃ t, exec (.stencilLoop c line) s = .next t ∧
      t.chan c = { x with loops := vset x.loops lc n, moved := 0, hit := false, line := if n = 0 then x.line else none
                          pc := BitVec.ofNat 16 (if n = 0 then x.pc.toNat + 1 else (x.target w).toNat) } ∧
      (∀ d, d ≠ c → t.chan d = s.chan d) ∧ t.bare = State.bare { s with chans := t.chans }) ∧
    (n ≠ 0 → x.inProgram (x.target w) = false → ∃ t, exec (.stencilLoop c line) s = .next t ∧ (t.chan c).cstate = .idle ∧
      (t.chan c).fault = 0x03)) ∧
  (∀ (s : State) (c : ChanNo) (line : List Byte) (w : Word), s.Executes c 5 line w →
    let x := (s.lineRead c line).chan c
    let waits (o : WaitOn) : Prop := ∃ t, exec (.stencilWait c line) s = .next t ∧
      t.chan c = { x with cstate := .waiting, wait := some o, timeout := BitVec.ofNat 24 (fld w 63 40) } ∧
      t.bare = State.bare { s with chans := t.chans }
    (fld w 5 4 = 0 → fld w 23 8 ≠ 0 → waits (.tick (fld w 23 8))) ∧
    (fld w 5 4 = 1 → s.holdsGate x.owner (fld w 19 8) = true → waits (.gate (fld w 19 8))) ∧
    (fld w 5 4 = 1 → s.holdsGate x.owner (fld w 19 8) = false →
      ∃ t, exec (.stencilWait c line) s = .next t ∧ (t.chan c).cstate = .idle ∧ (t.chan c).fault = 0x07) ∧
    (∀ d : ChanNo, d.val = fld w 11 8 → fld w 5 4 = 2 →
      ((s.chan d).owner = x.owner → waits (.chan d (BitVec.ofNat 16 (fld w 39 24)))) ∧
      ((s.chan d).owner ≠ x.owner →
        ∃ t, exec (.stencilWait c line) s = .next t ∧ (t.chan c).cstate = .idle ∧ (t.chan c).fault = 0x08))) ∧
  (∀ (s : State) (c : ChanNo), s.runs = true → (s.chan c).cstate = .waiting →
    let goes (t : State) (flag : Bool) : Prop :=
      t.chan c = { s.chan c with cstate := .running, wait := none, flag := flag, pc := (s.chan c).pc + 1 } ∧
      (∀ d, d ≠ c → t.chan d = s.chan d) ∧ t.bare = State.bare { s with chans := t.chans }
    (∀ o, (s.chan c).wait = some o → s.waitHolds (s.chan c).owner o = true →
      ∃ t, exec (.stencilWaitSatisfied c) s = .next t ∧ goes t false) ∧
    ((s.chan c).timeout ≠ 0 → ∃ t, exec (.stencilWaitTimeout c) s = .next t ∧
      goes t !(((s.chan c).wait.map (s.waitHolds (s.chan c).owner)).getD false))) ∧
  (∀ (s : State) (c : ChanNo) (line : List Byte) (w : Word) (d : ChanNo), s.Executes c 6 line w → d.val = fld w 23 20 →
    bitOf w 4 = false ∨ s.holdsGate (s.chan c).owner (fld w 19 8) = true ∨ s.absorbs (fld w 19 8) = true → bitOf w 6 = false ∨
      (s.chan d).owner = (s.chan c).owner →
    ∃ t, exec (.stencilSignal c line) s = .next t ∧ (t.chan c).pc = BitVec.ofNat 16 ((s.chan c).pc.toNat + 1) ∧
      (t.chan c).cstate = .running ∧ (t.chan c).flag = (s.chan c).flag ∧
      (t.chan c).post = (s.chan c).post + (if bitOf w 7 then 1 else 0) ∧
      (bitOf w 6 = true → (t.chan d).count =
        if (s.chan d).discard ≠ 0 ∨ (s.chan d).count = 0 then (s.chan d).count else (s.chan d).count - 1) ∧
      (bitOf w 4 = true → s.absorbs (fld w 19 8) = true → t.disp.gates = s.disp.gates) ∧
      (bitOf w 4 = true → s.absorbs (fld w 19 8) = false → ∀ g, kget s.disp.gates (fld w 19 8) = some g →
        kget t.disp.gates (fld w 19 8) = some (if g.count = 0 then g else { g with count := g.count - 1 })) ∧
      (bitOf w 4 = false → t.disp = s.disp)) ∧
  (∀ (s : State) (c : ChanNo) (line : List Byte) (w : Word), s.Executes c 7 line w →
    let x := (s.lineRead c line).chan c
    let taken := fld w 5 4 = 0 ∨ (fld w 5 4 = 1 ∧ x.flag = true) ∨ (fld w 5 4 = 2 ∧ x.flag = false)
    (taken → x.inProgram (x.target w) = true → ∃ t, exec (.stencilJump c line) s = .next t ∧
      t.chan c = { x with pc := BitVec.ofNat 16 (x.target w).toNat, flag := x.flag && !bitOf w 6, line := none, moved := 0, hit := false } ∧
      t.bare = State.bare { s with chans := t.chans }) ∧
    (taken → x.inProgram (x.target w) = false → ∃ t, exec (.stencilJump c line) s = .next t ∧ (t.chan c).cstate = .idle ∧
      (t.chan c).fault = 0x03) ∧
    (¬taken → ∃ t, exec (.stencilJump c line) s = .next t ∧
      t.chan c = { x with pc := BitVec.ofNat 16 (x.pc.toNat + 1), moved := 0, hit := false } ∧
      t.bare = State.bare { s with chans := t.chans })) ∧
  (∀ (s : State) (c : ChanNo) (line : List Byte) (w : Word), s.Executes c 8 line w →
    ∃ t, exec (.stencilEnd c line) s = .next t ∧ t.chan c = ((s.lineRead c line).chan c).idle ∧ (∀ d, d ≠ c → t.chan d = s.chan d) ∧
      t.bare = State.bare { s with chans := t.chans }) ∧
  ∀ (s : State) (c : ChanNo) (line : List Byte), s.chanRuns c = true →
    (s.pcOk (s.chan c) = false → ∃ t, exec (.stencilEnd c line) s = .next t ∧ (t.chan c).cstate = .idle ∧ (t.chan c).fault = 0x03) ∧
    (s.pcOk (s.chan c) = true → ((s.chan c).entersLine = true → line.length = 64) →
      fld (s.progWord (s.chan c) line) 3 0 = 0 ∨ 8 < fld (s.progWord (s.chan c) line) 3 0 →
      ∃ t, exec (.stencilEnd c line) s = .next t ∧ (t.chan c).cstate = .idle ∧ (t.chan c).fault = 0x01)

/-! ### Events, the snag log, SMBus and JTAG (R92, R105 to R112, R123, R389 to R394) -/

/-- Completions (R92, R103, R105, R107, R108, R112, R123): the event of a command and of a transfer entry is written at the tail of its
ring, in the fields the layout gives, its slot no longer reserved; the command's or entry's place is passed; the ring's message goes when
its moderation lets it. The model's choices it rests on: log 31, 119. -/
def Obligations.Completions : Prop :=
  (∀ (s : State) (i : InstNo) (e : RingNo) (ev : Event) (now : Bool), s.canWrite i = true → (s.inst i).unsol = [] →
    (s.ring i e).blocked = false →
    let t := s.post i e ev now
    .hostWrite i ((s.ring i e).base.toNat + 32 * (s.ring i e).tail.toNat) (leBytes 32 ev.toNat) ∈ t.out ∧
    (t.ring i e).tail = BitVec.ofNat 16 (((s.ring i e).tail.toNat + 1) % (s.ring i e).entries) ∧
    (t.ring i e).reserved = (s.ring i e).reserved - 1 ∧ (∀ f, f ≠ e → t.ring i f = s.ring i f) ∧
    (now = true ∨ (s.ring i e).modInterval = 0 ∨ (s.ring i e).modCount.toNat ≤ (s.ring i e).counted + 1 →
      (t.ring i e).counted = 0 ∧
      ((s.inst i).msixEn = true → (s.inst i).masked (s.ring i e).vector.toNat = false → s.pw.l1 = none →
        .msix i (s.ring i e).vector.toNat ∈ t.out)) ∧
    t.bare = s.bare) ∧
  (∀ (s : State) (i : InstNo) (slot : BitVec 16) (st : Status) (r : Nat) (c : Cmd), s.cmd i slot = some c → s.canWrite i = true →
    (s.inst i).unsol = [] → (s.ring i 0).blocked = false → r < 2 ^ 96 → (∀ x ∈ s.eps, x.2.opening ≠ some slot) →
    let t := s.finish i slot st r
    (∃ ev : Event, .hostWrite i ((s.ring i 0).base.toNat + 32 * (s.ring i 0).tail.toNat) (leBytes 32 ev.toNat) ∈ t.out ∧
      fld ev 7 0 = 2 ∧ fld ev 15 8 = st.code ∧ fld ev 31 16 = slot.toNat ∧ fld ev 127 32 = r ∧ fld ev 223 192 = fld c.entry 63 32 ∧
      fld ev 255 224 = 0) ∧
    t.cmd i slot = none ∧
    ((s.inst i).cmdHead = slot → (s.inst i).cmdDone = [] →
      (t.inst i).cmdHead = BitVec.ofNat 16 ((slot.toNat + 1) % (s.inst i).cmdEntries)) ∧
    ((s.inst i).cmdHead ≠ slot → (s.inst i).cmdDone = [] → (t.inst i).cmdHead = (s.inst i).cmdHead ∧ (t.inst i).cmdDone = [slot]) ∧
    t.bare = s.bare) ∧
  ∀ (s : State) (k : Nat) (st : Status) (e : Ep) (x : Xfer), s.ep k = some e → e.cur = some x → s.canWrite e.inst = true →
    (s.inst e.inst).unsol = [] → (s.ring e.inst e.evtRing).blocked = false → x.bytes < 2 ^ 24 → s.localIx e k < 2 ^ 17 →
    let t := s.complete k st
    (teSuppress x.entry = false ∨ st ≠ .success → ∃ ev : Event,
      .hostWrite e.inst ((s.ring e.inst e.evtRing).base.toNat + 32 * (s.ring e.inst e.evtRing).tail.toNat) (leBytes 32 ev.toNat) ∈ t.out ∧
      fld ev 7 0 = 1 ∧ fld ev 15 8 = st.code ∧ fld ev 31 16 = x.slot.toNat ∧ fld ev 48 32 = s.localIx e k ∧ fld ev 87 64 = x.bytes ∧
      fld ev 127 96 = s.stamp ∧ fld ev 255 192 = fld x.entry 255 192) ∧
    (teSuppress x.entry = true → st = .success → teGateEn x.entry = false → x.item = none → t.out = s.out) ∧
    t.ep k = some { e with
      trHead := BitVec.ofNat 16 ((e.trHead.toNat + 1) % e.ringSize), cur := none, bytesDone := e.bytesDone + BitVec.ofNat 64 x.bytes } ∧
    ∀ j, j ≠ k → t.ep j = s.ep j

/-- The snag log, SMBus and JTAG (R389 to R394, R433, R434): an occurrence merges with the newest entry when it is the same within 1 s, is
kept as a new entry with the next `sseq`, or with the buffer full takes the newest place; a flush writes the buffer to flash; HEALTH,
SNAG_RANGE, SNAG_ENTRY and REQ_RESULT answer what is held; the TAP takes an instruction that the life cycle accepts. The model's choices it
rests on: log 9, 12, 120. It states that these commands complete with their own effect: snagLogFlush, smbusHealth, smbusSnagEntry,
smbusSnagRange, smbusReqResult, smbusClockLowTimeout, tapReset, tapInstruction. -/
def Obligations.Management : Prop :=
  (∀ (s : State) (code : BitVec 8) (detail : List Byte), s.pw.mode.isRunning = true → detail.length ≤ 16 →
    let t := s.record code detail
    let full := detail ++ List.replicate (16 - detail.length) 0
    t = { s with freeIx := t.freeIx, snag := t.snag } ∧ t.snag.flash.length = s.snag.flash.length ∧ t.snag.index = s.snag.index ∧
    (s.snag.buffer = [] → s.snag.flash = [] →
      ∃ e, t.snag.buffer = [e] ∧ e.sseq = s.snag.next ∧ e.code = code ∧ e.detail = full ∧ e.merged = 0 ∧
        e.frame = BitVec.ofNat 64 s.frame ∧ e.mode = BitVec.ofNat 8 s.pw.mode.code ∧ t.snag.next = s.snag.next + 1) ∧
    (∀ x l at', s.snag.buffer = x :: l → x.last = some at' → x.code = code → x.detail = full → s.pl.subN ≤ at' + 8000 →
      t.snag.buffer = { x with merged := satInc x.merged, last := some s.pl.subN } :: l ∧ t.snag.next = s.snag.next) ∧
    (∀ x l, s.snag.buffer = x :: l → x.code ≠ code →
      (s.snag.buffer.length < 64 →
        ∃ e, t.snag.buffer = e :: x :: l ∧ e.sseq = s.snag.next ∧ e.code = code ∧ e.detail = full ∧ t.snag.next = s.snag.next + 1) ∧
      (64 ≤ s.snag.buffer.length →
        ∃ e, t.snag.buffer = e :: l ∧ e.sseq = x.sseq ∧ e.code = code ∧ e.detail = full ∧ e.merged = satInc x.merged))) ∧
  (∀ s : State, s.spiOurs = true → s.snag.buffer.length + s.snag.flash.length ≤ 8192 →
    ∃ t, exec .snagLogFlush s = .next t ∧ t.snag.buffer = [] ∧ t.snag.flash = s.snag.buffer ++ s.snag.flash ∧
      (∀ e ∈ s.snag.buffer, .flash (0x450000 + 32 * (e.sseq.toNat % 8192)) e.bytes ∈ t.out) ∧
      t = { s with out := t.out, snag := { s.snag with buffer := [], flash := t.snag.flash } }) ∧
  (∀ s : State, s.pw.mode ≠ .off → s.health.length = 24 ∧ s.health.take 2 = [BitVec.ofNat 8 s.pw.mode.code, BitVec.ofNat 8 s.pw.shedStep] ∧
    exec .smbusHealth s = .next { s with out := .smbus s.health :: s.out }) ∧
  (∀ (s : State) (q : BitVec 32), s.pw.mode ≠ .off →
    (∀ e, s.snag.find q = some e →
      exec (.smbusSnagEntry q) s = .next { s with out := .smbus e.bytes :: s.out, pw := { s.pw with snagSel := q } }) ∧
    (s.snag.find q = none → exec (.smbusSnagEntry q) s =
      .next { s with out := .smbus (List.replicate 32 0) :: s.out, pw := { s.pw with snagSel := q } })) ∧
  (∀ s : State, s.pw.mode.isRunning = true ∨ s.pw.mode = .standby →
    (∀ a b, s.snag.oldest = some a → s.snag.newest = some b → exec .smbusSnagRange s =
      .next { s with out := .smbus (leBytes 4 a.sseq.toNat ++ leBytes 4 b.sseq.toNat) :: s.out }) ∧
    exec .smbusReqResult s = .next { s with out := .smbus [s.pw.reqResult] :: s.out }) ∧
  ∀ s : State, exec .smbusClockLowTimeout s = .next s ∧ exec .tapReset s = .next { s with pw := { s.pw with tap := .idcode } } ∧
    ∀ x : TapInstr, exec (.tapInstruction x) s = .next { s with pw := { s.pw with
      tap := match x with
        | .bypass => .bypass
        | .idcode => .idcode
        | .samplePreload => if s.pw.lcState = .blank ∨ s.pw.lcState = .fieldOpen ∨ s.pw.lcState = .return_ then .samplePreload else .bypass
        | .extest => if s.pw.lcState = .blank ∨ s.pw.lcState = .fieldOpen ∨ s.pw.lcState = .return_ then .extest else .bypass
        | .debugCore => if s.pw.lcState = .fieldOpen ∨ s.pw.lcState = .return_ then .debugCore else .bypass
        | .debugLath => if s.pw.lcState = .fieldOpen ∨ s.pw.lcState = .return_ then .debugLath else .bypass
        | .other => .bypass } }
end

