-- ==== Sys2Proof/Laws/State.lean ====
section
/-!
SUPPORT. Reading a field of the state, or one of its objects, after one of the named updates: one lemma per field and update, all true
by definition.
-/
namespace Sys2Proof.Machine

variable (s : State)

@[simp] theorem State.setPort_pending (p : PortNo) (x : Port) : (s.setPort p x).pending = s.pending := rfl
@[simp] theorem State.setPort_out (p : PortNo) (x : Port) : (s.setPort p x).out = s.out := rfl
@[simp] theorem State.setPort_freeIx (p : PortNo) (x : Port) : (s.setPort p x).freeIx = s.freeIx := rfl
@[simp] theorem State.setPort_nextId (p : PortNo) (x : Port) : (s.setPort p x).nextId = s.nextId := rfl
@[simp] theorem State.setPort_pw (p : PortNo) (x : Port) : (s.setPort p x).pw = s.pw := rfl
@[simp] theorem State.setPort_snag (p : PortNo) (x : Port) : (s.setPort p x).snag = s.snag := rfl
@[simp] theorem State.setPort_boot (p : PortNo) (x : Port) : (s.setPort p x).boot = s.boot := rfl
@[simp] theorem State.setPort_pl (p : PortNo) (x : Port) : (s.setPort p x).pl = s.pl := rfl
@[simp] theorem State.setPort_ports (p : PortNo) (x : Port) : (s.setPort p x).ports = vset s.ports p x := rfl
@[simp] theorem State.setPort_trowels (p : PortNo) (x : Port) : (s.setPort p x).trowels = s.trowels := rfl
@[simp] theorem State.setPort_insts (p : PortNo) (x : Port) : (s.setPort p x).insts = s.insts := rfl
@[simp] theorem State.setPort_eps (p : PortNo) (x : Port) : (s.setPort p x).eps = s.eps := rfl
@[simp] theorem State.setPort_devs (p : PortNo) (x : Port) : (s.setPort p x).devs = s.devs := rfl
@[simp] theorem State.setPort_deliveries (p : PortNo) (x : Port) : (s.setPort p x).deliveries = s.deliveries := rfl
@[simp] theorem State.setPort_commits (p : PortNo) (x : Port) : (s.setPort p x).commits = s.commits := rfl
@[simp] theorem State.setPort_tree (p : PortNo) (x : Port) : (s.setPort p x).tree = s.tree := rfl
@[simp] theorem State.setPort_chans (p : PortNo) (x : Port) : (s.setPort p x).chans = s.chans := rfl
@[simp] theorem State.setPort_disp (p : PortNo) (x : Port) : (s.setPort p x).disp = s.disp := rfl
@[simp] theorem State.setPort_cnt (p : PortNo) (x : Port) : (s.setPort p x).cnt = s.cnt := rfl
@[simp] theorem State.setPort_mem (p : PortNo) (x : Port) : (s.setPort p x).mem = s.mem := rfl
@[simp] theorem State.setPort_saveCount (p : PortNo) (x : Port) : (s.setPort p x).saveCount = s.saveCount := rfl
@[simp] theorem State.setPort_trowel (p : PortNo) (x : Port) (k' : TrowelNo) : (s.setPort p x).trowel k' = s.trowel k' := rfl
@[simp] theorem State.setPort_inst (p : PortNo) (x : Port) (i' : InstNo) : (s.setPort p x).inst i' = s.inst i' := rfl
@[simp] theorem State.setPort_chan (p : PortNo) (x : Port) (c' : ChanNo) : (s.setPort p x).chan c' = s.chan c' := rfl
@[simp] theorem State.setPort_ep (p : PortNo) (x : Port) (j' : Nat) : (s.setPort p x).ep j' = s.ep j' := rfl
@[simp] theorem State.setPort_dev (p : PortNo) (x : Port) (z' : Nat) : (s.setPort p x).dev z' = s.dev z' := rfl
@[simp] theorem State.setPort_queue (p : PortNo) (x : Port) (q' : QueueNo) : (s.setPort p x).queue q' = s.queue q' := rfl
@[simp] theorem State.setPort_group (p : PortNo) (x : Port) (g' : GroupNo) : (s.setPort p x).group g' = s.group g' := rfl
@[simp] theorem State.setPort_ring (p : PortNo) (x : Port) (i' : InstNo) (e' : RingNo) : (s.setPort p x).ring i' e' = s.ring i' e' := rfl

@[simp] theorem State.modPort_pending (p : PortNo) (f : Port → Port) : (s.modPort p f).pending = s.pending := rfl
@[simp] theorem State.modPort_out (p : PortNo) (f : Port → Port) : (s.modPort p f).out = s.out := rfl
@[simp] theorem State.modPort_freeIx (p : PortNo) (f : Port → Port) : (s.modPort p f).freeIx = s.freeIx := rfl
@[simp] theorem State.modPort_nextId (p : PortNo) (f : Port → Port) : (s.modPort p f).nextId = s.nextId := rfl
@[simp] theorem State.modPort_pw (p : PortNo) (f : Port → Port) : (s.modPort p f).pw = s.pw := rfl
@[simp] theorem State.modPort_snag (p : PortNo) (f : Port → Port) : (s.modPort p f).snag = s.snag := rfl
@[simp] theorem State.modPort_boot (p : PortNo) (f : Port → Port) : (s.modPort p f).boot = s.boot := rfl
@[simp] theorem State.modPort_pl (p : PortNo) (f : Port → Port) : (s.modPort p f).pl = s.pl := rfl
@[simp] theorem State.modPort_ports (p : PortNo) (f : Port → Port) : (s.modPort p f).ports = vset s.ports p (f (s.port p)) := rfl
@[simp] theorem State.modPort_trowels (p : PortNo) (f : Port → Port) : (s.modPort p f).trowels = s.trowels := rfl
@[simp] theorem State.modPort_insts (p : PortNo) (f : Port → Port) : (s.modPort p f).insts = s.insts := rfl
@[simp] theorem State.modPort_eps (p : PortNo) (f : Port → Port) : (s.modPort p f).eps = s.eps := rfl
@[simp] theorem State.modPort_devs (p : PortNo) (f : Port → Port) : (s.modPort p f).devs = s.devs := rfl
@[simp] theorem State.modPort_deliveries (p : PortNo) (f : Port → Port) : (s.modPort p f).deliveries = s.deliveries := rfl
@[simp] theorem State.modPort_commits (p : PortNo) (f : Port → Port) : (s.modPort p f).commits = s.commits := rfl
@[simp] theorem State.modPort_tree (p : PortNo) (f : Port → Port) : (s.modPort p f).tree = s.tree := rfl
@[simp] theorem State.modPort_chans (p : PortNo) (f : Port → Port) : (s.modPort p f).chans = s.chans := rfl
@[simp] theorem State.modPort_disp (p : PortNo) (f : Port → Port) : (s.modPort p f).disp = s.disp := rfl
@[simp] theorem State.modPort_cnt (p : PortNo) (f : Port → Port) : (s.modPort p f).cnt = s.cnt := rfl
@[simp] theorem State.modPort_mem (p : PortNo) (f : Port → Port) : (s.modPort p f).mem = s.mem := rfl
@[simp] theorem State.modPort_saveCount (p : PortNo) (f : Port → Port) : (s.modPort p f).saveCount = s.saveCount := rfl
@[simp] theorem State.modPort_trowel (p : PortNo) (f : Port → Port) (k' : TrowelNo) : (s.modPort p f).trowel k' = s.trowel k' := rfl
@[simp] theorem State.modPort_inst (p : PortNo) (f : Port → Port) (i' : InstNo) : (s.modPort p f).inst i' = s.inst i' := rfl
@[simp] theorem State.modPort_chan (p : PortNo) (f : Port → Port) (c' : ChanNo) : (s.modPort p f).chan c' = s.chan c' := rfl
@[simp] theorem State.modPort_ep (p : PortNo) (f : Port → Port) (j' : Nat) : (s.modPort p f).ep j' = s.ep j' := rfl
@[simp] theorem State.modPort_dev (p : PortNo) (f : Port → Port) (z' : Nat) : (s.modPort p f).dev z' = s.dev z' := rfl
@[simp] theorem State.modPort_queue (p : PortNo) (f : Port → Port) (q' : QueueNo) : (s.modPort p f).queue q' = s.queue q' := rfl
@[simp] theorem State.modPort_group (p : PortNo) (f : Port → Port) (g' : GroupNo) : (s.modPort p f).group g' = s.group g' := rfl
@[simp] theorem State.modPort_ring (p : PortNo) (f : Port → Port) (i' : InstNo) (e' : RingNo) : (s.modPort p f).ring i' e' = s.ring i' e' := rfl

@[simp] theorem State.setTrowel_pending (k : TrowelNo) (x : Trowel) : (s.setTrowel k x).pending = s.pending := rfl
@[simp] theorem State.setTrowel_out (k : TrowelNo) (x : Trowel) : (s.setTrowel k x).out = s.out := rfl
@[simp] theorem State.setTrowel_freeIx (k : TrowelNo) (x : Trowel) : (s.setTrowel k x).freeIx = s.freeIx := rfl
@[simp] theorem State.setTrowel_nextId (k : TrowelNo) (x : Trowel) : (s.setTrowel k x).nextId = s.nextId := rfl
@[simp] theorem State.setTrowel_pw (k : TrowelNo) (x : Trowel) : (s.setTrowel k x).pw = s.pw := rfl
@[simp] theorem State.setTrowel_snag (k : TrowelNo) (x : Trowel) : (s.setTrowel k x).snag = s.snag := rfl
@[simp] theorem State.setTrowel_boot (k : TrowelNo) (x : Trowel) : (s.setTrowel k x).boot = s.boot := rfl
@[simp] theorem State.setTrowel_pl (k : TrowelNo) (x : Trowel) : (s.setTrowel k x).pl = s.pl := rfl
@[simp] theorem State.setTrowel_ports (k : TrowelNo) (x : Trowel) : (s.setTrowel k x).ports = s.ports := rfl
@[simp] theorem State.setTrowel_trowels (k : TrowelNo) (x : Trowel) : (s.setTrowel k x).trowels = vset s.trowels k x := rfl
@[simp] theorem State.setTrowel_insts (k : TrowelNo) (x : Trowel) : (s.setTrowel k x).insts = s.insts := rfl
@[simp] theorem State.setTrowel_eps (k : TrowelNo) (x : Trowel) : (s.setTrowel k x).eps = s.eps := rfl
@[simp] theorem State.setTrowel_devs (k : TrowelNo) (x : Trowel) : (s.setTrowel k x).devs = s.devs := rfl
@[simp] theorem State.setTrowel_deliveries (k : TrowelNo) (x : Trowel) : (s.setTrowel k x).deliveries = s.deliveries := rfl
@[simp] theorem State.setTrowel_commits (k : TrowelNo) (x : Trowel) : (s.setTrowel k x).commits = s.commits := rfl
@[simp] theorem State.setTrowel_tree (k : TrowelNo) (x : Trowel) : (s.setTrowel k x).tree = s.tree := rfl
@[simp] theorem State.setTrowel_chans (k : TrowelNo) (x : Trowel) : (s.setTrowel k x).chans = s.chans := rfl
@[simp] theorem State.setTrowel_disp (k : TrowelNo) (x : Trowel) : (s.setTrowel k x).disp = s.disp := rfl
@[simp] theorem State.setTrowel_cnt (k : TrowelNo) (x : Trowel) : (s.setTrowel k x).cnt = s.cnt := rfl
@[simp] theorem State.setTrowel_mem (k : TrowelNo) (x : Trowel) : (s.setTrowel k x).mem = s.mem := rfl
@[simp] theorem State.setTrowel_saveCount (k : TrowelNo) (x : Trowel) : (s.setTrowel k x).saveCount = s.saveCount := rfl
@[simp] theorem State.setTrowel_port (k : TrowelNo) (x : Trowel) (q' : PortNo) : (s.setTrowel k x).port q' = s.port q' := rfl
@[simp] theorem State.setTrowel_inst (k : TrowelNo) (x : Trowel) (i' : InstNo) : (s.setTrowel k x).inst i' = s.inst i' := rfl
@[simp] theorem State.setTrowel_chan (k : TrowelNo) (x : Trowel) (c' : ChanNo) : (s.setTrowel k x).chan c' = s.chan c' := rfl
@[simp] theorem State.setTrowel_ep (k : TrowelNo) (x : Trowel) (j' : Nat) : (s.setTrowel k x).ep j' = s.ep j' := rfl
@[simp] theorem State.setTrowel_dev (k : TrowelNo) (x : Trowel) (z' : Nat) : (s.setTrowel k x).dev z' = s.dev z' := rfl
@[simp] theorem State.setTrowel_queue (k : TrowelNo) (x : Trowel) (q' : QueueNo) : (s.setTrowel k x).queue q' = s.queue q' := rfl
@[simp] theorem State.setTrowel_group (k : TrowelNo) (x : Trowel) (g' : GroupNo) : (s.setTrowel k x).group g' = s.group g' := rfl
@[simp] theorem State.setTrowel_ring (k : TrowelNo) (x : Trowel) (i' : InstNo) (e' : RingNo) : (s.setTrowel k x).ring i' e' = s.ring i' e' := rfl

@[simp] theorem State.modTrowel_pending (k : TrowelNo) (f : Trowel → Trowel) : (s.modTrowel k f).pending = s.pending := rfl
@[simp] theorem State.modTrowel_out (k : TrowelNo) (f : Trowel → Trowel) : (s.modTrowel k f).out = s.out := rfl
@[simp] theorem State.modTrowel_freeIx (k : TrowelNo) (f : Trowel → Trowel) : (s.modTrowel k f).freeIx = s.freeIx := rfl
@[simp] theorem State.modTrowel_nextId (k : TrowelNo) (f : Trowel → Trowel) : (s.modTrowel k f).nextId = s.nextId := rfl
@[simp] theorem State.modTrowel_pw (k : TrowelNo) (f : Trowel → Trowel) : (s.modTrowel k f).pw = s.pw := rfl
@[simp] theorem State.modTrowel_snag (k : TrowelNo) (f : Trowel → Trowel) : (s.modTrowel k f).snag = s.snag := rfl
@[simp] theorem State.modTrowel_boot (k : TrowelNo) (f : Trowel → Trowel) : (s.modTrowel k f).boot = s.boot := rfl
@[simp] theorem State.modTrowel_pl (k : TrowelNo) (f : Trowel → Trowel) : (s.modTrowel k f).pl = s.pl := rfl
@[simp] theorem State.modTrowel_ports (k : TrowelNo) (f : Trowel → Trowel) : (s.modTrowel k f).ports = s.ports := rfl
@[simp] theorem State.modTrowel_trowels (k : TrowelNo) (f : Trowel → Trowel) : (s.modTrowel k f).trowels = vset s.trowels k (f (s.trowel k)) := rfl
@[simp] theorem State.modTrowel_insts (k : TrowelNo) (f : Trowel → Trowel) : (s.modTrowel k f).insts = s.insts := rfl
@[simp] theorem State.modTrowel_eps (k : TrowelNo) (f : Trowel → Trowel) : (s.modTrowel k f).eps = s.eps := rfl
@[simp] theorem State.modTrowel_devs (k : TrowelNo) (f : Trowel → Trowel) : (s.modTrowel k f).devs = s.devs := rfl
@[simp] theorem State.modTrowel_deliveries (k : TrowelNo) (f : Trowel → Trowel) : (s.modTrowel k f).deliveries = s.deliveries := rfl
@[simp] theorem State.modTrowel_commits (k : TrowelNo) (f : Trowel → Trowel) : (s.modTrowel k f).commits = s.commits := rfl
@[simp] theorem State.modTrowel_tree (k : TrowelNo) (f : Trowel → Trowel) : (s.modTrowel k f).tree = s.tree := rfl
@[simp] theorem State.modTrowel_chans (k : TrowelNo) (f : Trowel → Trowel) : (s.modTrowel k f).chans = s.chans := rfl
@[simp] theorem State.modTrowel_disp (k : TrowelNo) (f : Trowel → Trowel) : (s.modTrowel k f).disp = s.disp := rfl
@[simp] theorem State.modTrowel_cnt (k : TrowelNo) (f : Trowel → Trowel) : (s.modTrowel k f).cnt = s.cnt := rfl
@[simp] theorem State.modTrowel_mem (k : TrowelNo) (f : Trowel → Trowel) : (s.modTrowel k f).mem = s.mem := rfl
@[simp] theorem State.modTrowel_saveCount (k : TrowelNo) (f : Trowel → Trowel) : (s.modTrowel k f).saveCount = s.saveCount := rfl
@[simp] theorem State.modTrowel_port (k : TrowelNo) (f : Trowel → Trowel) (q' : PortNo) : (s.modTrowel k f).port q' = s.port q' := rfl
@[simp] theorem State.modTrowel_inst (k : TrowelNo) (f : Trowel → Trowel) (i' : InstNo) : (s.modTrowel k f).inst i' = s.inst i' := rfl
@[simp] theorem State.modTrowel_chan (k : TrowelNo) (f : Trowel → Trowel) (c' : ChanNo) : (s.modTrowel k f).chan c' = s.chan c' := rfl
@[simp] theorem State.modTrowel_ep (k : TrowelNo) (f : Trowel → Trowel) (j' : Nat) : (s.modTrowel k f).ep j' = s.ep j' := rfl
@[simp] theorem State.modTrowel_dev (k : TrowelNo) (f : Trowel → Trowel) (z' : Nat) : (s.modTrowel k f).dev z' = s.dev z' := rfl
@[simp] theorem State.modTrowel_queue (k : TrowelNo) (f : Trowel → Trowel) (q' : QueueNo) : (s.modTrowel k f).queue q' = s.queue q' := rfl
@[simp] theorem State.modTrowel_group (k : TrowelNo) (f : Trowel → Trowel) (g' : GroupNo) : (s.modTrowel k f).group g' = s.group g' := rfl
@[simp] theorem State.modTrowel_ring (k : TrowelNo) (f : Trowel → Trowel) (i' : InstNo) (e' : RingNo) : (s.modTrowel k f).ring i' e' = s.ring i' e' := rfl

@[simp] theorem State.setInst_pending (i : InstNo) (x : Inst) : (s.setInst i x).pending = s.pending := rfl
@[simp] theorem State.setInst_out (i : InstNo) (x : Inst) : (s.setInst i x).out = s.out := rfl
@[simp] theorem State.setInst_freeIx (i : InstNo) (x : Inst) : (s.setInst i x).freeIx = s.freeIx := rfl
@[simp] theorem State.setInst_nextId (i : InstNo) (x : Inst) : (s.setInst i x).nextId = s.nextId := rfl
@[simp] theorem State.setInst_pw (i : InstNo) (x : Inst) : (s.setInst i x).pw = s.pw := rfl
@[simp] theorem State.setInst_snag (i : InstNo) (x : Inst) : (s.setInst i x).snag = s.snag := rfl
@[simp] theorem State.setInst_boot (i : InstNo) (x : Inst) : (s.setInst i x).boot = s.boot := rfl
@[simp] theorem State.setInst_pl (i : InstNo) (x : Inst) : (s.setInst i x).pl = s.pl := rfl
@[simp] theorem State.setInst_ports (i : InstNo) (x : Inst) : (s.setInst i x).ports = s.ports := rfl
@[simp] theorem State.setInst_trowels (i : InstNo) (x : Inst) : (s.setInst i x).trowels = s.trowels := rfl
@[simp] theorem State.setInst_insts (i : InstNo) (x : Inst) : (s.setInst i x).insts = vset s.insts i x := rfl
@[simp] theorem State.setInst_eps (i : InstNo) (x : Inst) : (s.setInst i x).eps = s.eps := rfl
@[simp] theorem State.setInst_devs (i : InstNo) (x : Inst) : (s.setInst i x).devs = s.devs := rfl
@[simp] theorem State.setInst_deliveries (i : InstNo) (x : Inst) : (s.setInst i x).deliveries = s.deliveries := rfl
@[simp] theorem State.setInst_commits (i : InstNo) (x : Inst) : (s.setInst i x).commits = s.commits := rfl
@[simp] theorem State.setInst_tree (i : InstNo) (x : Inst) : (s.setInst i x).tree = s.tree := rfl
@[simp] theorem State.setInst_chans (i : InstNo) (x : Inst) : (s.setInst i x).chans = s.chans := rfl
@[simp] theorem State.setInst_disp (i : InstNo) (x : Inst) : (s.setInst i x).disp = s.disp := rfl
@[simp] theorem State.setInst_cnt (i : InstNo) (x : Inst) : (s.setInst i x).cnt = s.cnt := rfl
@[simp] theorem State.setInst_mem (i : InstNo) (x : Inst) : (s.setInst i x).mem = s.mem := rfl
@[simp] theorem State.setInst_saveCount (i : InstNo) (x : Inst) : (s.setInst i x).saveCount = s.saveCount := rfl
@[simp] theorem State.setInst_port (i : InstNo) (x : Inst) (q' : PortNo) : (s.setInst i x).port q' = s.port q' := rfl
@[simp] theorem State.setInst_trowel (i : InstNo) (x : Inst) (k' : TrowelNo) : (s.setInst i x).trowel k' = s.trowel k' := rfl
@[simp] theorem State.setInst_chan (i : InstNo) (x : Inst) (c' : ChanNo) : (s.setInst i x).chan c' = s.chan c' := rfl
@[simp] theorem State.setInst_ep (i : InstNo) (x : Inst) (j' : Nat) : (s.setInst i x).ep j' = s.ep j' := rfl
@[simp] theorem State.setInst_dev (i : InstNo) (x : Inst) (z' : Nat) : (s.setInst i x).dev z' = s.dev z' := rfl
@[simp] theorem State.setInst_queue (i : InstNo) (x : Inst) (q' : QueueNo) : (s.setInst i x).queue q' = s.queue q' := rfl
@[simp] theorem State.setInst_group (i : InstNo) (x : Inst) (g' : GroupNo) : (s.setInst i x).group g' = s.group g' := rfl

@[simp] theorem State.modInst_pending (i : InstNo) (f : Inst → Inst) : (s.modInst i f).pending = s.pending := rfl
@[simp] theorem State.modInst_out (i : InstNo) (f : Inst → Inst) : (s.modInst i f).out = s.out := rfl
@[simp] theorem State.modInst_freeIx (i : InstNo) (f : Inst → Inst) : (s.modInst i f).freeIx = s.freeIx := rfl
@[simp] theorem State.modInst_nextId (i : InstNo) (f : Inst → Inst) : (s.modInst i f).nextId = s.nextId := rfl
@[simp] theorem State.modInst_pw (i : InstNo) (f : Inst → Inst) : (s.modInst i f).pw = s.pw := rfl
@[simp] theorem State.modInst_snag (i : InstNo) (f : Inst → Inst) : (s.modInst i f).snag = s.snag := rfl
@[simp] theorem State.modInst_boot (i : InstNo) (f : Inst → Inst) : (s.modInst i f).boot = s.boot := rfl
@[simp] theorem State.modInst_pl (i : InstNo) (f : Inst → Inst) : (s.modInst i f).pl = s.pl := rfl
@[simp] theorem State.modInst_ports (i : InstNo) (f : Inst → Inst) : (s.modInst i f).ports = s.ports := rfl
@[simp] theorem State.modInst_trowels (i : InstNo) (f : Inst → Inst) : (s.modInst i f).trowels = s.trowels := rfl
@[simp] theorem State.modInst_insts (i : InstNo) (f : Inst → Inst) : (s.modInst i f).insts = vset s.insts i (f (s.inst i)) := rfl
@[simp] theorem State.modInst_eps (i : InstNo) (f : Inst → Inst) : (s.modInst i f).eps = s.eps := rfl
@[simp] theorem State.modInst_devs (i : InstNo) (f : Inst → Inst) : (s.modInst i f).devs = s.devs := rfl
@[simp] theorem State.modInst_deliveries (i : InstNo) (f : Inst → Inst) : (s.modInst i f).deliveries = s.deliveries := rfl
@[simp] theorem State.modInst_commits (i : InstNo) (f : Inst → Inst) : (s.modInst i f).commits = s.commits := rfl
@[simp] theorem State.modInst_tree (i : InstNo) (f : Inst → Inst) : (s.modInst i f).tree = s.tree := rfl
@[simp] theorem State.modInst_chans (i : InstNo) (f : Inst → Inst) : (s.modInst i f).chans = s.chans := rfl
@[simp] theorem State.modInst_disp (i : InstNo) (f : Inst → Inst) : (s.modInst i f).disp = s.disp := rfl
@[simp] theorem State.modInst_cnt (i : InstNo) (f : Inst → Inst) : (s.modInst i f).cnt = s.cnt := rfl
@[simp] theorem State.modInst_mem (i : InstNo) (f : Inst → Inst) : (s.modInst i f).mem = s.mem := rfl
@[simp] theorem State.modInst_saveCount (i : InstNo) (f : Inst → Inst) : (s.modInst i f).saveCount = s.saveCount := rfl
@[simp] theorem State.modInst_port (i : InstNo) (f : Inst → Inst) (q' : PortNo) : (s.modInst i f).port q' = s.port q' := rfl
@[simp] theorem State.modInst_trowel (i : InstNo) (f : Inst → Inst) (k' : TrowelNo) : (s.modInst i f).trowel k' = s.trowel k' := rfl
@[simp] theorem State.modInst_chan (i : InstNo) (f : Inst → Inst) (c' : ChanNo) : (s.modInst i f).chan c' = s.chan c' := rfl
@[simp] theorem State.modInst_ep (i : InstNo) (f : Inst → Inst) (j' : Nat) : (s.modInst i f).ep j' = s.ep j' := rfl
@[simp] theorem State.modInst_dev (i : InstNo) (f : Inst → Inst) (z' : Nat) : (s.modInst i f).dev z' = s.dev z' := rfl
@[simp] theorem State.modInst_queue (i : InstNo) (f : Inst → Inst) (q' : QueueNo) : (s.modInst i f).queue q' = s.queue q' := rfl
@[simp] theorem State.modInst_group (i : InstNo) (f : Inst → Inst) (g' : GroupNo) : (s.modInst i f).group g' = s.group g' := rfl

@[simp] theorem State.setChan_pending (c : ChanNo) (x : Chan) : (s.setChan c x).pending = s.pending := rfl
@[simp] theorem State.setChan_out (c : ChanNo) (x : Chan) : (s.setChan c x).out = s.out := rfl
@[simp] theorem State.setChan_freeIx (c : ChanNo) (x : Chan) : (s.setChan c x).freeIx = s.freeIx := rfl
@[simp] theorem State.setChan_nextId (c : ChanNo) (x : Chan) : (s.setChan c x).nextId = s.nextId := rfl
@[simp] theorem State.setChan_pw (c : ChanNo) (x : Chan) : (s.setChan c x).pw = s.pw := rfl
@[simp] theorem State.setChan_snag (c : ChanNo) (x : Chan) : (s.setChan c x).snag = s.snag := rfl
@[simp] theorem State.setChan_boot (c : ChanNo) (x : Chan) : (s.setChan c x).boot = s.boot := rfl
@[simp] theorem State.setChan_pl (c : ChanNo) (x : Chan) : (s.setChan c x).pl = s.pl := rfl
@[simp] theorem State.setChan_ports (c : ChanNo) (x : Chan) : (s.setChan c x).ports = s.ports := rfl
@[simp] theorem State.setChan_trowels (c : ChanNo) (x : Chan) : (s.setChan c x).trowels = s.trowels := rfl
@[simp] theorem State.setChan_insts (c : ChanNo) (x : Chan) : (s.setChan c x).insts = s.insts := rfl
@[simp] theorem State.setChan_eps (c : ChanNo) (x : Chan) : (s.setChan c x).eps = s.eps := rfl
@[simp] theorem State.setChan_devs (c : ChanNo) (x : Chan) : (s.setChan c x).devs = s.devs := rfl
@[simp] theorem State.setChan_deliveries (c : ChanNo) (x : Chan) : (s.setChan c x).deliveries = s.deliveries := rfl
@[simp] theorem State.setChan_commits (c : ChanNo) (x : Chan) : (s.setChan c x).commits = s.commits := rfl
@[simp] theorem State.setChan_tree (c : ChanNo) (x : Chan) : (s.setChan c x).tree = s.tree := rfl
@[simp] theorem State.setChan_chans (c : ChanNo) (x : Chan) : (s.setChan c x).chans = vset s.chans c x := rfl
@[simp] theorem State.setChan_disp (c : ChanNo) (x : Chan) : (s.setChan c x).disp = s.disp := rfl
@[simp] theorem State.setChan_cnt (c : ChanNo) (x : Chan) : (s.setChan c x).cnt = s.cnt := rfl
@[simp] theorem State.setChan_mem (c : ChanNo) (x : Chan) : (s.setChan c x).mem = s.mem := rfl
@[simp] theorem State.setChan_saveCount (c : ChanNo) (x : Chan) : (s.setChan c x).saveCount = s.saveCount := rfl
@[simp] theorem State.setChan_port (c : ChanNo) (x : Chan) (q' : PortNo) : (s.setChan c x).port q' = s.port q' := rfl
@[simp] theorem State.setChan_trowel (c : ChanNo) (x : Chan) (k' : TrowelNo) : (s.setChan c x).trowel k' = s.trowel k' := rfl
@[simp] theorem State.setChan_inst (c : ChanNo) (x : Chan) (i' : InstNo) : (s.setChan c x).inst i' = s.inst i' := rfl
@[simp] theorem State.setChan_ep (c : ChanNo) (x : Chan) (j' : Nat) : (s.setChan c x).ep j' = s.ep j' := rfl
@[simp] theorem State.setChan_dev (c : ChanNo) (x : Chan) (z' : Nat) : (s.setChan c x).dev z' = s.dev z' := rfl
@[simp] theorem State.setChan_queue (c : ChanNo) (x : Chan) (q' : QueueNo) : (s.setChan c x).queue q' = s.queue q' := rfl
@[simp] theorem State.setChan_group (c : ChanNo) (x : Chan) (g' : GroupNo) : (s.setChan c x).group g' = s.group g' := rfl
@[simp] theorem State.setChan_ring (c : ChanNo) (x : Chan) (i' : InstNo) (e' : RingNo) : (s.setChan c x).ring i' e' = s.ring i' e' := rfl

@[simp] theorem State.modChan_pending (c : ChanNo) (f : Chan → Chan) : (s.modChan c f).pending = s.pending := rfl
@[simp] theorem State.modChan_out (c : ChanNo) (f : Chan → Chan) : (s.modChan c f).out = s.out := rfl
@[simp] theorem State.modChan_freeIx (c : ChanNo) (f : Chan → Chan) : (s.modChan c f).freeIx = s.freeIx := rfl
@[simp] theorem State.modChan_nextId (c : ChanNo) (f : Chan → Chan) : (s.modChan c f).nextId = s.nextId := rfl
@[simp] theorem State.modChan_pw (c : ChanNo) (f : Chan → Chan) : (s.modChan c f).pw = s.pw := rfl
@[simp] theorem State.modChan_snag (c : ChanNo) (f : Chan → Chan) : (s.modChan c f).snag = s.snag := rfl
@[simp] theorem State.modChan_boot (c : ChanNo) (f : Chan → Chan) : (s.modChan c f).boot = s.boot := rfl
@[simp] theorem State.modChan_pl (c : ChanNo) (f : Chan → Chan) : (s.modChan c f).pl = s.pl := rfl
@[simp] theorem State.modChan_ports (c : ChanNo) (f : Chan → Chan) : (s.modChan c f).ports = s.ports := rfl
@[simp] theorem State.modChan_trowels (c : ChanNo) (f : Chan → Chan) : (s.modChan c f).trowels = s.trowels := rfl
@[simp] theorem State.modChan_insts (c : ChanNo) (f : Chan → Chan) : (s.modChan c f).insts = s.insts := rfl
@[simp] theorem State.modChan_eps (c : ChanNo) (f : Chan → Chan) : (s.modChan c f).eps = s.eps := rfl
@[simp] theorem State.modChan_devs (c : ChanNo) (f : Chan → Chan) : (s.modChan c f).devs = s.devs := rfl
@[simp] theorem State.modChan_deliveries (c : ChanNo) (f : Chan → Chan) : (s.modChan c f).deliveries = s.deliveries := rfl
@[simp] theorem State.modChan_commits (c : ChanNo) (f : Chan → Chan) : (s.modChan c f).commits = s.commits := rfl
@[simp] theorem State.modChan_tree (c : ChanNo) (f : Chan → Chan) : (s.modChan c f).tree = s.tree := rfl
@[simp] theorem State.modChan_chans (c : ChanNo) (f : Chan → Chan) : (s.modChan c f).chans = vset s.chans c (f (s.chan c)) := rfl
@[simp] theorem State.modChan_disp (c : ChanNo) (f : Chan → Chan) : (s.modChan c f).disp = s.disp := rfl
@[simp] theorem State.modChan_cnt (c : ChanNo) (f : Chan → Chan) : (s.modChan c f).cnt = s.cnt := rfl
@[simp] theorem State.modChan_mem (c : ChanNo) (f : Chan → Chan) : (s.modChan c f).mem = s.mem := rfl
@[simp] theorem State.modChan_saveCount (c : ChanNo) (f : Chan → Chan) : (s.modChan c f).saveCount = s.saveCount := rfl
@[simp] theorem State.modChan_port (c : ChanNo) (f : Chan → Chan) (q' : PortNo) : (s.modChan c f).port q' = s.port q' := rfl
@[simp] theorem State.modChan_trowel (c : ChanNo) (f : Chan → Chan) (k' : TrowelNo) : (s.modChan c f).trowel k' = s.trowel k' := rfl
@[simp] theorem State.modChan_inst (c : ChanNo) (f : Chan → Chan) (i' : InstNo) : (s.modChan c f).inst i' = s.inst i' := rfl
@[simp] theorem State.modChan_ep (c : ChanNo) (f : Chan → Chan) (j' : Nat) : (s.modChan c f).ep j' = s.ep j' := rfl
@[simp] theorem State.modChan_dev (c : ChanNo) (f : Chan → Chan) (z' : Nat) : (s.modChan c f).dev z' = s.dev z' := rfl
@[simp] theorem State.modChan_queue (c : ChanNo) (f : Chan → Chan) (q' : QueueNo) : (s.modChan c f).queue q' = s.queue q' := rfl
@[simp] theorem State.modChan_group (c : ChanNo) (f : Chan → Chan) (g' : GroupNo) : (s.modChan c f).group g' = s.group g' := rfl
@[simp] theorem State.modChan_ring (c : ChanNo) (f : Chan → Chan) (i' : InstNo) (e' : RingNo) : (s.modChan c f).ring i' e' = s.ring i' e' := rfl

@[simp] theorem State.setRing_pending (i : InstNo) (e : RingNo) (x : EvtRing) : (s.setRing i e x).pending = s.pending := rfl
@[simp] theorem State.setRing_out (i : InstNo) (e : RingNo) (x : EvtRing) : (s.setRing i e x).out = s.out := rfl
@[simp] theorem State.setRing_freeIx (i : InstNo) (e : RingNo) (x : EvtRing) : (s.setRing i e x).freeIx = s.freeIx := rfl
@[simp] theorem State.setRing_nextId (i : InstNo) (e : RingNo) (x : EvtRing) : (s.setRing i e x).nextId = s.nextId := rfl
@[simp] theorem State.setRing_pw (i : InstNo) (e : RingNo) (x : EvtRing) : (s.setRing i e x).pw = s.pw := rfl
@[simp] theorem State.setRing_snag (i : InstNo) (e : RingNo) (x : EvtRing) : (s.setRing i e x).snag = s.snag := rfl
@[simp] theorem State.setRing_boot (i : InstNo) (e : RingNo) (x : EvtRing) : (s.setRing i e x).boot = s.boot := rfl
@[simp] theorem State.setRing_pl (i : InstNo) (e : RingNo) (x : EvtRing) : (s.setRing i e x).pl = s.pl := rfl
@[simp] theorem State.setRing_ports (i : InstNo) (e : RingNo) (x : EvtRing) : (s.setRing i e x).ports = s.ports := rfl
@[simp] theorem State.setRing_trowels (i : InstNo) (e : RingNo) (x : EvtRing) : (s.setRing i e x).trowels = s.trowels := rfl
@[simp] theorem State.setRing_eps (i : InstNo) (e : RingNo) (x : EvtRing) : (s.setRing i e x).eps = s.eps := rfl
@[simp] theorem State.setRing_devs (i : InstNo) (e : RingNo) (x : EvtRing) : (s.setRing i e x).devs = s.devs := rfl
@[simp] theorem State.setRing_deliveries (i : InstNo) (e : RingNo) (x : EvtRing) : (s.setRing i e x).deliveries = s.deliveries := rfl
@[simp] theorem State.setRing_commits (i : InstNo) (e : RingNo) (x : EvtRing) : (s.setRing i e x).commits = s.commits := rfl
@[simp] theorem State.setRing_tree (i : InstNo) (e : RingNo) (x : EvtRing) : (s.setRing i e x).tree = s.tree := rfl
@[simp] theorem State.setRing_chans (i : InstNo) (e : RingNo) (x : EvtRing) : (s.setRing i e x).chans = s.chans := rfl
@[simp] theorem State.setRing_disp (i : InstNo) (e : RingNo) (x : EvtRing) : (s.setRing i e x).disp = s.disp := rfl
@[simp] theorem State.setRing_cnt (i : InstNo) (e : RingNo) (x : EvtRing) : (s.setRing i e x).cnt = s.cnt := rfl
@[simp] theorem State.setRing_mem (i : InstNo) (e : RingNo) (x : EvtRing) : (s.setRing i e x).mem = s.mem := rfl
@[simp] theorem State.setRing_saveCount (i : InstNo) (e : RingNo) (x : EvtRing) : (s.setRing i e x).saveCount = s.saveCount := rfl
@[simp] theorem State.setRing_port (i : InstNo) (e : RingNo) (x : EvtRing) (q' : PortNo) : (s.setRing i e x).port q' = s.port q' := rfl
@[simp] theorem State.setRing_trowel (i : InstNo) (e : RingNo) (x : EvtRing) (k' : TrowelNo) : (s.setRing i e x).trowel k' = s.trowel k' := rfl
@[simp] theorem State.setRing_chan (i : InstNo) (e : RingNo) (x : EvtRing) (c' : ChanNo) : (s.setRing i e x).chan c' = s.chan c' := rfl
@[simp] theorem State.setRing_ep (i : InstNo) (e : RingNo) (x : EvtRing) (j' : Nat) : (s.setRing i e x).ep j' = s.ep j' := rfl
@[simp] theorem State.setRing_dev (i : InstNo) (e : RingNo) (x : EvtRing) (z' : Nat) : (s.setRing i e x).dev z' = s.dev z' := rfl
@[simp] theorem State.setRing_queue (i : InstNo) (e : RingNo) (x : EvtRing) (q' : QueueNo) : (s.setRing i e x).queue q' = s.queue q' := rfl
@[simp] theorem State.setRing_group (i : InstNo) (e : RingNo) (x : EvtRing) (g' : GroupNo) : (s.setRing i e x).group g' = s.group g' := rfl

@[simp] theorem State.modRing_pending (i : InstNo) (e : RingNo) (f : EvtRing → EvtRing) : (s.modRing i e f).pending = s.pending := rfl
@[simp] theorem State.modRing_out (i : InstNo) (e : RingNo) (f : EvtRing → EvtRing) : (s.modRing i e f).out = s.out := rfl
@[simp] theorem State.modRing_freeIx (i : InstNo) (e : RingNo) (f : EvtRing → EvtRing) : (s.modRing i e f).freeIx = s.freeIx := rfl
@[simp] theorem State.modRing_nextId (i : InstNo) (e : RingNo) (f : EvtRing → EvtRing) : (s.modRing i e f).nextId = s.nextId := rfl
@[simp] theorem State.modRing_pw (i : InstNo) (e : RingNo) (f : EvtRing → EvtRing) : (s.modRing i e f).pw = s.pw := rfl
@[simp] theorem State.modRing_snag (i : InstNo) (e : RingNo) (f : EvtRing → EvtRing) : (s.modRing i e f).snag = s.snag := rfl
@[simp] theorem State.modRing_boot (i : InstNo) (e : RingNo) (f : EvtRing → EvtRing) : (s.modRing i e f).boot = s.boot := rfl
@[simp] theorem State.modRing_pl (i : InstNo) (e : RingNo) (f : EvtRing → EvtRing) : (s.modRing i e f).pl = s.pl := rfl
@[simp] theorem State.modRing_ports (i : InstNo) (e : RingNo) (f : EvtRing → EvtRing) : (s.modRing i e f).ports = s.ports := rfl
@[simp] theorem State.modRing_trowels (i : InstNo) (e : RingNo) (f : EvtRing → EvtRing) : (s.modRing i e f).trowels = s.trowels := rfl
@[simp] theorem State.modRing_eps (i : InstNo) (e : RingNo) (f : EvtRing → EvtRing) : (s.modRing i e f).eps = s.eps := rfl
@[simp] theorem State.modRing_devs (i : InstNo) (e : RingNo) (f : EvtRing → EvtRing) : (s.modRing i e f).devs = s.devs := rfl
@[simp] theorem State.modRing_deliveries (i : InstNo) (e : RingNo) (f : EvtRing → EvtRing) : (s.modRing i e f).deliveries = s.deliveries := rfl
@[simp] theorem State.modRing_commits (i : InstNo) (e : RingNo) (f : EvtRing → EvtRing) : (s.modRing i e f).commits = s.commits := rfl
@[simp] theorem State.modRing_tree (i : InstNo) (e : RingNo) (f : EvtRing → EvtRing) : (s.modRing i e f).tree = s.tree := rfl
@[simp] theorem State.modRing_chans (i : InstNo) (e : RingNo) (f : EvtRing → EvtRing) : (s.modRing i e f).chans = s.chans := rfl
@[simp] theorem State.modRing_disp (i : InstNo) (e : RingNo) (f : EvtRing → EvtRing) : (s.modRing i e f).disp = s.disp := rfl
@[simp] theorem State.modRing_cnt (i : InstNo) (e : RingNo) (f : EvtRing → EvtRing) : (s.modRing i e f).cnt = s.cnt := rfl
@[simp] theorem State.modRing_mem (i : InstNo) (e : RingNo) (f : EvtRing → EvtRing) : (s.modRing i e f).mem = s.mem := rfl
@[simp] theorem State.modRing_saveCount (i : InstNo) (e : RingNo) (f : EvtRing → EvtRing) : (s.modRing i e f).saveCount = s.saveCount := rfl
@[simp] theorem State.modRing_port (i : InstNo) (e : RingNo) (f : EvtRing → EvtRing) (q' : PortNo) : (s.modRing i e f).port q' = s.port q' := rfl
@[simp] theorem State.modRing_trowel (i : InstNo) (e : RingNo) (f : EvtRing → EvtRing) (k' : TrowelNo) : (s.modRing i e f).trowel k' = s.trowel k' := rfl
@[simp] theorem State.modRing_chan (i : InstNo) (e : RingNo) (f : EvtRing → EvtRing) (c' : ChanNo) : (s.modRing i e f).chan c' = s.chan c' := rfl
@[simp] theorem State.modRing_ep (i : InstNo) (e : RingNo) (f : EvtRing → EvtRing) (j' : Nat) : (s.modRing i e f).ep j' = s.ep j' := rfl
@[simp] theorem State.modRing_dev (i : InstNo) (e : RingNo) (f : EvtRing → EvtRing) (z' : Nat) : (s.modRing i e f).dev z' = s.dev z' := rfl
@[simp] theorem State.modRing_queue (i : InstNo) (e : RingNo) (f : EvtRing → EvtRing) (q' : QueueNo) : (s.modRing i e f).queue q' = s.queue q' := rfl
@[simp] theorem State.modRing_group (i : InstNo) (e : RingNo) (f : EvtRing → EvtRing) (g' : GroupNo) : (s.modRing i e f).group g' = s.group g' := rfl

@[simp] theorem State.setQueue_pending (q : QueueNo) (x : Queue) : (s.setQueue q x).pending = s.pending := rfl
@[simp] theorem State.setQueue_out (q : QueueNo) (x : Queue) : (s.setQueue q x).out = s.out := rfl
@[simp] theorem State.setQueue_freeIx (q : QueueNo) (x : Queue) : (s.setQueue q x).freeIx = s.freeIx := rfl
@[simp] theorem State.setQueue_nextId (q : QueueNo) (x : Queue) : (s.setQueue q x).nextId = s.nextId := rfl
@[simp] theorem State.setQueue_pw (q : QueueNo) (x : Queue) : (s.setQueue q x).pw = s.pw := rfl
@[simp] theorem State.setQueue_snag (q : QueueNo) (x : Queue) : (s.setQueue q x).snag = s.snag := rfl
@[simp] theorem State.setQueue_boot (q : QueueNo) (x : Queue) : (s.setQueue q x).boot = s.boot := rfl
@[simp] theorem State.setQueue_pl (q : QueueNo) (x : Queue) : (s.setQueue q x).pl = s.pl := rfl
@[simp] theorem State.setQueue_ports (q : QueueNo) (x : Queue) : (s.setQueue q x).ports = s.ports := rfl
@[simp] theorem State.setQueue_trowels (q : QueueNo) (x : Queue) : (s.setQueue q x).trowels = s.trowels := rfl
@[simp] theorem State.setQueue_insts (q : QueueNo) (x : Queue) : (s.setQueue q x).insts = s.insts := rfl
@[simp] theorem State.setQueue_eps (q : QueueNo) (x : Queue) : (s.setQueue q x).eps = s.eps := rfl
@[simp] theorem State.setQueue_devs (q : QueueNo) (x : Queue) : (s.setQueue q x).devs = s.devs := rfl
@[simp] theorem State.setQueue_deliveries (q : QueueNo) (x : Queue) : (s.setQueue q x).deliveries = s.deliveries := rfl
@[simp] theorem State.setQueue_commits (q : QueueNo) (x : Queue) : (s.setQueue q x).commits = s.commits := rfl
@[simp] theorem State.setQueue_tree (q : QueueNo) (x : Queue) : (s.setQueue q x).tree = s.tree := rfl
@[simp] theorem State.setQueue_chans (q : QueueNo) (x : Queue) : (s.setQueue q x).chans = s.chans := rfl
@[simp] theorem State.setQueue_cnt (q : QueueNo) (x : Queue) : (s.setQueue q x).cnt = s.cnt := rfl
@[simp] theorem State.setQueue_mem (q : QueueNo) (x : Queue) : (s.setQueue q x).mem = s.mem := rfl
@[simp] theorem State.setQueue_saveCount (q : QueueNo) (x : Queue) : (s.setQueue q x).saveCount = s.saveCount := rfl
@[simp] theorem State.setQueue_port (q : QueueNo) (x : Queue) (q' : PortNo) : (s.setQueue q x).port q' = s.port q' := rfl
@[simp] theorem State.setQueue_trowel (q : QueueNo) (x : Queue) (k' : TrowelNo) : (s.setQueue q x).trowel k' = s.trowel k' := rfl
@[simp] theorem State.setQueue_inst (q : QueueNo) (x : Queue) (i' : InstNo) : (s.setQueue q x).inst i' = s.inst i' := rfl
@[simp] theorem State.setQueue_chan (q : QueueNo) (x : Queue) (c' : ChanNo) : (s.setQueue q x).chan c' = s.chan c' := rfl
@[simp] theorem State.setQueue_ep (q : QueueNo) (x : Queue) (j' : Nat) : (s.setQueue q x).ep j' = s.ep j' := rfl
@[simp] theorem State.setQueue_dev (q : QueueNo) (x : Queue) (z' : Nat) : (s.setQueue q x).dev z' = s.dev z' := rfl
@[simp] theorem State.setQueue_ring (q : QueueNo) (x : Queue) (i' : InstNo) (e' : RingNo) : (s.setQueue q x).ring i' e' = s.ring i' e' := rfl

@[simp] theorem State.modQueue_pending (q : QueueNo) (f : Queue → Queue) : (s.modQueue q f).pending = s.pending := rfl
@[simp] theorem State.modQueue_out (q : QueueNo) (f : Queue → Queue) : (s.modQueue q f).out = s.out := rfl
@[simp] theorem State.modQueue_freeIx (q : QueueNo) (f : Queue → Queue) : (s.modQueue q f).freeIx = s.freeIx := rfl
@[simp] theorem State.modQueue_nextId (q : QueueNo) (f : Queue → Queue) : (s.modQueue q f).nextId = s.nextId := rfl
@[simp] theorem State.modQueue_pw (q : QueueNo) (f : Queue → Queue) : (s.modQueue q f).pw = s.pw := rfl
@[simp] theorem State.modQueue_snag (q : QueueNo) (f : Queue → Queue) : (s.modQueue q f).snag = s.snag := rfl
@[simp] theorem State.modQueue_boot (q : QueueNo) (f : Queue → Queue) : (s.modQueue q f).boot = s.boot := rfl
@[simp] theorem State.modQueue_pl (q : QueueNo) (f : Queue → Queue) : (s.modQueue q f).pl = s.pl := rfl
@[simp] theorem State.modQueue_ports (q : QueueNo) (f : Queue → Queue) : (s.modQueue q f).ports = s.ports := rfl
@[simp] theorem State.modQueue_trowels (q : QueueNo) (f : Queue → Queue) : (s.modQueue q f).trowels = s.trowels := rfl
@[simp] theorem State.modQueue_insts (q : QueueNo) (f : Queue → Queue) : (s.modQueue q f).insts = s.insts := rfl
@[simp] theorem State.modQueue_eps (q : QueueNo) (f : Queue → Queue) : (s.modQueue q f).eps = s.eps := rfl
@[simp] theorem State.modQueue_devs (q : QueueNo) (f : Queue → Queue) : (s.modQueue q f).devs = s.devs := rfl
@[simp] theorem State.modQueue_deliveries (q : QueueNo) (f : Queue → Queue) : (s.modQueue q f).deliveries = s.deliveries := rfl
@[simp] theorem State.modQueue_commits (q : QueueNo) (f : Queue → Queue) : (s.modQueue q f).commits = s.commits := rfl
@[simp] theorem State.modQueue_tree (q : QueueNo) (f : Queue → Queue) : (s.modQueue q f).tree = s.tree := rfl
@[simp] theorem State.modQueue_chans (q : QueueNo) (f : Queue → Queue) : (s.modQueue q f).chans = s.chans := rfl
@[simp] theorem State.modQueue_cnt (q : QueueNo) (f : Queue → Queue) : (s.modQueue q f).cnt = s.cnt := rfl
@[simp] theorem State.modQueue_mem (q : QueueNo) (f : Queue → Queue) : (s.modQueue q f).mem = s.mem := rfl
@[simp] theorem State.modQueue_saveCount (q : QueueNo) (f : Queue → Queue) : (s.modQueue q f).saveCount = s.saveCount := rfl
@[simp] theorem State.modQueue_port (q : QueueNo) (f : Queue → Queue) (q' : PortNo) : (s.modQueue q f).port q' = s.port q' := rfl
@[simp] theorem State.modQueue_trowel (q : QueueNo) (f : Queue → Queue) (k' : TrowelNo) : (s.modQueue q f).trowel k' = s.trowel k' := rfl
@[simp] theorem State.modQueue_inst (q : QueueNo) (f : Queue → Queue) (i' : InstNo) : (s.modQueue q f).inst i' = s.inst i' := rfl
@[simp] theorem State.modQueue_chan (q : QueueNo) (f : Queue → Queue) (c' : ChanNo) : (s.modQueue q f).chan c' = s.chan c' := rfl
@[simp] theorem State.modQueue_ep (q : QueueNo) (f : Queue → Queue) (j' : Nat) : (s.modQueue q f).ep j' = s.ep j' := rfl
@[simp] theorem State.modQueue_dev (q : QueueNo) (f : Queue → Queue) (z' : Nat) : (s.modQueue q f).dev z' = s.dev z' := rfl
@[simp] theorem State.modQueue_ring (q : QueueNo) (f : Queue → Queue) (i' : InstNo) (e' : RingNo) : (s.modQueue q f).ring i' e' = s.ring i' e' := rfl

@[simp] theorem State.setGroup_pending (g : GroupNo) (x : Group) : (s.setGroup g x).pending = s.pending := rfl
@[simp] theorem State.setGroup_out (g : GroupNo) (x : Group) : (s.setGroup g x).out = s.out := rfl
@[simp] theorem State.setGroup_freeIx (g : GroupNo) (x : Group) : (s.setGroup g x).freeIx = s.freeIx := rfl
@[simp] theorem State.setGroup_nextId (g : GroupNo) (x : Group) : (s.setGroup g x).nextId = s.nextId := rfl
@[simp] theorem State.setGroup_pw (g : GroupNo) (x : Group) : (s.setGroup g x).pw = s.pw := rfl
@[simp] theorem State.setGroup_snag (g : GroupNo) (x : Group) : (s.setGroup g x).snag = s.snag := rfl
@[simp] theorem State.setGroup_boot (g : GroupNo) (x : Group) : (s.setGroup g x).boot = s.boot := rfl
@[simp] theorem State.setGroup_pl (g : GroupNo) (x : Group) : (s.setGroup g x).pl = s.pl := rfl
@[simp] theorem State.setGroup_ports (g : GroupNo) (x : Group) : (s.setGroup g x).ports = s.ports := rfl
@[simp] theorem State.setGroup_trowels (g : GroupNo) (x : Group) : (s.setGroup g x).trowels = s.trowels := rfl
@[simp] theorem State.setGroup_insts (g : GroupNo) (x : Group) : (s.setGroup g x).insts = s.insts := rfl
@[simp] theorem State.setGroup_eps (g : GroupNo) (x : Group) : (s.setGroup g x).eps = s.eps := rfl
@[simp] theorem State.setGroup_devs (g : GroupNo) (x : Group) : (s.setGroup g x).devs = s.devs := rfl
@[simp] theorem State.setGroup_deliveries (g : GroupNo) (x : Group) : (s.setGroup g x).deliveries = s.deliveries := rfl
@[simp] theorem State.setGroup_commits (g : GroupNo) (x : Group) : (s.setGroup g x).commits = s.commits := rfl
@[simp] theorem State.setGroup_tree (g : GroupNo) (x : Group) : (s.setGroup g x).tree = s.tree := rfl
@[simp] theorem State.setGroup_chans (g : GroupNo) (x : Group) : (s.setGroup g x).chans = s.chans := rfl
@[simp] theorem State.setGroup_cnt (g : GroupNo) (x : Group) : (s.setGroup g x).cnt = s.cnt := rfl
@[simp] theorem State.setGroup_mem (g : GroupNo) (x : Group) : (s.setGroup g x).mem = s.mem := rfl
@[simp] theorem State.setGroup_saveCount (g : GroupNo) (x : Group) : (s.setGroup g x).saveCount = s.saveCount := rfl
@[simp] theorem State.setGroup_port (g : GroupNo) (x : Group) (q' : PortNo) : (s.setGroup g x).port q' = s.port q' := rfl
@[simp] theorem State.setGroup_trowel (g : GroupNo) (x : Group) (k' : TrowelNo) : (s.setGroup g x).trowel k' = s.trowel k' := rfl
@[simp] theorem State.setGroup_inst (g : GroupNo) (x : Group) (i' : InstNo) : (s.setGroup g x).inst i' = s.inst i' := rfl
@[simp] theorem State.setGroup_chan (g : GroupNo) (x : Group) (c' : ChanNo) : (s.setGroup g x).chan c' = s.chan c' := rfl
@[simp] theorem State.setGroup_ep (g : GroupNo) (x : Group) (j' : Nat) : (s.setGroup g x).ep j' = s.ep j' := rfl
@[simp] theorem State.setGroup_dev (g : GroupNo) (x : Group) (z' : Nat) : (s.setGroup g x).dev z' = s.dev z' := rfl
@[simp] theorem State.setGroup_ring (g : GroupNo) (x : Group) (i' : InstNo) (e' : RingNo) : (s.setGroup g x).ring i' e' = s.ring i' e' := rfl

@[simp] theorem State.modGroup_pending (g : GroupNo) (f : Group → Group) : (s.modGroup g f).pending = s.pending := rfl
@[simp] theorem State.modGroup_out (g : GroupNo) (f : Group → Group) : (s.modGroup g f).out = s.out := rfl
@[simp] theorem State.modGroup_freeIx (g : GroupNo) (f : Group → Group) : (s.modGroup g f).freeIx = s.freeIx := rfl
@[simp] theorem State.modGroup_nextId (g : GroupNo) (f : Group → Group) : (s.modGroup g f).nextId = s.nextId := rfl
@[simp] theorem State.modGroup_pw (g : GroupNo) (f : Group → Group) : (s.modGroup g f).pw = s.pw := rfl
@[simp] theorem State.modGroup_snag (g : GroupNo) (f : Group → Group) : (s.modGroup g f).snag = s.snag := rfl
@[simp] theorem State.modGroup_boot (g : GroupNo) (f : Group → Group) : (s.modGroup g f).boot = s.boot := rfl
@[simp] theorem State.modGroup_pl (g : GroupNo) (f : Group → Group) : (s.modGroup g f).pl = s.pl := rfl
@[simp] theorem State.modGroup_ports (g : GroupNo) (f : Group → Group) : (s.modGroup g f).ports = s.ports := rfl
@[simp] theorem State.modGroup_trowels (g : GroupNo) (f : Group → Group) : (s.modGroup g f).trowels = s.trowels := rfl
@[simp] theorem State.modGroup_insts (g : GroupNo) (f : Group → Group) : (s.modGroup g f).insts = s.insts := rfl
@[simp] theorem State.modGroup_eps (g : GroupNo) (f : Group → Group) : (s.modGroup g f).eps = s.eps := rfl
@[simp] theorem State.modGroup_devs (g : GroupNo) (f : Group → Group) : (s.modGroup g f).devs = s.devs := rfl
@[simp] theorem State.modGroup_deliveries (g : GroupNo) (f : Group → Group) : (s.modGroup g f).deliveries = s.deliveries := rfl
@[simp] theorem State.modGroup_commits (g : GroupNo) (f : Group → Group) : (s.modGroup g f).commits = s.commits := rfl
@[simp] theorem State.modGroup_tree (g : GroupNo) (f : Group → Group) : (s.modGroup g f).tree = s.tree := rfl
@[simp] theorem State.modGroup_chans (g : GroupNo) (f : Group → Group) : (s.modGroup g f).chans = s.chans := rfl
@[simp] theorem State.modGroup_cnt (g : GroupNo) (f : Group → Group) : (s.modGroup g f).cnt = s.cnt := rfl
@[simp] theorem State.modGroup_mem (g : GroupNo) (f : Group → Group) : (s.modGroup g f).mem = s.mem := rfl
@[simp] theorem State.modGroup_saveCount (g : GroupNo) (f : Group → Group) : (s.modGroup g f).saveCount = s.saveCount := rfl
@[simp] theorem State.modGroup_port (g : GroupNo) (f : Group → Group) (q' : PortNo) : (s.modGroup g f).port q' = s.port q' := rfl
@[simp] theorem State.modGroup_trowel (g : GroupNo) (f : Group → Group) (k' : TrowelNo) : (s.modGroup g f).trowel k' = s.trowel k' := rfl
@[simp] theorem State.modGroup_inst (g : GroupNo) (f : Group → Group) (i' : InstNo) : (s.modGroup g f).inst i' = s.inst i' := rfl
@[simp] theorem State.modGroup_chan (g : GroupNo) (f : Group → Group) (c' : ChanNo) : (s.modGroup g f).chan c' = s.chan c' := rfl
@[simp] theorem State.modGroup_ep (g : GroupNo) (f : Group → Group) (j' : Nat) : (s.modGroup g f).ep j' = s.ep j' := rfl
@[simp] theorem State.modGroup_dev (g : GroupNo) (f : Group → Group) (z' : Nat) : (s.modGroup g f).dev z' = s.dev z' := rfl
@[simp] theorem State.modGroup_ring (g : GroupNo) (f : Group → Group) (i' : InstNo) (e' : RingNo) : (s.modGroup g f).ring i' e' = s.ring i' e' := rfl

@[simp] theorem State.setEp_pending (k : Nat) (x : Ep) : (s.setEp k x).pending = s.pending := rfl
@[simp] theorem State.setEp_out (k : Nat) (x : Ep) : (s.setEp k x).out = s.out := rfl
@[simp] theorem State.setEp_freeIx (k : Nat) (x : Ep) : (s.setEp k x).freeIx = s.freeIx := rfl
@[simp] theorem State.setEp_nextId (k : Nat) (x : Ep) : (s.setEp k x).nextId = s.nextId := rfl
@[simp] theorem State.setEp_pw (k : Nat) (x : Ep) : (s.setEp k x).pw = s.pw := rfl
@[simp] theorem State.setEp_snag (k : Nat) (x : Ep) : (s.setEp k x).snag = s.snag := rfl
@[simp] theorem State.setEp_boot (k : Nat) (x : Ep) : (s.setEp k x).boot = s.boot := rfl
@[simp] theorem State.setEp_pl (k : Nat) (x : Ep) : (s.setEp k x).pl = s.pl := rfl
@[simp] theorem State.setEp_ports (k : Nat) (x : Ep) : (s.setEp k x).ports = s.ports := rfl
@[simp] theorem State.setEp_trowels (k : Nat) (x : Ep) : (s.setEp k x).trowels = s.trowels := rfl
@[simp] theorem State.setEp_insts (k : Nat) (x : Ep) : (s.setEp k x).insts = s.insts := rfl
@[simp] theorem State.setEp_eps (k : Nat) (x : Ep) : (s.setEp k x).eps = kset s.eps k x := rfl
@[simp] theorem State.setEp_devs (k : Nat) (x : Ep) : (s.setEp k x).devs = s.devs := rfl
@[simp] theorem State.setEp_deliveries (k : Nat) (x : Ep) : (s.setEp k x).deliveries = s.deliveries := rfl
@[simp] theorem State.setEp_commits (k : Nat) (x : Ep) : (s.setEp k x).commits = s.commits := rfl
@[simp] theorem State.setEp_tree (k : Nat) (x : Ep) : (s.setEp k x).tree = s.tree := rfl
@[simp] theorem State.setEp_chans (k : Nat) (x : Ep) : (s.setEp k x).chans = s.chans := rfl
@[simp] theorem State.setEp_disp (k : Nat) (x : Ep) : (s.setEp k x).disp = s.disp := rfl
@[simp] theorem State.setEp_cnt (k : Nat) (x : Ep) : (s.setEp k x).cnt = s.cnt := rfl
@[simp] theorem State.setEp_mem (k : Nat) (x : Ep) : (s.setEp k x).mem = s.mem := rfl
@[simp] theorem State.setEp_saveCount (k : Nat) (x : Ep) : (s.setEp k x).saveCount = s.saveCount := rfl
@[simp] theorem State.setEp_port (k : Nat) (x : Ep) (q' : PortNo) : (s.setEp k x).port q' = s.port q' := rfl
@[simp] theorem State.setEp_trowel (k : Nat) (x : Ep) (k' : TrowelNo) : (s.setEp k x).trowel k' = s.trowel k' := rfl
@[simp] theorem State.setEp_inst (k : Nat) (x : Ep) (i' : InstNo) : (s.setEp k x).inst i' = s.inst i' := rfl
@[simp] theorem State.setEp_chan (k : Nat) (x : Ep) (c' : ChanNo) : (s.setEp k x).chan c' = s.chan c' := rfl
@[simp] theorem State.setEp_dev (k : Nat) (x : Ep) (z' : Nat) : (s.setEp k x).dev z' = s.dev z' := rfl
@[simp] theorem State.setEp_queue (k : Nat) (x : Ep) (q' : QueueNo) : (s.setEp k x).queue q' = s.queue q' := rfl
@[simp] theorem State.setEp_group (k : Nat) (x : Ep) (g' : GroupNo) : (s.setEp k x).group g' = s.group g' := rfl
@[simp] theorem State.setEp_ring (k : Nat) (x : Ep) (i' : InstNo) (e' : RingNo) : (s.setEp k x).ring i' e' = s.ring i' e' := rfl

@[simp] theorem State.modEp_pending (k : Nat) (f : Ep → Ep) : (s.modEp k f).pending = s.pending := rfl
@[simp] theorem State.modEp_out (k : Nat) (f : Ep → Ep) : (s.modEp k f).out = s.out := rfl
@[simp] theorem State.modEp_freeIx (k : Nat) (f : Ep → Ep) : (s.modEp k f).freeIx = s.freeIx := rfl
@[simp] theorem State.modEp_nextId (k : Nat) (f : Ep → Ep) : (s.modEp k f).nextId = s.nextId := rfl
@[simp] theorem State.modEp_pw (k : Nat) (f : Ep → Ep) : (s.modEp k f).pw = s.pw := rfl
@[simp] theorem State.modEp_snag (k : Nat) (f : Ep → Ep) : (s.modEp k f).snag = s.snag := rfl
@[simp] theorem State.modEp_boot (k : Nat) (f : Ep → Ep) : (s.modEp k f).boot = s.boot := rfl
@[simp] theorem State.modEp_pl (k : Nat) (f : Ep → Ep) : (s.modEp k f).pl = s.pl := rfl
@[simp] theorem State.modEp_ports (k : Nat) (f : Ep → Ep) : (s.modEp k f).ports = s.ports := rfl
@[simp] theorem State.modEp_trowels (k : Nat) (f : Ep → Ep) : (s.modEp k f).trowels = s.trowels := rfl
@[simp] theorem State.modEp_insts (k : Nat) (f : Ep → Ep) : (s.modEp k f).insts = s.insts := rfl
@[simp] theorem State.modEp_eps (k : Nat) (f : Ep → Ep) : (s.modEp k f).eps = kupd s.eps k f := rfl
@[simp] theorem State.modEp_devs (k : Nat) (f : Ep → Ep) : (s.modEp k f).devs = s.devs := rfl
@[simp] theorem State.modEp_deliveries (k : Nat) (f : Ep → Ep) : (s.modEp k f).deliveries = s.deliveries := rfl
@[simp] theorem State.modEp_commits (k : Nat) (f : Ep → Ep) : (s.modEp k f).commits = s.commits := rfl
@[simp] theorem State.modEp_tree (k : Nat) (f : Ep → Ep) : (s.modEp k f).tree = s.tree := rfl
@[simp] theorem State.modEp_chans (k : Nat) (f : Ep → Ep) : (s.modEp k f).chans = s.chans := rfl
@[simp] theorem State.modEp_disp (k : Nat) (f : Ep → Ep) : (s.modEp k f).disp = s.disp := rfl
@[simp] theorem State.modEp_cnt (k : Nat) (f : Ep → Ep) : (s.modEp k f).cnt = s.cnt := rfl
@[simp] theorem State.modEp_mem (k : Nat) (f : Ep → Ep) : (s.modEp k f).mem = s.mem := rfl
@[simp] theorem State.modEp_saveCount (k : Nat) (f : Ep → Ep) : (s.modEp k f).saveCount = s.saveCount := rfl
@[simp] theorem State.modEp_port (k : Nat) (f : Ep → Ep) (q' : PortNo) : (s.modEp k f).port q' = s.port q' := rfl
@[simp] theorem State.modEp_trowel (k : Nat) (f : Ep → Ep) (k' : TrowelNo) : (s.modEp k f).trowel k' = s.trowel k' := rfl
@[simp] theorem State.modEp_inst (k : Nat) (f : Ep → Ep) (i' : InstNo) : (s.modEp k f).inst i' = s.inst i' := rfl
@[simp] theorem State.modEp_chan (k : Nat) (f : Ep → Ep) (c' : ChanNo) : (s.modEp k f).chan c' = s.chan c' := rfl
@[simp] theorem State.modEp_dev (k : Nat) (f : Ep → Ep) (z' : Nat) : (s.modEp k f).dev z' = s.dev z' := rfl
@[simp] theorem State.modEp_queue (k : Nat) (f : Ep → Ep) (q' : QueueNo) : (s.modEp k f).queue q' = s.queue q' := rfl
@[simp] theorem State.modEp_group (k : Nat) (f : Ep → Ep) (g' : GroupNo) : (s.modEp k f).group g' = s.group g' := rfl
@[simp] theorem State.modEp_ring (k : Nat) (f : Ep → Ep) (i' : InstNo) (e' : RingNo) : (s.modEp k f).ring i' e' = s.ring i' e' := rfl

@[simp] theorem State.setDev_pending (z : Nat) (x : DevRec) : (s.setDev z x).pending = s.pending := rfl
@[simp] theorem State.setDev_out (z : Nat) (x : DevRec) : (s.setDev z x).out = s.out := rfl
@[simp] theorem State.setDev_freeIx (z : Nat) (x : DevRec) : (s.setDev z x).freeIx = s.freeIx := rfl
@[simp] theorem State.setDev_nextId (z : Nat) (x : DevRec) : (s.setDev z x).nextId = s.nextId := rfl
@[simp] theorem State.setDev_pw (z : Nat) (x : DevRec) : (s.setDev z x).pw = s.pw := rfl
@[simp] theorem State.setDev_snag (z : Nat) (x : DevRec) : (s.setDev z x).snag = s.snag := rfl
@[simp] theorem State.setDev_boot (z : Nat) (x : DevRec) : (s.setDev z x).boot = s.boot := rfl
@[simp] theorem State.setDev_pl (z : Nat) (x : DevRec) : (s.setDev z x).pl = s.pl := rfl
@[simp] theorem State.setDev_ports (z : Nat) (x : DevRec) : (s.setDev z x).ports = s.ports := rfl
@[simp] theorem State.setDev_trowels (z : Nat) (x : DevRec) : (s.setDev z x).trowels = s.trowels := rfl
@[simp] theorem State.setDev_insts (z : Nat) (x : DevRec) : (s.setDev z x).insts = s.insts := rfl
@[simp] theorem State.setDev_eps (z : Nat) (x : DevRec) : (s.setDev z x).eps = s.eps := rfl
@[simp] theorem State.setDev_devs (z : Nat) (x : DevRec) : (s.setDev z x).devs = kset s.devs z x := rfl
@[simp] theorem State.setDev_deliveries (z : Nat) (x : DevRec) : (s.setDev z x).deliveries = s.deliveries := rfl
@[simp] theorem State.setDev_commits (z : Nat) (x : DevRec) : (s.setDev z x).commits = s.commits := rfl
@[simp] theorem State.setDev_tree (z : Nat) (x : DevRec) : (s.setDev z x).tree = s.tree := rfl
@[simp] theorem State.setDev_chans (z : Nat) (x : DevRec) : (s.setDev z x).chans = s.chans := rfl
@[simp] theorem State.setDev_disp (z : Nat) (x : DevRec) : (s.setDev z x).disp = s.disp := rfl
@[simp] theorem State.setDev_cnt (z : Nat) (x : DevRec) : (s.setDev z x).cnt = s.cnt := rfl
@[simp] theorem State.setDev_mem (z : Nat) (x : DevRec) : (s.setDev z x).mem = s.mem := rfl
@[simp] theorem State.setDev_saveCount (z : Nat) (x : DevRec) : (s.setDev z x).saveCount = s.saveCount := rfl
@[simp] theorem State.setDev_port (z : Nat) (x : DevRec) (q' : PortNo) : (s.setDev z x).port q' = s.port q' := rfl
@[simp] theorem State.setDev_trowel (z : Nat) (x : DevRec) (k' : TrowelNo) : (s.setDev z x).trowel k' = s.trowel k' := rfl
@[simp] theorem State.setDev_inst (z : Nat) (x : DevRec) (i' : InstNo) : (s.setDev z x).inst i' = s.inst i' := rfl
@[simp] theorem State.setDev_chan (z : Nat) (x : DevRec) (c' : ChanNo) : (s.setDev z x).chan c' = s.chan c' := rfl
@[simp] theorem State.setDev_ep (z : Nat) (x : DevRec) (j' : Nat) : (s.setDev z x).ep j' = s.ep j' := rfl
@[simp] theorem State.setDev_queue (z : Nat) (x : DevRec) (q' : QueueNo) : (s.setDev z x).queue q' = s.queue q' := rfl
@[simp] theorem State.setDev_group (z : Nat) (x : DevRec) (g' : GroupNo) : (s.setDev z x).group g' = s.group g' := rfl
@[simp] theorem State.setDev_ring (z : Nat) (x : DevRec) (i' : InstNo) (e' : RingNo) : (s.setDev z x).ring i' e' = s.ring i' e' := rfl

@[simp] theorem State.modDev_pending (z : Nat) (f : DevRec → DevRec) : (s.modDev z f).pending = s.pending := rfl
@[simp] theorem State.modDev_out (z : Nat) (f : DevRec → DevRec) : (s.modDev z f).out = s.out := rfl
@[simp] theorem State.modDev_freeIx (z : Nat) (f : DevRec → DevRec) : (s.modDev z f).freeIx = s.freeIx := rfl
@[simp] theorem State.modDev_nextId (z : Nat) (f : DevRec → DevRec) : (s.modDev z f).nextId = s.nextId := rfl
@[simp] theorem State.modDev_pw (z : Nat) (f : DevRec → DevRec) : (s.modDev z f).pw = s.pw := rfl
@[simp] theorem State.modDev_snag (z : Nat) (f : DevRec → DevRec) : (s.modDev z f).snag = s.snag := rfl
@[simp] theorem State.modDev_boot (z : Nat) (f : DevRec → DevRec) : (s.modDev z f).boot = s.boot := rfl
@[simp] theorem State.modDev_pl (z : Nat) (f : DevRec → DevRec) : (s.modDev z f).pl = s.pl := rfl
@[simp] theorem State.modDev_ports (z : Nat) (f : DevRec → DevRec) : (s.modDev z f).ports = s.ports := rfl
@[simp] theorem State.modDev_trowels (z : Nat) (f : DevRec → DevRec) : (s.modDev z f).trowels = s.trowels := rfl
@[simp] theorem State.modDev_insts (z : Nat) (f : DevRec → DevRec) : (s.modDev z f).insts = s.insts := rfl
@[simp] theorem State.modDev_eps (z : Nat) (f : DevRec → DevRec) : (s.modDev z f).eps = s.eps := rfl
@[simp] theorem State.modDev_devs (z : Nat) (f : DevRec → DevRec) : (s.modDev z f).devs = kupd s.devs z f := rfl
@[simp] theorem State.modDev_deliveries (z : Nat) (f : DevRec → DevRec) : (s.modDev z f).deliveries = s.deliveries := rfl
@[simp] theorem State.modDev_commits (z : Nat) (f : DevRec → DevRec) : (s.modDev z f).commits = s.commits := rfl
@[simp] theorem State.modDev_tree (z : Nat) (f : DevRec → DevRec) : (s.modDev z f).tree = s.tree := rfl
@[simp] theorem State.modDev_chans (z : Nat) (f : DevRec → DevRec) : (s.modDev z f).chans = s.chans := rfl
@[simp] theorem State.modDev_disp (z : Nat) (f : DevRec → DevRec) : (s.modDev z f).disp = s.disp := rfl
@[simp] theorem State.modDev_cnt (z : Nat) (f : DevRec → DevRec) : (s.modDev z f).cnt = s.cnt := rfl
@[simp] theorem State.modDev_mem (z : Nat) (f : DevRec → DevRec) : (s.modDev z f).mem = s.mem := rfl
@[simp] theorem State.modDev_saveCount (z : Nat) (f : DevRec → DevRec) : (s.modDev z f).saveCount = s.saveCount := rfl
@[simp] theorem State.modDev_port (z : Nat) (f : DevRec → DevRec) (q' : PortNo) : (s.modDev z f).port q' = s.port q' := rfl
@[simp] theorem State.modDev_trowel (z : Nat) (f : DevRec → DevRec) (k' : TrowelNo) : (s.modDev z f).trowel k' = s.trowel k' := rfl
@[simp] theorem State.modDev_inst (z : Nat) (f : DevRec → DevRec) (i' : InstNo) : (s.modDev z f).inst i' = s.inst i' := rfl
@[simp] theorem State.modDev_chan (z : Nat) (f : DevRec → DevRec) (c' : ChanNo) : (s.modDev z f).chan c' = s.chan c' := rfl
@[simp] theorem State.modDev_ep (z : Nat) (f : DevRec → DevRec) (j' : Nat) : (s.modDev z f).ep j' = s.ep j' := rfl
@[simp] theorem State.modDev_queue (z : Nat) (f : DevRec → DevRec) (q' : QueueNo) : (s.modDev z f).queue q' = s.queue q' := rfl
@[simp] theorem State.modDev_group (z : Nat) (f : DevRec → DevRec) (g' : GroupNo) : (s.modDev z f).group g' = s.group g' := rfl
@[simp] theorem State.modDev_ring (z : Nat) (f : DevRec → DevRec) (i' : InstNo) (e' : RingNo) : (s.modDev z f).ring i' e' = s.ring i' e' := rfl

@[simp] theorem State.modPw_pending (f : Power → Power) : (s.modPw f).pending = s.pending := rfl
@[simp] theorem State.modPw_out (f : Power → Power) : (s.modPw f).out = s.out := rfl
@[simp] theorem State.modPw_freeIx (f : Power → Power) : (s.modPw f).freeIx = s.freeIx := rfl
@[simp] theorem State.modPw_nextId (f : Power → Power) : (s.modPw f).nextId = s.nextId := rfl
@[simp] theorem State.modPw_pw (f : Power → Power) : (s.modPw f).pw = f s.pw := rfl
@[simp] theorem State.modPw_snag (f : Power → Power) : (s.modPw f).snag = s.snag := rfl
@[simp] theorem State.modPw_boot (f : Power → Power) : (s.modPw f).boot = s.boot := rfl
@[simp] theorem State.modPw_pl (f : Power → Power) : (s.modPw f).pl = s.pl := rfl
@[simp] theorem State.modPw_ports (f : Power → Power) : (s.modPw f).ports = s.ports := rfl
@[simp] theorem State.modPw_trowels (f : Power → Power) : (s.modPw f).trowels = s.trowels := rfl
@[simp] theorem State.modPw_insts (f : Power → Power) : (s.modPw f).insts = s.insts := rfl
@[simp] theorem State.modPw_eps (f : Power → Power) : (s.modPw f).eps = s.eps := rfl
@[simp] theorem State.modPw_devs (f : Power → Power) : (s.modPw f).devs = s.devs := rfl
@[simp] theorem State.modPw_deliveries (f : Power → Power) : (s.modPw f).deliveries = s.deliveries := rfl
@[simp] theorem State.modPw_commits (f : Power → Power) : (s.modPw f).commits = s.commits := rfl
@[simp] theorem State.modPw_tree (f : Power → Power) : (s.modPw f).tree = s.tree := rfl
@[simp] theorem State.modPw_chans (f : Power → Power) : (s.modPw f).chans = s.chans := rfl
@[simp] theorem State.modPw_disp (f : Power → Power) : (s.modPw f).disp = s.disp := rfl
@[simp] theorem State.modPw_cnt (f : Power → Power) : (s.modPw f).cnt = s.cnt := rfl
@[simp] theorem State.modPw_mem (f : Power → Power) : (s.modPw f).mem = s.mem := rfl
@[simp] theorem State.modPw_saveCount (f : Power → Power) : (s.modPw f).saveCount = s.saveCount := rfl
@[simp] theorem State.modPw_port (f : Power → Power) (q' : PortNo) : (s.modPw f).port q' = s.port q' := rfl
@[simp] theorem State.modPw_trowel (f : Power → Power) (k' : TrowelNo) : (s.modPw f).trowel k' = s.trowel k' := rfl
@[simp] theorem State.modPw_inst (f : Power → Power) (i' : InstNo) : (s.modPw f).inst i' = s.inst i' := rfl
@[simp] theorem State.modPw_chan (f : Power → Power) (c' : ChanNo) : (s.modPw f).chan c' = s.chan c' := rfl
@[simp] theorem State.modPw_ep (f : Power → Power) (j' : Nat) : (s.modPw f).ep j' = s.ep j' := rfl
@[simp] theorem State.modPw_dev (f : Power → Power) (z' : Nat) : (s.modPw f).dev z' = s.dev z' := rfl
@[simp] theorem State.modPw_queue (f : Power → Power) (q' : QueueNo) : (s.modPw f).queue q' = s.queue q' := rfl
@[simp] theorem State.modPw_group (f : Power → Power) (g' : GroupNo) : (s.modPw f).group g' = s.group g' := rfl
@[simp] theorem State.modPw_ring (f : Power → Power) (i' : InstNo) (e' : RingNo) : (s.modPw f).ring i' e' = s.ring i' e' := rfl

@[simp] theorem State.modPl_pending (f : Planner → Planner) : (s.modPl f).pending = s.pending := rfl
@[simp] theorem State.modPl_out (f : Planner → Planner) : (s.modPl f).out = s.out := rfl
@[simp] theorem State.modPl_freeIx (f : Planner → Planner) : (s.modPl f).freeIx = s.freeIx := rfl
@[simp] theorem State.modPl_nextId (f : Planner → Planner) : (s.modPl f).nextId = s.nextId := rfl
@[simp] theorem State.modPl_pw (f : Planner → Planner) : (s.modPl f).pw = s.pw := rfl
@[simp] theorem State.modPl_snag (f : Planner → Planner) : (s.modPl f).snag = s.snag := rfl
@[simp] theorem State.modPl_boot (f : Planner → Planner) : (s.modPl f).boot = s.boot := rfl
@[simp] theorem State.modPl_pl (f : Planner → Planner) : (s.modPl f).pl = f s.pl := rfl
@[simp] theorem State.modPl_ports (f : Planner → Planner) : (s.modPl f).ports = s.ports := rfl
@[simp] theorem State.modPl_trowels (f : Planner → Planner) : (s.modPl f).trowels = s.trowels := rfl
@[simp] theorem State.modPl_insts (f : Planner → Planner) : (s.modPl f).insts = s.insts := rfl
@[simp] theorem State.modPl_eps (f : Planner → Planner) : (s.modPl f).eps = s.eps := rfl
@[simp] theorem State.modPl_devs (f : Planner → Planner) : (s.modPl f).devs = s.devs := rfl
@[simp] theorem State.modPl_deliveries (f : Planner → Planner) : (s.modPl f).deliveries = s.deliveries := rfl
@[simp] theorem State.modPl_commits (f : Planner → Planner) : (s.modPl f).commits = s.commits := rfl
@[simp] theorem State.modPl_tree (f : Planner → Planner) : (s.modPl f).tree = s.tree := rfl
@[simp] theorem State.modPl_chans (f : Planner → Planner) : (s.modPl f).chans = s.chans := rfl
@[simp] theorem State.modPl_disp (f : Planner → Planner) : (s.modPl f).disp = s.disp := rfl
@[simp] theorem State.modPl_cnt (f : Planner → Planner) : (s.modPl f).cnt = s.cnt := rfl
@[simp] theorem State.modPl_mem (f : Planner → Planner) : (s.modPl f).mem = s.mem := rfl
@[simp] theorem State.modPl_saveCount (f : Planner → Planner) : (s.modPl f).saveCount = s.saveCount := rfl
@[simp] theorem State.modPl_port (f : Planner → Planner) (q' : PortNo) : (s.modPl f).port q' = s.port q' := rfl
@[simp] theorem State.modPl_trowel (f : Planner → Planner) (k' : TrowelNo) : (s.modPl f).trowel k' = s.trowel k' := rfl
@[simp] theorem State.modPl_inst (f : Planner → Planner) (i' : InstNo) : (s.modPl f).inst i' = s.inst i' := rfl
@[simp] theorem State.modPl_chan (f : Planner → Planner) (c' : ChanNo) : (s.modPl f).chan c' = s.chan c' := rfl
@[simp] theorem State.modPl_ep (f : Planner → Planner) (j' : Nat) : (s.modPl f).ep j' = s.ep j' := rfl
@[simp] theorem State.modPl_dev (f : Planner → Planner) (z' : Nat) : (s.modPl f).dev z' = s.dev z' := rfl
@[simp] theorem State.modPl_queue (f : Planner → Planner) (q' : QueueNo) : (s.modPl f).queue q' = s.queue q' := rfl
@[simp] theorem State.modPl_group (f : Planner → Planner) (g' : GroupNo) : (s.modPl f).group g' = s.group g' := rfl
@[simp] theorem State.modPl_ring (f : Planner → Planner) (i' : InstNo) (e' : RingNo) : (s.modPl f).ring i' e' = s.ring i' e' := rfl

@[simp] theorem State.modMem_pending (f : Mems → Mems) : (s.modMem f).pending = s.pending := rfl
@[simp] theorem State.modMem_out (f : Mems → Mems) : (s.modMem f).out = s.out := rfl
@[simp] theorem State.modMem_freeIx (f : Mems → Mems) : (s.modMem f).freeIx = s.freeIx := rfl
@[simp] theorem State.modMem_nextId (f : Mems → Mems) : (s.modMem f).nextId = s.nextId := rfl
@[simp] theorem State.modMem_pw (f : Mems → Mems) : (s.modMem f).pw = s.pw := rfl
@[simp] theorem State.modMem_snag (f : Mems → Mems) : (s.modMem f).snag = s.snag := rfl
@[simp] theorem State.modMem_boot (f : Mems → Mems) : (s.modMem f).boot = s.boot := rfl
@[simp] theorem State.modMem_pl (f : Mems → Mems) : (s.modMem f).pl = s.pl := rfl
@[simp] theorem State.modMem_ports (f : Mems → Mems) : (s.modMem f).ports = s.ports := rfl
@[simp] theorem State.modMem_trowels (f : Mems → Mems) : (s.modMem f).trowels = s.trowels := rfl
@[simp] theorem State.modMem_insts (f : Mems → Mems) : (s.modMem f).insts = s.insts := rfl
@[simp] theorem State.modMem_eps (f : Mems → Mems) : (s.modMem f).eps = s.eps := rfl
@[simp] theorem State.modMem_devs (f : Mems → Mems) : (s.modMem f).devs = s.devs := rfl
@[simp] theorem State.modMem_deliveries (f : Mems → Mems) : (s.modMem f).deliveries = s.deliveries := rfl
@[simp] theorem State.modMem_commits (f : Mems → Mems) : (s.modMem f).commits = s.commits := rfl
@[simp] theorem State.modMem_tree (f : Mems → Mems) : (s.modMem f).tree = s.tree := rfl
@[simp] theorem State.modMem_chans (f : Mems → Mems) : (s.modMem f).chans = s.chans := rfl
@[simp] theorem State.modMem_disp (f : Mems → Mems) : (s.modMem f).disp = s.disp := rfl
@[simp] theorem State.modMem_cnt (f : Mems → Mems) : (s.modMem f).cnt = s.cnt := rfl
@[simp] theorem State.modMem_mem (f : Mems → Mems) : (s.modMem f).mem = f s.mem := rfl
@[simp] theorem State.modMem_saveCount (f : Mems → Mems) : (s.modMem f).saveCount = s.saveCount := rfl
@[simp] theorem State.modMem_port (f : Mems → Mems) (q' : PortNo) : (s.modMem f).port q' = s.port q' := rfl
@[simp] theorem State.modMem_trowel (f : Mems → Mems) (k' : TrowelNo) : (s.modMem f).trowel k' = s.trowel k' := rfl
@[simp] theorem State.modMem_inst (f : Mems → Mems) (i' : InstNo) : (s.modMem f).inst i' = s.inst i' := rfl
@[simp] theorem State.modMem_chan (f : Mems → Mems) (c' : ChanNo) : (s.modMem f).chan c' = s.chan c' := rfl
@[simp] theorem State.modMem_ep (f : Mems → Mems) (j' : Nat) : (s.modMem f).ep j' = s.ep j' := rfl
@[simp] theorem State.modMem_dev (f : Mems → Mems) (z' : Nat) : (s.modMem f).dev z' = s.dev z' := rfl
@[simp] theorem State.modMem_queue (f : Mems → Mems) (q' : QueueNo) : (s.modMem f).queue q' = s.queue q' := rfl
@[simp] theorem State.modMem_group (f : Mems → Mems) (g' : GroupNo) : (s.modMem f).group g' = s.group g' := rfl
@[simp] theorem State.modMem_ring (f : Mems → Mems) (i' : InstNo) (e' : RingNo) : (s.modMem f).ring i' e' = s.ring i' e' := rfl

@[simp] theorem State.modTree_pending (f : Tree → Tree) : (s.modTree f).pending = s.pending := rfl
@[simp] theorem State.modTree_out (f : Tree → Tree) : (s.modTree f).out = s.out := rfl
@[simp] theorem State.modTree_freeIx (f : Tree → Tree) : (s.modTree f).freeIx = s.freeIx := rfl
@[simp] theorem State.modTree_nextId (f : Tree → Tree) : (s.modTree f).nextId = s.nextId := rfl
@[simp] theorem State.modTree_pw (f : Tree → Tree) : (s.modTree f).pw = s.pw := rfl
@[simp] theorem State.modTree_snag (f : Tree → Tree) : (s.modTree f).snag = s.snag := rfl
@[simp] theorem State.modTree_boot (f : Tree → Tree) : (s.modTree f).boot = s.boot := rfl
@[simp] theorem State.modTree_pl (f : Tree → Tree) : (s.modTree f).pl = s.pl := rfl
@[simp] theorem State.modTree_ports (f : Tree → Tree) : (s.modTree f).ports = s.ports := rfl
@[simp] theorem State.modTree_trowels (f : Tree → Tree) : (s.modTree f).trowels = s.trowels := rfl
@[simp] theorem State.modTree_insts (f : Tree → Tree) : (s.modTree f).insts = s.insts := rfl
@[simp] theorem State.modTree_eps (f : Tree → Tree) : (s.modTree f).eps = s.eps := rfl
@[simp] theorem State.modTree_devs (f : Tree → Tree) : (s.modTree f).devs = s.devs := rfl
@[simp] theorem State.modTree_deliveries (f : Tree → Tree) : (s.modTree f).deliveries = s.deliveries := rfl
@[simp] theorem State.modTree_commits (f : Tree → Tree) : (s.modTree f).commits = s.commits := rfl
@[simp] theorem State.modTree_tree (f : Tree → Tree) : (s.modTree f).tree = f s.tree := rfl
@[simp] theorem State.modTree_chans (f : Tree → Tree) : (s.modTree f).chans = s.chans := rfl
@[simp] theorem State.modTree_disp (f : Tree → Tree) : (s.modTree f).disp = s.disp := rfl
@[simp] theorem State.modTree_cnt (f : Tree → Tree) : (s.modTree f).cnt = s.cnt := rfl
@[simp] theorem State.modTree_mem (f : Tree → Tree) : (s.modTree f).mem = s.mem := rfl
@[simp] theorem State.modTree_saveCount (f : Tree → Tree) : (s.modTree f).saveCount = s.saveCount := rfl
@[simp] theorem State.modTree_port (f : Tree → Tree) (q' : PortNo) : (s.modTree f).port q' = s.port q' := rfl
@[simp] theorem State.modTree_trowel (f : Tree → Tree) (k' : TrowelNo) : (s.modTree f).trowel k' = s.trowel k' := rfl
@[simp] theorem State.modTree_inst (f : Tree → Tree) (i' : InstNo) : (s.modTree f).inst i' = s.inst i' := rfl
@[simp] theorem State.modTree_chan (f : Tree → Tree) (c' : ChanNo) : (s.modTree f).chan c' = s.chan c' := rfl
@[simp] theorem State.modTree_ep (f : Tree → Tree) (j' : Nat) : (s.modTree f).ep j' = s.ep j' := rfl
@[simp] theorem State.modTree_dev (f : Tree → Tree) (z' : Nat) : (s.modTree f).dev z' = s.dev z' := rfl
@[simp] theorem State.modTree_queue (f : Tree → Tree) (q' : QueueNo) : (s.modTree f).queue q' = s.queue q' := rfl
@[simp] theorem State.modTree_group (f : Tree → Tree) (g' : GroupNo) : (s.modTree f).group g' = s.group g' := rfl
@[simp] theorem State.modTree_ring (f : Tree → Tree) (i' : InstNo) (e' : RingNo) : (s.modTree f).ring i' e' = s.ring i' e' := rfl

@[simp] theorem State.modDisp_pending (f : Disp → Disp) : (s.modDisp f).pending = s.pending := rfl
@[simp] theorem State.modDisp_out (f : Disp → Disp) : (s.modDisp f).out = s.out := rfl
@[simp] theorem State.modDisp_freeIx (f : Disp → Disp) : (s.modDisp f).freeIx = s.freeIx := rfl
@[simp] theorem State.modDisp_nextId (f : Disp → Disp) : (s.modDisp f).nextId = s.nextId := rfl
@[simp] theorem State.modDisp_pw (f : Disp → Disp) : (s.modDisp f).pw = s.pw := rfl
@[simp] theorem State.modDisp_snag (f : Disp → Disp) : (s.modDisp f).snag = s.snag := rfl
@[simp] theorem State.modDisp_boot (f : Disp → Disp) : (s.modDisp f).boot = s.boot := rfl
@[simp] theorem State.modDisp_pl (f : Disp → Disp) : (s.modDisp f).pl = s.pl := rfl
@[simp] theorem State.modDisp_ports (f : Disp → Disp) : (s.modDisp f).ports = s.ports := rfl
@[simp] theorem State.modDisp_trowels (f : Disp → Disp) : (s.modDisp f).trowels = s.trowels := rfl
@[simp] theorem State.modDisp_insts (f : Disp → Disp) : (s.modDisp f).insts = s.insts := rfl
@[simp] theorem State.modDisp_eps (f : Disp → Disp) : (s.modDisp f).eps = s.eps := rfl
@[simp] theorem State.modDisp_devs (f : Disp → Disp) : (s.modDisp f).devs = s.devs := rfl
@[simp] theorem State.modDisp_deliveries (f : Disp → Disp) : (s.modDisp f).deliveries = s.deliveries := rfl
@[simp] theorem State.modDisp_commits (f : Disp → Disp) : (s.modDisp f).commits = s.commits := rfl
@[simp] theorem State.modDisp_tree (f : Disp → Disp) : (s.modDisp f).tree = s.tree := rfl
@[simp] theorem State.modDisp_chans (f : Disp → Disp) : (s.modDisp f).chans = s.chans := rfl
@[simp] theorem State.modDisp_disp (f : Disp → Disp) : (s.modDisp f).disp = f s.disp := rfl
@[simp] theorem State.modDisp_cnt (f : Disp → Disp) : (s.modDisp f).cnt = s.cnt := rfl
@[simp] theorem State.modDisp_mem (f : Disp → Disp) : (s.modDisp f).mem = s.mem := rfl
@[simp] theorem State.modDisp_saveCount (f : Disp → Disp) : (s.modDisp f).saveCount = s.saveCount := rfl
@[simp] theorem State.modDisp_port (f : Disp → Disp) (q' : PortNo) : (s.modDisp f).port q' = s.port q' := rfl
@[simp] theorem State.modDisp_trowel (f : Disp → Disp) (k' : TrowelNo) : (s.modDisp f).trowel k' = s.trowel k' := rfl
@[simp] theorem State.modDisp_inst (f : Disp → Disp) (i' : InstNo) : (s.modDisp f).inst i' = s.inst i' := rfl
@[simp] theorem State.modDisp_chan (f : Disp → Disp) (c' : ChanNo) : (s.modDisp f).chan c' = s.chan c' := rfl
@[simp] theorem State.modDisp_ep (f : Disp → Disp) (j' : Nat) : (s.modDisp f).ep j' = s.ep j' := rfl
@[simp] theorem State.modDisp_dev (f : Disp → Disp) (z' : Nat) : (s.modDisp f).dev z' = s.dev z' := rfl
@[simp] theorem State.modDisp_ring (f : Disp → Disp) (i' : InstNo) (e' : RingNo) : (s.modDisp f).ring i' e' = s.ring i' e' := rfl

@[simp] theorem State.modCnt_pending (f : Cnt → Cnt) : (s.modCnt f).pending = s.pending := rfl
@[simp] theorem State.modCnt_out (f : Cnt → Cnt) : (s.modCnt f).out = s.out := rfl
@[simp] theorem State.modCnt_freeIx (f : Cnt → Cnt) : (s.modCnt f).freeIx = s.freeIx := rfl
@[simp] theorem State.modCnt_nextId (f : Cnt → Cnt) : (s.modCnt f).nextId = s.nextId := rfl
@[simp] theorem State.modCnt_pw (f : Cnt → Cnt) : (s.modCnt f).pw = s.pw := rfl
@[simp] theorem State.modCnt_snag (f : Cnt → Cnt) : (s.modCnt f).snag = s.snag := rfl
@[simp] theorem State.modCnt_boot (f : Cnt → Cnt) : (s.modCnt f).boot = s.boot := rfl
@[simp] theorem State.modCnt_pl (f : Cnt → Cnt) : (s.modCnt f).pl = s.pl := rfl
@[simp] theorem State.modCnt_ports (f : Cnt → Cnt) : (s.modCnt f).ports = s.ports := rfl
@[simp] theorem State.modCnt_trowels (f : Cnt → Cnt) : (s.modCnt f).trowels = s.trowels := rfl
@[simp] theorem State.modCnt_insts (f : Cnt → Cnt) : (s.modCnt f).insts = s.insts := rfl
@[simp] theorem State.modCnt_eps (f : Cnt → Cnt) : (s.modCnt f).eps = s.eps := rfl
@[simp] theorem State.modCnt_devs (f : Cnt → Cnt) : (s.modCnt f).devs = s.devs := rfl
@[simp] theorem State.modCnt_deliveries (f : Cnt → Cnt) : (s.modCnt f).deliveries = s.deliveries := rfl
@[simp] theorem State.modCnt_commits (f : Cnt → Cnt) : (s.modCnt f).commits = s.commits := rfl
@[simp] theorem State.modCnt_tree (f : Cnt → Cnt) : (s.modCnt f).tree = s.tree := rfl
@[simp] theorem State.modCnt_chans (f : Cnt → Cnt) : (s.modCnt f).chans = s.chans := rfl
@[simp] theorem State.modCnt_disp (f : Cnt → Cnt) : (s.modCnt f).disp = s.disp := rfl
@[simp] theorem State.modCnt_cnt (f : Cnt → Cnt) : (s.modCnt f).cnt = f s.cnt := rfl
@[simp] theorem State.modCnt_mem (f : Cnt → Cnt) : (s.modCnt f).mem = s.mem := rfl
@[simp] theorem State.modCnt_saveCount (f : Cnt → Cnt) : (s.modCnt f).saveCount = s.saveCount := rfl
@[simp] theorem State.modCnt_port (f : Cnt → Cnt) (q' : PortNo) : (s.modCnt f).port q' = s.port q' := rfl
@[simp] theorem State.modCnt_trowel (f : Cnt → Cnt) (k' : TrowelNo) : (s.modCnt f).trowel k' = s.trowel k' := rfl
@[simp] theorem State.modCnt_inst (f : Cnt → Cnt) (i' : InstNo) : (s.modCnt f).inst i' = s.inst i' := rfl
@[simp] theorem State.modCnt_chan (f : Cnt → Cnt) (c' : ChanNo) : (s.modCnt f).chan c' = s.chan c' := rfl
@[simp] theorem State.modCnt_ep (f : Cnt → Cnt) (j' : Nat) : (s.modCnt f).ep j' = s.ep j' := rfl
@[simp] theorem State.modCnt_dev (f : Cnt → Cnt) (z' : Nat) : (s.modCnt f).dev z' = s.dev z' := rfl
@[simp] theorem State.modCnt_queue (f : Cnt → Cnt) (q' : QueueNo) : (s.modCnt f).queue q' = s.queue q' := rfl
@[simp] theorem State.modCnt_group (f : Cnt → Cnt) (g' : GroupNo) : (s.modCnt f).group g' = s.group g' := rfl
@[simp] theorem State.modCnt_ring (f : Cnt → Cnt) (i' : InstNo) (e' : RingNo) : (s.modCnt f).ring i' e' = s.ring i' e' := rfl

@[simp] theorem State.modBoot_pending (f : Boot → Boot) : (s.modBoot f).pending = s.pending := rfl
@[simp] theorem State.modBoot_out (f : Boot → Boot) : (s.modBoot f).out = s.out := rfl
@[simp] theorem State.modBoot_freeIx (f : Boot → Boot) : (s.modBoot f).freeIx = s.freeIx := rfl
@[simp] theorem State.modBoot_nextId (f : Boot → Boot) : (s.modBoot f).nextId = s.nextId := rfl
@[simp] theorem State.modBoot_pw (f : Boot → Boot) : (s.modBoot f).pw = s.pw := rfl
@[simp] theorem State.modBoot_snag (f : Boot → Boot) : (s.modBoot f).snag = s.snag := rfl
@[simp] theorem State.modBoot_boot (f : Boot → Boot) : (s.modBoot f).boot = f s.boot := rfl
@[simp] theorem State.modBoot_pl (f : Boot → Boot) : (s.modBoot f).pl = s.pl := rfl
@[simp] theorem State.modBoot_ports (f : Boot → Boot) : (s.modBoot f).ports = s.ports := rfl
@[simp] theorem State.modBoot_trowels (f : Boot → Boot) : (s.modBoot f).trowels = s.trowels := rfl
@[simp] theorem State.modBoot_insts (f : Boot → Boot) : (s.modBoot f).insts = s.insts := rfl
@[simp] theorem State.modBoot_eps (f : Boot → Boot) : (s.modBoot f).eps = s.eps := rfl
@[simp] theorem State.modBoot_devs (f : Boot → Boot) : (s.modBoot f).devs = s.devs := rfl
@[simp] theorem State.modBoot_deliveries (f : Boot → Boot) : (s.modBoot f).deliveries = s.deliveries := rfl
@[simp] theorem State.modBoot_commits (f : Boot → Boot) : (s.modBoot f).commits = s.commits := rfl
@[simp] theorem State.modBoot_tree (f : Boot → Boot) : (s.modBoot f).tree = s.tree := rfl
@[simp] theorem State.modBoot_chans (f : Boot → Boot) : (s.modBoot f).chans = s.chans := rfl
@[simp] theorem State.modBoot_disp (f : Boot → Boot) : (s.modBoot f).disp = s.disp := rfl
@[simp] theorem State.modBoot_cnt (f : Boot → Boot) : (s.modBoot f).cnt = s.cnt := rfl
@[simp] theorem State.modBoot_mem (f : Boot → Boot) : (s.modBoot f).mem = s.mem := rfl
@[simp] theorem State.modBoot_saveCount (f : Boot → Boot) : (s.modBoot f).saveCount = s.saveCount := rfl
@[simp] theorem State.modBoot_port (f : Boot → Boot) (q' : PortNo) : (s.modBoot f).port q' = s.port q' := rfl
@[simp] theorem State.modBoot_trowel (f : Boot → Boot) (k' : TrowelNo) : (s.modBoot f).trowel k' = s.trowel k' := rfl
@[simp] theorem State.modBoot_inst (f : Boot → Boot) (i' : InstNo) : (s.modBoot f).inst i' = s.inst i' := rfl
@[simp] theorem State.modBoot_chan (f : Boot → Boot) (c' : ChanNo) : (s.modBoot f).chan c' = s.chan c' := rfl
@[simp] theorem State.modBoot_ep (f : Boot → Boot) (j' : Nat) : (s.modBoot f).ep j' = s.ep j' := rfl
@[simp] theorem State.modBoot_dev (f : Boot → Boot) (z' : Nat) : (s.modBoot f).dev z' = s.dev z' := rfl
@[simp] theorem State.modBoot_queue (f : Boot → Boot) (q' : QueueNo) : (s.modBoot f).queue q' = s.queue q' := rfl
@[simp] theorem State.modBoot_group (f : Boot → Boot) (g' : GroupNo) : (s.modBoot f).group g' = s.group g' := rfl
@[simp] theorem State.modBoot_ring (f : Boot → Boot) (i' : InstNo) (e' : RingNo) : (s.modBoot f).ring i' e' = s.ring i' e' := rfl

@[simp] theorem State.emit_pending (o : Out) : (s.emit o).pending = s.pending := rfl
@[simp] theorem State.emit_out (o : Out) : (s.emit o).out = o :: s.out := rfl
@[simp] theorem State.emit_freeIx (o : Out) : (s.emit o).freeIx = s.freeIx := rfl
@[simp] theorem State.emit_nextId (o : Out) : (s.emit o).nextId = s.nextId := rfl
@[simp] theorem State.emit_pw (o : Out) : (s.emit o).pw = s.pw := rfl
@[simp] theorem State.emit_snag (o : Out) : (s.emit o).snag = s.snag := rfl
@[simp] theorem State.emit_boot (o : Out) : (s.emit o).boot = s.boot := rfl
@[simp] theorem State.emit_pl (o : Out) : (s.emit o).pl = s.pl := rfl
@[simp] theorem State.emit_ports (o : Out) : (s.emit o).ports = s.ports := rfl
@[simp] theorem State.emit_trowels (o : Out) : (s.emit o).trowels = s.trowels := rfl
@[simp] theorem State.emit_insts (o : Out) : (s.emit o).insts = s.insts := rfl
@[simp] theorem State.emit_eps (o : Out) : (s.emit o).eps = s.eps := rfl
@[simp] theorem State.emit_devs (o : Out) : (s.emit o).devs = s.devs := rfl
@[simp] theorem State.emit_deliveries (o : Out) : (s.emit o).deliveries = s.deliveries := rfl
@[simp] theorem State.emit_commits (o : Out) : (s.emit o).commits = s.commits := rfl
@[simp] theorem State.emit_tree (o : Out) : (s.emit o).tree = s.tree := rfl
@[simp] theorem State.emit_chans (o : Out) : (s.emit o).chans = s.chans := rfl
@[simp] theorem State.emit_disp (o : Out) : (s.emit o).disp = s.disp := rfl
@[simp] theorem State.emit_cnt (o : Out) : (s.emit o).cnt = s.cnt := rfl
@[simp] theorem State.emit_mem (o : Out) : (s.emit o).mem = s.mem := rfl
@[simp] theorem State.emit_saveCount (o : Out) : (s.emit o).saveCount = s.saveCount := rfl
@[simp] theorem State.emit_port (o : Out) (q' : PortNo) : (s.emit o).port q' = s.port q' := rfl
@[simp] theorem State.emit_trowel (o : Out) (k' : TrowelNo) : (s.emit o).trowel k' = s.trowel k' := rfl
@[simp] theorem State.emit_inst (o : Out) (i' : InstNo) : (s.emit o).inst i' = s.inst i' := rfl
@[simp] theorem State.emit_chan (o : Out) (c' : ChanNo) : (s.emit o).chan c' = s.chan c' := rfl
@[simp] theorem State.emit_ep (o : Out) (j' : Nat) : (s.emit o).ep j' = s.ep j' := rfl
@[simp] theorem State.emit_dev (o : Out) (z' : Nat) : (s.emit o).dev z' = s.dev z' := rfl
@[simp] theorem State.emit_queue (o : Out) (q' : QueueNo) : (s.emit o).queue q' = s.queue q' := rfl
@[simp] theorem State.emit_group (o : Out) (g' : GroupNo) : (s.emit o).group g' = s.group g' := rfl
@[simp] theorem State.emit_ring (o : Out) (i' : InstNo) (e' : RingNo) : (s.emit o).ring i' e' = s.ring i' e' := rfl

@[simp] theorem State.takeFree_pending : (s.takeFree).pending = s.pending := rfl
@[simp] theorem State.takeFree_out : (s.takeFree).out = s.out := rfl
@[simp] theorem State.takeFree_freeIx : (s.takeFree).freeIx = s.freeIx + 1 := rfl
@[simp] theorem State.takeFree_nextId : (s.takeFree).nextId = s.nextId := rfl
@[simp] theorem State.takeFree_pw : (s.takeFree).pw = s.pw := rfl
@[simp] theorem State.takeFree_snag : (s.takeFree).snag = s.snag := rfl
@[simp] theorem State.takeFree_boot : (s.takeFree).boot = s.boot := rfl
@[simp] theorem State.takeFree_pl : (s.takeFree).pl = s.pl := rfl
@[simp] theorem State.takeFree_ports : (s.takeFree).ports = s.ports := rfl
@[simp] theorem State.takeFree_trowels : (s.takeFree).trowels = s.trowels := rfl
@[simp] theorem State.takeFree_insts : (s.takeFree).insts = s.insts := rfl
@[simp] theorem State.takeFree_eps : (s.takeFree).eps = s.eps := rfl
@[simp] theorem State.takeFree_devs : (s.takeFree).devs = s.devs := rfl
@[simp] theorem State.takeFree_deliveries : (s.takeFree).deliveries = s.deliveries := rfl
@[simp] theorem State.takeFree_commits : (s.takeFree).commits = s.commits := rfl
@[simp] theorem State.takeFree_tree : (s.takeFree).tree = s.tree := rfl
@[simp] theorem State.takeFree_chans : (s.takeFree).chans = s.chans := rfl
@[simp] theorem State.takeFree_disp : (s.takeFree).disp = s.disp := rfl
@[simp] theorem State.takeFree_cnt : (s.takeFree).cnt = s.cnt := rfl
@[simp] theorem State.takeFree_mem : (s.takeFree).mem = s.mem := rfl
@[simp] theorem State.takeFree_saveCount : (s.takeFree).saveCount = s.saveCount := rfl
@[simp] theorem State.takeFree_port (q' : PortNo) : (s.takeFree).port q' = s.port q' := rfl
@[simp] theorem State.takeFree_trowel (k' : TrowelNo) : (s.takeFree).trowel k' = s.trowel k' := rfl
@[simp] theorem State.takeFree_inst (i' : InstNo) : (s.takeFree).inst i' = s.inst i' := rfl
@[simp] theorem State.takeFree_chan (c' : ChanNo) : (s.takeFree).chan c' = s.chan c' := rfl
@[simp] theorem State.takeFree_ep (j' : Nat) : (s.takeFree).ep j' = s.ep j' := rfl
@[simp] theorem State.takeFree_dev (z' : Nat) : (s.takeFree).dev z' = s.dev z' := rfl
@[simp] theorem State.takeFree_queue (q' : QueueNo) : (s.takeFree).queue q' = s.queue q' := rfl
@[simp] theorem State.takeFree_group (g' : GroupNo) : (s.takeFree).group g' = s.group g' := rfl
@[simp] theorem State.takeFree_ring (i' : InstNo) (e' : RingNo) : (s.takeFree).ring i' e' = s.ring i' e' := rfl

@[simp] theorem State.takeFrees_pending (n : Nat) : (s.takeFrees n).pending = s.pending := rfl
@[simp] theorem State.takeFrees_out (n : Nat) : (s.takeFrees n).out = s.out := rfl
@[simp] theorem State.takeFrees_freeIx (n : Nat) : (s.takeFrees n).freeIx = s.freeIx + n := rfl
@[simp] theorem State.takeFrees_nextId (n : Nat) : (s.takeFrees n).nextId = s.nextId := rfl
@[simp] theorem State.takeFrees_pw (n : Nat) : (s.takeFrees n).pw = s.pw := rfl
@[simp] theorem State.takeFrees_snag (n : Nat) : (s.takeFrees n).snag = s.snag := rfl
@[simp] theorem State.takeFrees_boot (n : Nat) : (s.takeFrees n).boot = s.boot := rfl
@[simp] theorem State.takeFrees_pl (n : Nat) : (s.takeFrees n).pl = s.pl := rfl
@[simp] theorem State.takeFrees_ports (n : Nat) : (s.takeFrees n).ports = s.ports := rfl
@[simp] theorem State.takeFrees_trowels (n : Nat) : (s.takeFrees n).trowels = s.trowels := rfl
@[simp] theorem State.takeFrees_insts (n : Nat) : (s.takeFrees n).insts = s.insts := rfl
@[simp] theorem State.takeFrees_eps (n : Nat) : (s.takeFrees n).eps = s.eps := rfl
@[simp] theorem State.takeFrees_devs (n : Nat) : (s.takeFrees n).devs = s.devs := rfl
@[simp] theorem State.takeFrees_deliveries (n : Nat) : (s.takeFrees n).deliveries = s.deliveries := rfl
@[simp] theorem State.takeFrees_commits (n : Nat) : (s.takeFrees n).commits = s.commits := rfl
@[simp] theorem State.takeFrees_tree (n : Nat) : (s.takeFrees n).tree = s.tree := rfl
@[simp] theorem State.takeFrees_chans (n : Nat) : (s.takeFrees n).chans = s.chans := rfl
@[simp] theorem State.takeFrees_disp (n : Nat) : (s.takeFrees n).disp = s.disp := rfl
@[simp] theorem State.takeFrees_cnt (n : Nat) : (s.takeFrees n).cnt = s.cnt := rfl
@[simp] theorem State.takeFrees_mem (n : Nat) : (s.takeFrees n).mem = s.mem := rfl
@[simp] theorem State.takeFrees_saveCount (n : Nat) : (s.takeFrees n).saveCount = s.saveCount := rfl
@[simp] theorem State.takeFrees_port (n : Nat) (q' : PortNo) : (s.takeFrees n).port q' = s.port q' := rfl
@[simp] theorem State.takeFrees_trowel (n : Nat) (k' : TrowelNo) : (s.takeFrees n).trowel k' = s.trowel k' := rfl
@[simp] theorem State.takeFrees_inst (n : Nat) (i' : InstNo) : (s.takeFrees n).inst i' = s.inst i' := rfl
@[simp] theorem State.takeFrees_chan (n : Nat) (c' : ChanNo) : (s.takeFrees n).chan c' = s.chan c' := rfl
@[simp] theorem State.takeFrees_ep (n : Nat) (j' : Nat) : (s.takeFrees n).ep j' = s.ep j' := rfl
@[simp] theorem State.takeFrees_dev (n : Nat) (z' : Nat) : (s.takeFrees n).dev z' = s.dev z' := rfl
@[simp] theorem State.takeFrees_queue (n : Nat) (q' : QueueNo) : (s.takeFrees n).queue q' = s.queue q' := rfl
@[simp] theorem State.takeFrees_group (n : Nat) (g' : GroupNo) : (s.takeFrees n).group g' = s.group g' := rfl
@[simp] theorem State.takeFrees_ring (n : Nat) (i' : InstNo) (e' : RingNo) : (s.takeFrees n).ring i' e' = s.ring i' e' := rfl

@[simp] theorem State.takeId_pending : (s.takeId).pending = s.pending := rfl
@[simp] theorem State.takeId_out : (s.takeId).out = s.out := rfl
@[simp] theorem State.takeId_freeIx : (s.takeId).freeIx = s.freeIx := rfl
@[simp] theorem State.takeId_nextId : (s.takeId).nextId = s.nextId + 1 := rfl
@[simp] theorem State.takeId_pw : (s.takeId).pw = s.pw := rfl
@[simp] theorem State.takeId_snag : (s.takeId).snag = s.snag := rfl
@[simp] theorem State.takeId_boot : (s.takeId).boot = s.boot := rfl
@[simp] theorem State.takeId_pl : (s.takeId).pl = s.pl := rfl
@[simp] theorem State.takeId_ports : (s.takeId).ports = s.ports := rfl
@[simp] theorem State.takeId_trowels : (s.takeId).trowels = s.trowels := rfl
@[simp] theorem State.takeId_insts : (s.takeId).insts = s.insts := rfl
@[simp] theorem State.takeId_eps : (s.takeId).eps = s.eps := rfl
@[simp] theorem State.takeId_devs : (s.takeId).devs = s.devs := rfl
@[simp] theorem State.takeId_deliveries : (s.takeId).deliveries = s.deliveries := rfl
@[simp] theorem State.takeId_commits : (s.takeId).commits = s.commits := rfl
@[simp] theorem State.takeId_tree : (s.takeId).tree = s.tree := rfl
@[simp] theorem State.takeId_chans : (s.takeId).chans = s.chans := rfl
@[simp] theorem State.takeId_disp : (s.takeId).disp = s.disp := rfl
@[simp] theorem State.takeId_cnt : (s.takeId).cnt = s.cnt := rfl
@[simp] theorem State.takeId_mem : (s.takeId).mem = s.mem := rfl
@[simp] theorem State.takeId_saveCount : (s.takeId).saveCount = s.saveCount := rfl
@[simp] theorem State.takeId_port (q' : PortNo) : (s.takeId).port q' = s.port q' := rfl
@[simp] theorem State.takeId_trowel (k' : TrowelNo) : (s.takeId).trowel k' = s.trowel k' := rfl
@[simp] theorem State.takeId_inst (i' : InstNo) : (s.takeId).inst i' = s.inst i' := rfl
@[simp] theorem State.takeId_chan (c' : ChanNo) : (s.takeId).chan c' = s.chan c' := rfl
@[simp] theorem State.takeId_ep (j' : Nat) : (s.takeId).ep j' = s.ep j' := rfl
@[simp] theorem State.takeId_dev (z' : Nat) : (s.takeId).dev z' = s.dev z' := rfl
@[simp] theorem State.takeId_queue (q' : QueueNo) : (s.takeId).queue q' = s.queue q' := rfl
@[simp] theorem State.takeId_group (g' : GroupNo) : (s.takeId).group g' = s.group g' := rfl
@[simp] theorem State.takeId_ring (i' : InstNo) (e' : RingNo) : (s.takeId).ring i' e' = s.ring i' e' := rfl

end Sys2Proof.Machine
end

