-- ==== Sys2Proof/Laws/Tables.lean ====
section
/-!
SUPPORT. Laws of the containers: fixed tables, keyed maps and byte memories. A read after a write gives the value written at its
place and the old value elsewhere, and every memory operation keeps the canonical form.
-/
namespace Sys2Proof.Machine

/-! ### Tables -/

@[simp] theorem vget_vset {α : Type} {n : Nat} (v : Tab α n) (i j : Fin n) (x : α) :
    vget (vset v i x) j = if j = i then x else vget v j := by
  simp only [vget, vset]
  by_cases h : j = i
  · subst h; simp
  · simp [h, Fin.val_ne_of_ne (Ne.symm h)]

@[simp] theorem vset_vget {α : Type} {n : Nat} (v : Tab α n) (i : Fin n) : vset v i (vget v i) = v := by
  simp [vget, vset]

@[simp] theorem vset_vset {α : Type} {n : Nat} (v : Tab α n) (i : Fin n) (x y : α) :
    vset (vset v i x) i y = vset v i y := by
  simp [vset]

@[simp] theorem vget_map {α β : Type} {n : Nat} (f : α → β) (v : Tab α n) (i : Fin n) :
    vget (v.map f) i = f (vget v i) := by
  simp [vget]

theorem map_vset {α β : Type} {n : Nat} (f : α → β) (v : Tab α n) (i : Fin n) (x : α) :
    (vset v i x).map f = vset (v.map f) i (f x) := by
  simp [vset, Vector.map_set]

/-- Two tables with the same entries are equal. -/
theorem tab_ext {α : Type} {n : Nat} {v w : Tab α n} (h : ∀ i, vget v i = vget w i) : v = w := by
  apply Vector.ext
  intro i hi
  exact h ⟨i, hi⟩

theorem vset_comm {α : Type} {n : Nat} (v : Tab α n) (i j : Fin n) (x y : α) (h : i ≠ j) :
    vset (vset v i x) j y = vset (vset v j y) i x := by
  apply tab_ext
  intro k
  simp only [vget_vset]
  by_cases h1 : k = j
  · subst h1; simp [Ne.symm h]
  · simp [h1]

/-! ### Objects of the state -/

variable (s : State)

@[simp] theorem State.setPort_port (p q : PortNo) (x : Port) : (s.setPort p x).port q = if q = p then x else s.port q := by
  simp [State.port]
@[simp] theorem State.modPort_port (p q : PortNo) (f : Port → Port) :
    (s.modPort p f).port q = if q = p then f (s.port p) else s.port q := by
  simp [State.port]
@[simp] theorem State.setTrowel_trowel (k j : TrowelNo) (x : Trowel) :
    (s.setTrowel k x).trowel j = if j = k then x else s.trowel j := by
  simp [State.trowel]
@[simp] theorem State.modTrowel_trowel (k j : TrowelNo) (f : Trowel → Trowel) :
    (s.modTrowel k f).trowel j = if j = k then f (s.trowel k) else s.trowel j := by
  simp [State.trowel]
@[simp] theorem State.setInst_inst (i j : InstNo) (x : Inst) : (s.setInst i x).inst j = if j = i then x else s.inst j := by
  simp [State.inst]
@[simp] theorem State.modInst_inst (i j : InstNo) (f : Inst → Inst) :
    (s.modInst i f).inst j = if j = i then f (s.inst i) else s.inst j := by
  simp [State.inst]
@[simp] theorem State.setChan_chan (c d : ChanNo) (x : Chan) : (s.setChan c x).chan d = if d = c then x else s.chan d := by
  simp [State.chan]
@[simp] theorem State.modChan_chan (c d : ChanNo) (f : Chan → Chan) :
    (s.modChan c f).chan d = if d = c then f (s.chan c) else s.chan d := by
  simp [State.chan]
@[simp] theorem State.setQueue_queue (q r : QueueNo) (x : Queue) :
    (s.setQueue q x).queue r = if r = q then x else s.queue r := by
  simp [State.queue, State.setQueue]
@[simp] theorem State.modQueue_queue (q r : QueueNo) (f : Queue → Queue) :
    (s.modQueue q f).queue r = if r = q then f (s.queue q) else s.queue r := by
  simp [State.modQueue]
@[simp] theorem State.setGroup_group (g h : GroupNo) (x : Group) :
    (s.setGroup g x).group h = if h = g then x else s.group h := by
  simp [State.group, State.setGroup]
@[simp] theorem State.modGroup_group (g h : GroupNo) (f : Group → Group) :
    (s.modGroup g f).group h = if h = g then f (s.group g) else s.group h := by
  simp [State.modGroup]
@[simp] theorem State.setRing_inst (i j : InstNo) (e : RingNo) (x : EvtRing) :
    (s.setRing i e x).inst j = if j = i then { s.inst i with evt := vset (s.inst i).evt e x } else s.inst j := by
  simp [State.setRing]
@[simp] theorem State.setRing_ring (i j : InstNo) (e f : RingNo) (x : EvtRing) :
    (s.setRing i e x).ring j f = if j = i ∧ f = e then x else s.ring j f := by
  by_cases h : j = i <;> by_cases h' : f = e <;> simp [State.ring, h, h']
@[simp] theorem State.modRing_ring (i j : InstNo) (e f : RingNo) (g : EvtRing → EvtRing) :
    (s.modRing i e g).ring j f = if j = i ∧ f = e then g (s.ring i e) else s.ring j f := by
  simp [State.modRing]

/-- An instance after a ring of it, or of another instance, has changed. -/
@[simp] theorem State.modRing_inst (i j : InstNo) (e : RingNo) (g : EvtRing → EvtRing) :
    (s.modRing i e g).inst j = if j = i then { s.inst i with evt := vset (s.inst i).evt e (g (s.ring i e)) } else s.inst j := by
  simp [State.modRing]

/-! ### Keyed maps -/

section
variable {α : Type} (m : KMap α)

theorem kget_kset (k j : Nat) (x : α) : kget (kset m k x) j = if j = k then some x else kget m j := by
  induction m with
  | nil => simp only [kset, kget]; split_ifs <;> first | rfl | (exfalso; omega)
  | cons e m ih =>
    obtain ⟨a, y⟩ := e
    simp only [kset]
    split_ifs with h1 h2 <;> simp only [kget, ih] <;> split_ifs <;> first | rfl | (exfalso; omega)

theorem kget_kdel (k j : Nat) : kget (kdel m k) j = if j = k then none else kget m j := by
  induction m with
  | nil => simp [kdel, kget]
  | cons e m ih =>
    obtain ⟨a, y⟩ := e
    by_cases h : a = k
    · have : kdel ((a, y) :: m) k = kdel m k := by simp [kdel, h]
      rw [this, ih]; subst h
      simp only [kget]; split_ifs <;> simp_all
    · have : kdel ((a, y) :: m) k = (a, y) :: kdel m k := by simp [kdel, h]
      rw [this]; simp only [kget, ih]
      split_ifs <;> simp_all

theorem kget_kupd (k j : Nat) (f : α → α) : kget (kupd m k f) j = if j = k then (kget m k).map f else kget m j := by
  induction m with
  | nil => simp [kupd, kget]
  | cons e m ih =>
    obtain ⟨a, y⟩ := e
    have : kupd ((a, y) :: m) k f = (if a = k then (a, f y) else (a, y)) :: kupd m k f := by simp [kupd]
    rw [this]
    by_cases h : a = k
    · subst h; simp only [if_true, kget, ih]; split_ifs <;> first | rfl | (exfalso; omega)
    · simp only [h, if_false, kget, ih]; split_ifs <;> first | rfl | (exfalso; omega)

end

@[simp] theorem State.setEp_ep (k j : Nat) (x : Ep) : (s.setEp k x).ep j = if j = k then some x else s.ep j := by
  simp [State.ep, kget_kset]
@[simp] theorem State.modEp_ep (k j : Nat) (f : Ep → Ep) :
    (s.modEp k f).ep j = if j = k then (s.ep k).map f else s.ep j := by
  simp [State.ep, kget_kupd]
@[simp] theorem State.setDev_dev (k j : Nat) (x : DevRec) : (s.setDev k x).dev j = if j = k then some x else s.dev j := by
  simp [State.dev, kget_kset]
@[simp] theorem State.modDev_dev (k j : Nat) (f : DevRec → DevRec) :
    (s.modDev k f).dev j = if j = k then (s.dev k).map f else s.dev j := by
  simp [State.dev, kget_kupd]

/-! ### Byte memories (R223, R266) -/

/-- A byte reads as written, and every other byte reads as before. -/
theorem memRead_memWrite (m : List Host.Cell) (a b : Nat) (x : Byte) :
    memRead (memWrite m a x) b = if b = a then x else memRead m b := by
  simp only [memRead, memWrite]
  split_ifs with h1 h2 h2 <;> simp [kget_kset, kget_kdel, h1, h2]

/-- What an area reads as after bytes are written one after another, at an address that none of them has. -/
theorem memRead_memWriteAll (l : List (Nat × Byte)) (m : List Host.Cell) (b : Nat) (h : ∀ e ∈ l, e.1 ≠ b) :
    memRead (memWriteAll m l) b = memRead m b := by
  induction l generalizing m with
  | nil => rfl
  | cons e l ih =>
    obtain ⟨a, x⟩ := e
    rw [memWriteAll, ih _ (fun e he => h e (List.mem_cons_of_mem _ he)), memRead_memWrite]
    have := h (a, x) (by simp)
    simp only at this
    simp [Ne.symm this]

/-- The canonical form, with every address above a bound. -/
theorem wf_cons (a : Nat) (b : Byte) (m : List Host.Cell) :
    Memory.wf ((a, b) :: m) = true ↔ b ≠ 0 ∧ (∀ e ∈ m, a < e.1) ∧ Memory.wf m = true := by
  induction m generalizing a b with
  | nil => simp [Memory.wf]
  | cons e m ih =>
    obtain ⟨c, d⟩ := e
    simp only [Memory.wf, Bool.and_eq_true, bne_iff_ne, ne_eq, decide_eq_true_eq, ih c d, List.mem_cons, forall_eq_or_imp]
    constructor
    · rintro ⟨⟨h1, h2⟩, h3, h4, h5⟩
      exact ⟨h1, ⟨h2, fun e he => lt_trans h2 (h4 e he)⟩, h3, h4, h5⟩
    · rintro ⟨h1, ⟨h2, _⟩, h3, h4, h5⟩
      exact ⟨⟨h1, h2⟩, h3, h4, h5⟩

theorem kset_keys (m : List Host.Cell) (a : Nat) (b : Byte) : ∀ e ∈ kset m a b, e = (a, b) ∨ e ∈ m := by
  induction m with
  | nil => simp [kset]
  | cons e m ih =>
    obtain ⟨c, d⟩ := e
    simp only [kset]
    split_ifs <;> simp only [List.mem_cons] <;> intro e he
    · tauto
    · tauto
    · rcases he with he | he
      · exact .inr (.inl he)
      · rcases ih e he with h | h
        · exact .inl h
        · exact .inr (.inr h)

theorem wf_kset (m : List Host.Cell) (a : Nat) (b : Byte) (hb : b ≠ 0) (h : Memory.wf m = true) : Memory.wf (kset m a b) = true := by
  induction m with
  | nil => simpa [kset, Memory.wf] using hb
  | cons e m ih =>
    obtain ⟨c, d⟩ := e
    rw [wf_cons] at h
    simp only [kset]
    split_ifs with h1 h2
    · rw [wf_cons, wf_cons]
      refine ⟨hb, ?_, h⟩
      intro e he
      rcases List.mem_cons.1 he with rfl | he
      · exact h1
      · exact lt_trans h1 (h.2.1 e he)
    · subst h2; rw [wf_cons]; exact ⟨hb, h.2⟩
    · rw [wf_cons]
      refine ⟨h.1, ?_, ih h.2.2⟩
      intro e he
      rcases kset_keys m a b e he with rfl | he
      · simp only; omega
      · exact h.2.1 e he

theorem wf_kdel (m : List Host.Cell) (a : Nat) (h : Memory.wf m = true) : Memory.wf (kdel m a) = true := by
  induction m with
  | nil => rfl
  | cons e m ih =>
    obtain ⟨c, d⟩ := e
    rw [wf_cons] at h
    by_cases hc : c = a
    · have : kdel ((c, d) :: m) a = kdel m a := by simp [kdel, hc]
      rw [this]; exact ih h.2.2
    · have : kdel ((c, d) :: m) a = (c, d) :: kdel m a := by simp [kdel, hc]
      rw [this, wf_cons]
      exact ⟨h.1, fun e he => h.2.1 e (List.mem_of_mem_filter he), ih h.2.2⟩

/-- A write keeps the canonical form. -/
theorem memWrite_wf (m : List Host.Cell) (a : Nat) (b : Byte) (h : Memory.wf m = true) : Memory.wf (memWrite m a b) = true := by
  simp only [memWrite]
  split_ifs with hb
  · exact wf_kdel m a h
  · exact wf_kset m a b hb h

/-- Writes one after another keep the canonical form. -/
theorem memWriteAll_wf (l : List (Nat × Byte)) (m : List Host.Cell) (h : Memory.wf m = true) :
    Memory.wf (memWriteAll m l) = true := by
  induction l generalizing m with
  | nil => exact h
  | cons e l ih => exact ih _ (memWrite_wf m e.1 e.2 h)

/-- A hawk write keeps the canonical form of both memories. -/
theorem hawkWrite_wf (i : InstNo) (off : Nat) (bs : List Byte) (h : Memory.wf s.mem.hawk = true) :
    Memory.wf (s.hawkWrite i off bs).mem.hawk = true := by
  simpa [State.hawkWrite] using memWriteAll_wf _ _ h

theorem storeWrite_wf (off : Nat) (bs : List Byte) (h : Memory.wf s.mem.store = true) :
    Memory.wf (s.storeWrite off bs).mem.store = true := by
  simpa [State.storeWrite] using memWriteAll_wf _ _ h

end Sys2Proof.Machine
end

