-- ==== Sys2Proof/Laws/Bare.lean ====
section
/-!
SUPPORT. What the reporting operations leave alone: each of them changes nothing of `State.bare`.
-/
namespace Sys2Proof.Machine

variable (s : State)

/-! ### Reading `bare` -/

@[simp] theorem State.bare_port (p : PortNo) : s.bare.port p = s.port p := rfl
@[simp] theorem State.bare_ports : s.bare.ports = s.ports := rfl
@[simp] theorem State.bare_trowel (k : TrowelNo) : s.bare.trowel k = s.trowel k := rfl
@[simp] theorem State.bare_trowels : s.bare.trowels = s.trowels := rfl
@[simp] theorem State.bare_chan (c : ChanNo) : s.bare.chan c = s.chan c := rfl
@[simp] theorem State.bare_chans : s.bare.chans = s.chans := rfl
@[simp] theorem State.bare_ep (k : Nat) : s.bare.ep k = s.ep k := rfl
@[simp] theorem State.bare_eps : s.bare.eps = s.eps := rfl
@[simp] theorem State.bare_dev (z : Nat) : s.bare.dev z = s.dev z := rfl
@[simp] theorem State.bare_devs : s.bare.devs = s.devs := rfl
@[simp] theorem State.bare_tree : s.bare.tree = s.tree := rfl
@[simp] theorem State.bare_disp : s.bare.disp = s.disp := rfl
@[simp] theorem State.bare_pl : s.bare.pl = s.pl := rfl
@[simp] theorem State.bare_boot : s.bare.boot = s.boot := rfl
@[simp] theorem State.bare_snag : s.bare.snag = s.snag := rfl
@[simp] theorem State.bare_pending : s.bare.pending = s.pending := rfl
@[simp] theorem State.bare_nextId : s.bare.nextId = s.nextId := rfl
@[simp] theorem State.bare_deliveries : s.bare.deliveries = s.deliveries := rfl
@[simp] theorem State.bare_commits : s.bare.commits = s.commits := rfl
@[simp] theorem State.bare_hawk : s.bare.mem.hawk = s.mem.hawk := rfl
@[simp] theorem State.bare_store : s.bare.mem.store = s.mem.store := rfl
@[simp] theorem State.bare_inst (i : InstNo) : s.bare.inst i = (s.inst i).bare := vget_map _ _ _
@[simp] theorem State.bare_bare : s.bare.bare = s.bare := by
  have hc : ∀ n (v : Tab Counter n), (v.map Counter.bare).map Counter.bare = v.map Counter.bare := fun n v => by
    apply tab_ext; intro i; simp [Counter.bare]
  have hr : ∀ (v : Tab EvtRing 8), (v.map EvtRing.bare).map EvtRing.bare = v.map EvtRing.bare := fun v => by
    apply tab_ext; intro i; simp [EvtRing.bare]
  have hi : (s.insts.map Inst.bare).map Inst.bare = s.insts.map Inst.bare := by
    apply tab_ext; intro i; simp only [vget_map, Inst.bare, hc, hr]
    congr 1
    cases (vget s.insts i).dirty <;> rfl
  simp only [State.bare, hc, hi]

/-- Equal but for reporting: the mode, the halt and the registers of every object agree. -/
theorem State.bare_eq_mode {s t : State} (h : s.bare = t.bare) : s.pw.mode = t.pw.mode := congrArg (fun u => u.pw.mode) h

/-! ### `bare` of an update of what is no reporting -/

@[simp] theorem State.bare_setPort (p : PortNo) (x : Port) : (s.setPort p x).bare = s.bare.setPort p x := rfl
@[simp] theorem State.bare_modPort (p : PortNo) (f : Port → Port) : (s.modPort p f).bare = s.bare.modPort p f := rfl
@[simp] theorem State.bare_setTrowel (k : TrowelNo) (x : Trowel) : (s.setTrowel k x).bare = s.bare.setTrowel k x := rfl
@[simp] theorem State.bare_modTrowel (k : TrowelNo) (f : Trowel → Trowel) : (s.modTrowel k f).bare = s.bare.modTrowel k f := rfl
@[simp] theorem State.bare_setChan (c : ChanNo) (x : Chan) : (s.setChan c x).bare = s.bare.setChan c x := rfl
@[simp] theorem State.bare_modChan (c : ChanNo) (f : Chan → Chan) : (s.modChan c f).bare = s.bare.modChan c f := rfl
@[simp] theorem State.bare_setEp (k : Nat) (x : Ep) : (s.setEp k x).bare = s.bare.setEp k x := rfl
@[simp] theorem State.bare_modEp (k : Nat) (f : Ep → Ep) : (s.modEp k f).bare = s.bare.modEp k f := rfl
@[simp] theorem State.bare_setDev (z : Nat) (x : DevRec) : (s.setDev z x).bare = s.bare.setDev z x := rfl
@[simp] theorem State.bare_modDev (z : Nat) (f : DevRec → DevRec) : (s.modDev z f).bare = s.bare.modDev z f := rfl
@[simp] theorem State.bare_modPl (f : Planner → Planner) : (s.modPl f).bare = s.bare.modPl f := rfl
@[simp] theorem State.bare_modTree (f : Tree → Tree) : (s.modTree f).bare = s.bare.modTree f := rfl
@[simp] theorem State.bare_modDisp (f : Disp → Disp) : (s.modDisp f).bare = s.bare.modDisp f := rfl
@[simp] theorem State.bare_modBoot (f : Boot → Boot) : (s.modBoot f).bare = s.bare.modBoot f := rfl
@[simp] theorem State.bare_setQueue (q : QueueNo) (x : Queue) : (s.setQueue q x).bare = s.bare.setQueue q x := rfl
@[simp] theorem State.bare_modQueue (q : QueueNo) (f : Queue → Queue) : (s.modQueue q f).bare = s.bare.modQueue q f := rfl
@[simp] theorem State.bare_setGroup (g : GroupNo) (x : Group) : (s.setGroup g x).bare = s.bare.setGroup g x := rfl
@[simp] theorem State.bare_modGroup (g : GroupNo) (f : Group → Group) : (s.modGroup g f).bare = s.bare.modGroup g f := rfl
@[simp] theorem State.bare_takeId : s.takeId.bare = s.bare.takeId := rfl

/-! ### The pieces of reporting -/

@[simp] theorem State.bare_emit (o : Out) : (s.emit o).bare = s.bare := rfl
@[simp] theorem State.bare_takeFree : s.takeFree.bare = s.bare := rfl
@[simp] theorem State.bare_takeFrees (k : Nat) : (s.takeFrees k).bare = s.bare := rfl

theorem State.bare_setInst (i : InstNo) (x : Inst) (h : x.bare = (s.inst i).bare) : (s.setInst i x).bare = s.bare := by
  have : (vset s.insts i x).map Inst.bare = s.insts.map Inst.bare := by
    rw [map_vset, h]
    exact (congrArg _ (vget_map Inst.bare s.insts i).symm).trans (vset_vget _ _)
  simp only [State.bare, State.setInst, this]

theorem State.bare_modInst (i : InstNo) (f : Inst → Inst) (h : (f (s.inst i)).bare = (s.inst i).bare) :
    (s.modInst i f).bare = s.bare := s.bare_setInst i _ h

theorem State.bare_modRing (i : InstNo) (e : RingNo) (f : EvtRing → EvtRing) (h : (f (s.ring i e)).bare = (s.ring i e).bare) :
    (s.modRing i e f).bare = s.bare := by
  apply State.bare_modInst
  have : (vset (s.inst i).evt e (f (s.ring i e))).map EvtRing.bare = (s.inst i).evt.map EvtRing.bare := by
    rw [map_vset, h]
    exact (congrArg _ (vget_map EvtRing.bare (s.inst i).evt e).symm).trans (vset_vget _ _)
  simp only [Inst.bare, this]

theorem State.bare_each {α : Type} (l : List α) (f : State → α → State) (h : ∀ t x, (f t x).bare = t.bare) :
    (s.each l f).bare = s.bare := by
  induction l generalizing s with
  | nil => rfl
  | cons x l ih => exact (ih (f s x)).trans (h s x)

/-! ### Counts -/

theorem CtrBank.count_bare {n : Nat} (b : CtrBank n) (j : Fin n) (o : Occ) (dev : Bool) (free : Nat) :
    (b.count j o dev free).ctrs.map Counter.bare = b.ctrs.map Counter.bare := by
  have key (c : Counter) (h : c.bare = (vget b.ctrs j).bare) : (vset b.ctrs j c).map Counter.bare = b.ctrs.map Counter.bare := by
    rw [map_vset, h]
    exact (congrArg (vset _ _) (vget_map Counter.bare b.ctrs j).symm).trans (vset_vget _ _)
  unfold CtrBank.count
  dsimp only
  split
  · rfl
  · split
    · exact key _ rfl
    · have h := key ((vget b.ctrs j).add o.inc).1 rfl
      split
      · split
        · split <;> exact h
        · exact h
      · split
        · exact h
        · split <;> exact h

theorem CtrBank.countAll_bare {n : Nat} (b : CtrBank n) (o : Occ) (dev : Bool) (free : Nat) :
    (b.countAll o dev free).ctrs.map Counter.bare = b.ctrs.map Counter.bare := by
  unfold CtrBank.countAll
  generalize List.finRange n = l
  induction l generalizing b with
  | nil => rfl
  | cons j l ih => exact (ih _).trans (b.count_bare j o dev free)

@[simp] theorem State.bare_countDev (o : Occ) : (s.countDev o).bare = s.bare := by
  have h := CtrBank.countAll_bare s.devBank o true s.freeNat
  simp only [State.countDev, State.modCnt, State.takeFree, State.bare, h]
  rfl

@[simp] theorem State.bare_countInst (o : Occ) : (s.countInst o).bare = s.bare := by
  unfold State.countInst
  split
  · rfl
  · rename_i i _
    have h := CtrBank.countAll_bare (s.instBank i) o false s.freeNat
    refine (State.bare_modInst _ i _ ?_).trans s.bare_takeFree
    simp only [Inst.bare, h]; rfl

@[simp] theorem State.bare_count (o : Occ) : (s.count o).bare = s.bare := by
  unfold State.count
  split
  · rfl
  · simp

@[simp] theorem State.bare_countHawk (i : InstNo) (off len : Nat) (k c : Option Nat) : (s.countHawk i off len k c).bare = s.bare := by
  unfold State.countHawk
  split
  · rfl
  · exact State.bare_each _ _ _ fun t x => by simp

/-! ### Host memory and messages -/

@[simp] theorem State.bare_ownWrite (addr : Nat) (bs : List Byte) : (s.ownWrite addr bs).bare = s.bare := by
  unfold State.ownWrite
  split
  · simp
  · split
    · rfl
    · exact State.bare_modInst _ _ _ rfl

@[simp] theorem State.bare_logDirty (i : InstNo) (addr len : Nat) : (s.logDirty i addr len).bare = s.bare := by
  unfold State.logDirty
  split
  · rfl
  · rename_i d hd
    refine (State.bare_each _ _ _ fun t x => ?_).trans (State.bare_modInst _ _ _ (by simp [Inst.bare, hd]))
    split
    · rfl
    · rename_i d' hd'
      split
      · rfl
      · dsimp only
        rw [State.bare_ownWrite]
        exact State.bare_modInst _ _ _ (by simp [Inst.bare, hd'])

@[simp] theorem State.bare_hostWriteBy (i : InstNo) (addr : Nat) (bs : List Byte) (k c : Option Nat) :
    (s.hostWriteBy i addr bs k c).bare = s.bare := by simp [State.hostWriteBy]

@[simp] theorem State.bare_hostWrite (i : InstNo) (addr : Nat) (bs : List Byte) : (s.hostWrite i addr bs).bare = s.bare := by
  simp [State.hostWrite]

@[simp] theorem State.bare_hostRead (i : InstNo) (addr len : Nat) (k c : Option Nat) : (s.hostRead i addr len k c).bare = s.bare := by
  simp [State.hostRead]

@[simp] theorem State.bare_sendMsg (i : InstNo) (v : Nat) : (s.sendMsg i v).bare = s.bare := by
  unfold State.sendMsg
  dsimp only
  split
  · rfl
  · split
    · exact State.bare_modInst _ _ _ rfl
    · split
      · simp
      · split <;> rfl

@[simp] theorem State.bare_sendPending (i : InstNo) : (s.sendPending i).bare = s.bare := by
  unfold State.sendPending
  split
  · rfl
  · refine State.bare_each _ _ _ fun t v => ?_
    dsimp only
    split
    · rw [State.bare_sendMsg]; exact State.bare_modInst _ _ _ rfl
    · rfl

/-! ### Event rings -/

@[simp] theorem State.bare_writeMirror (i : InstNo) (e : RingNo) : (s.writeMirror i e).bare = s.bare := by
  unfold State.writeMirror
  exact (State.bare_modRing _ _ _ _ rfl).trans (by simp)

@[simp] theorem State.bare_fireRing (i : InstNo) (e : RingNo) : (s.fireRing i e).bare = s.bare := by
  unfold State.fireRing
  refine (State.bare_modRing _ _ _ _ rfl).trans ?_
  split <;> simp

@[simp] theorem State.bare_storeEvent (i : InstNo) (e : RingNo) (ev : Event) (own : Bool) : (s.storeEvent i e ev own).bare = s.bare := by
  unfold State.storeEvent
  rw [State.bare_count]
  exact (State.bare_modRing _ _ _ _ rfl).trans (by simp)

@[simp] theorem State.bare_putEvent (i : InstNo) (e : RingNo) (ev : Event) (b : Bool) (v : Option Nat) :
    (s.putEvent i e ev b v).bare = s.bare := by
  unfold State.putEvent
  dsimp only
  split <;> split <;> first | (split <;> simp) | simp

theorem bare_drainRing (k : Nat) : ∀ (s : State) (i : InstNo) (e : RingNo), (drainRing k s i e).bare = s.bare := by
  induction k with
  | zero => intro s i e; rfl
  | succ k ih =>
    intro s i e
    unfold drainRing
    split
    · rfl
    · dsimp only
      split
      · rw [ih, State.bare_putEvent]; exact State.bare_modInst _ _ _ rfl
      · rfl

@[simp] theorem State.bare_drain (i : InstNo) (e : RingNo) : (s.drain i e).bare = s.bare := bare_drainRing _ _ _ _

@[simp] theorem State.bare_settle (i : InstNo) (e : RingNo) : (s.settle i e).bare = s.bare := by
  have h : ∀ t : State, (if (t.ring i e).enable && !(t.ring i e).blocked && decide ((t.ring i e).credit < 1) then
      t.modRing i e fun r => { r with blocked := true, blockedTicks := 0, mirrorDue := true } else t).bare = t.bare := by
    intro t
    split
    · exact State.bare_modRing _ _ _ _ rfl
    · rfl
  unfold State.settle
  refine (h _).trans ((State.bare_drain _ _ _).trans ?_)
  split
  · exact (State.bare_modRing _ _ _ _ rfl).trans (State.bare_modInst _ _ _ rfl)
  · rfl

@[simp] theorem State.bare_unsolicited (i : InstNo) (e : RingNo) (src : UnsolSrc) (ev : Event) :
    (s.unsolicited i e src ev).bare = s.bare := by
  unfold State.unsolicited
  rw [State.bare_settle]
  exact State.bare_modInst _ _ _ rfl

@[simp] theorem State.bare_postPort (p : PortNo) : (s.postPort p).bare = s.bare := State.bare_unsolicited _ _ _ _ _

@[simp] theorem State.bare_reserve (i : InstNo) (e : RingNo) : (s.reserve i e).bare = s.bare := by
  unfold State.reserve
  rw [State.bare_settle]
  exact State.bare_modRing _ _ _ _ rfl

@[simp] theorem State.bare_unreserve (i : InstNo) (e : RingNo) : (s.unreserve i e).bare = s.bare := by
  unfold State.unreserve
  rw [State.bare_settle]
  exact State.bare_modRing _ _ _ _ rfl

@[simp] theorem State.bare_postWait (i : InstNo) (w : WaitEvt) : (s.postWait i w).bare = s.bare := by
  unfold State.postWait
  split
  · rw [State.bare_settle, State.bare_putEvent]
    exact State.bare_modRing _ _ _ _ rfl
  · split
    · exact State.bare_modRing _ _ _ _ rfl
    · have h : ∀ n : Inst, ({ n with waiting := n.waiting ++ [w] } : Inst).bare = n.bare := fun _ => rfl
      dsimp only
      split
      · exact (rfl : _ = (s.modInst i fun n => { n with waiting := n.waiting ++ [w] }).bare).trans (State.bare_modInst _ _ _ rfl)
      · exact State.bare_modInst _ _ _ rfl

@[simp] theorem State.bare_postVec (i : InstNo) (e : RingNo) (ev : Event) (b : Bool) (v : Option Nat) :
    (s.postVec i e ev b v).bare = s.bare := State.bare_postWait _ _ _

@[simp] theorem State.bare_post (i : InstNo) (e : RingNo) (ev : Event) (b : Bool) : (s.post i e ev b).bare = s.bare :=
  State.bare_postWait _ _ _

@[simp] theorem State.bare_sendInstCtr (i : InstNo) : (s.sendInstCtr i).bare = s.bare := by
  unfold State.sendInstCtr
  split
  · exact (State.bare_sendMsg _ _ _).trans (State.bare_modInst _ _ _ rfl)
  · rfl

@[simp] theorem State.bare_sendDevCtr : s.sendDevCtr.bare = s.bare := by
  unfold State.sendDevCtr
  split
  · exact (State.bare_sendMsg _ _ _).trans rfl
  · rfl

@[simp] theorem State.bare_sendCtr : s.sendCtr.bare = s.bare := by
  exact (State.bare_each _ _ _ fun t i => t.bare_sendInstCtr i).trans s.bare_sendDevCtr

/-! ### The backing store, commands, and the end of every command -/

@[simp] theorem State.bare_writeRecord (z : Nat) : (s.writeRecord z).bare = s.bare := by
  unfold State.writeRecord
  dsimp only
  split <;> simp

@[simp] theorem State.bare_writeMapEntry (k : Nat) : (s.writeMapEntry k).bare = s.bare := by simp [State.writeMapEntry]

@[simp] theorem State.bare_syncStore : s.syncStore.bare = s.bare := by
  unfold State.syncStore
  split
  · rfl
  · have h (rs ms : List Nat) : ((s.each rs State.writeRecord).each ms State.writeMapEntry).bare = s.bare :=
      (State.bare_each _ _ _ fun t x => t.bare_writeMapEntry x).trans (State.bare_each _ _ _ fun t x => t.bare_writeRecord x)
    dsimp only
    split
    · exact h _ _
    · exact (rfl : _ = State.bare _).trans (h _ _)

/-- A command's end changes nothing but what has been reported. -/
theorem done_bare : ∃ t, done s = .next t ∧ t.bare = s.bare := ⟨_, rfl, by simp⟩

@[simp] theorem State.bare_setPhase (i : InstNo) (slot : BitVec 16) (ph : CmdPhase) : (s.setPhase i slot ph).bare = s.bare :=
  State.bare_modInst _ _ _ rfl

/-- The head of the command ring passes a command that opens no endpoint. -/
theorem State.bare_passHead_command (i : InstNo) (slot : BitVec 16) (ho : ∀ x ∈ s.eps, x.2.opened i slot = x.2) :
    (s.passHead i (.command slot)).bare = s.bare := by
  have hr : (s.modInst i (·.retire slot)).bare = s.bare := State.bare_modInst _ _ _ rfl
  have hm : s.eps.map (fun x => (x.1, x.2.opened i slot)) = s.eps :=
    (List.map_congr_left fun x hx => by rw [ho x hx]; rfl).trans (List.map_id _)
  unfold State.passHead
  dsimp only
  split
  · rw [show (s.modInst i (·.retire slot)).eps = s.eps from rfl, hm]
    exact hr
  · exact hr

theorem State.eps_of_bare {s t : State} (h : s.bare = t.bare) : s.eps = t.eps :=
  (congrArg State.eps h : s.bare.eps = t.bare.eps)

/-- A COMMAND event written, or left waiting, for a command that opens no endpoint is a report alone. -/
theorem State.bare_postCommand (i : InstNo) (slot : BitVec 16) (ev : Event) (ho : ∀ x ∈ s.eps, x.2.opened i slot = x.2) :
    let w : WaitEvt := ⟨0, ev, false, none, .command slot, none, none⟩
    State.bare (if s.canWrite i then (s.postWait i w).after i w else s.postWait i w) = s.bare := by
  intro w
  have he : (s.postWait i w).eps = s.eps := State.eps_of_bare (s.bare_postWait i w)
  split
  · exact ((s.postWait i w).bare_passHead_command i slot (by rw [he]; exact ho)).trans (s.bare_postWait i w)
  · exact s.bare_postWait i w

/-- A command that opens no endpoint ends with a report alone. -/
theorem State.bare_finish (i : InstNo) (slot : BitVec 16) (st : Status) (r : Nat) (ho : ∀ x ∈ s.eps, x.2.opened i slot = x.2) :
    (s.finish i slot st r).bare = s.bare := by
  unfold State.finish
  split
  · rfl
  · have h : (s.modInst i fun n => { n with cmds := n.cmds.filter fun c => c.slot != slot }).bare = s.bare :=
      State.bare_modInst _ _ _ rfl
    refine (State.bare_postCommand _ i slot _ ?_).trans ?_
    · split
      · exact ho
      · rw [State.eps_of_bare (State.bare_count _ _)]; exact ho
    · split
      · exact h
      · rw [State.bare_count]; exact h

end Sys2Proof.Machine
end

