-- ==== Sys2Proof/WellFormed.lean ====
section
/-!
DEFINITION. Well-formed commands: operands within the ranges that the specification gives the things they name (R10, R12, R101,
R232, R235, R402), and data of the lengths that the block reads (R99, R265, R364).
-/
namespace Sys2Proof

/-- A backing-store slot (R10, R101: 131,072 contexts). -/
def okSlot (n : Nat) : Bool := decide (n < 131072)

/-- A zone address of a device (R3, R97: 1 to 4,095). -/
def okZone (n : Nat) : Bool := decide (1 ≤ n) && decide (n < 4096)

/-- A downstream port of a hub (R239: 1 to 15). -/
def okHport (n : Nat) : Bool := decide (1 ≤ n) && decide (n ≤ 15)

/-- A position: a root port, or a downstream port of a hub. -/
def okPos (q : Pos) : Bool := (q.hub == 0 && q.hport == 0) || (okZone q.hub && okHport q.hport)

/-- What carries out rounds. -/
def okHolder : Holder → Bool
  | .ep k => okSlot k
  | .own _ => true
  | .hub z => okZone z

/-- The line of a program in host memory that a stencil instruction's fetch reads (R276): 64 bytes, or nothing where none is read. -/
def okLine (l : List (BitVec 8)) : Bool := l.length == 64 || l.isEmpty

/-- The operands of a command lie in their ranges. -/
def Instr.wf : Instr → Bool
  | .selfTestComplete _ d0 d1 => d0.length == 64 && d1.length == 64
  | .numvfsWrite v => decide (v < 65536)
  | .egressUnhaltRetry k => okSlot k
  | .hostAccessRefused (.transfer k _) => okSlot k
  | .hostAccessTimeout (.transfer k _) => okSlot k
  | .hostAccessRefused (.backing off) => decide (off < 0x8C0000)
  | .hostAccessTimeout (.backing off) => decide (off < 0x8C0000)
  | .contextReadComplete k bs => okSlot k && bs.length == 64
  | .transferEntryTake k _ _ => okSlot k
  | .registerWrite _ off _ => off % 4 == 0
  | .recoveryBackoffExpiry k => okSlot k
  | .silenceBackoffExpiry h => okHolder h
  | .hwkRegionWrite _ d _ => decide (d < 1024)
  | .hubPortQuery h p => okZone h && okHport p
  | .hubBranchUsable h p => okZone h && okHport p
  | .enumRetry q => okPos q
  | .treeIdleExpiry q => okPos q
  | .readdressTimeout z => okZone z
  | .paramBlockReadDone _ bs => bs.length == 128
  | .stencilMove _ r _ _ => okLine r.line
  | .stencilFill _ r => okLine r.line
  | .stencilCmp _ r _ _ _ => okLine r.line
  | .stencilLoop _ l => okLine l
  | .stencilWait _ l => okLine l
  | .stencilSignal _ l => okLine l
  | .stencilJump _ l => okLine l
  | .stencilEnd _ l => okLine l
  | .msixVectorUnmask i v => i == 0 || decide (v.val < 16)
  | _ => true

end Sys2Proof
end

