-- ==== Sys2Proof/Tests/Slice0.lean ====
section
/-!
SUPPORT. Tests: an ill-formed term for each check of WellFormed, small steps, and for each statement that has hypotheses the states and
operands that meet them (the witnesses).
-/
open Sys2Proof Sys2Proof.Machine
namespace Sys2Proof.Tests

set_option Elab.async false

/-! ### States -/

/-- Instances of a running machine: the manager, and instance 1 as a tenant, with everything enabled. -/
def openInst (i : InstNo) : Inst :=
  if i.val < 2 then
    { st := .running, served := true, fresh := false, busMaster := true, memSpace := true, msixEn := true, cmdEn := true
      evt := Vector.replicate 8 { enable := true }, epBase := 16 * i.val, epLimit := 16, gateQuota := 4, flowQuota := 4
      unitMap := [i.val], regionQuota := 4, regions := [(0, ⟨true, 1, 0⟩)] }
  else {}

/-- A running machine with its registers open. -/
def up : State :=
  { State.reset with
    pw := { State.reset.pw with mode := .shared, linkUp := true, barsReady := true, perst := false, primeInstant := 9, vfEnable := true, numVfs := 1 }
    insts := Vector.ofFn openInst }

/-- An endpoint of the manager. -/
def ep0 : Ep :=
  { inst := 0, zone := 1, epid := 2, kind := .bulk, interval := 0, phase := 0, evtRing := 0, maxBlock := 512, errThreshold := 3
    errCount := 0, retryLimit := 3, retryCount := 0, st := .running, nextSeq := 0, expectSeq := 0, silenceRun := 0, trBase := 0
    trSize := 0, trHead := 0, trTail := 0, region := 0, heldValid := false, heldLen := 0, heldReplaced := 0, flowId := 0
    flowEn := false, egressSafe := false, svcCost := 0, commitRef := 0, blocksDone := 0, bytesDone := 0, cur := none, carry := []
    carryEot := false, backoff := false, backoffAt := 0, picked := false, delivering := false, lastSilence := false, missRun := false
    recovering := false, force := none, streamBlock := 0, newSched := none, opening := none, newlyOpen := false }

/-- A command entry of an opcode, with fields (low bit, width, value). -/
def ce (op : Nat) (l : List (Nat × Nat × Nat)) : CEntry := BitVec.ofNat 512 (pack ((0, 8, op) :: l))

/-- The state with a command of an instance fetched. -/
def withCmdOf (i : InstNo) (s : State) (e : CEntry) : State := s.modInst i fun n => { n with cmds := [⟨0, e, .fetched⟩] }

def withCmd (s : State) (e : CEntry) : State := withCmdOf 0 s e

/-- With the command fetched, it is carried out: what `Ordered` says, in a decidable form. -/
abbrev Takes (s : State) (op : Nat) (form : CEntry → Bool) (e : CEntry) : Prop :=
  (withCmd s e).starts 0 0 op form = some e ∧ (withCmd s e).notPermitted 0 e = false

theorem ordered {s : State} {op : Nat} {form : CEntry → Bool} {e : CEntry} (h : Takes s op form e) :
    (withCmd s e).Ordered 0 0 op form e := h

/-! ### Ill-formed commands: one for each check of `Instr.wf` -/

theorem test_wf_directory : Instr.wf (.selfTestComplete none (List.replicate 63 0) (List.replicate 64 0)) = false := by decide
theorem test_wf_numvfs : Instr.wf (.numvfsWrite 65536) = false := by decide
theorem test_wf_egress_slot : Instr.wf (.egressUnhaltRetry 131072) = false := by decide
theorem test_wf_refused_transfer : Instr.wf (.hostAccessRefused (.transfer 131072 0)) = false := by decide
theorem test_wf_timeout_transfer : Instr.wf (.hostAccessTimeout (.transfer 131072 0)) = false := by decide
theorem test_wf_refused_store : Instr.wf (.hostAccessRefused (.backing 0x8C0000)) = false := by decide
theorem test_wf_timeout_store : Instr.wf (.hostAccessTimeout (.backing 0x8C0000)) = false := by decide
theorem test_wf_context_slot : Instr.wf (.contextReadComplete 131072 (List.replicate 64 0)) = false := by decide
theorem test_wf_context_length : Instr.wf (.contextReadComplete 0 (List.replicate 63 0)) = false := by decide
theorem test_wf_entry_slot : Instr.wf (.transferEntryTake 131072 0 .ok) = false := by decide
theorem test_wf_register_alignment : Instr.wf (.registerWrite 0 2 0) = false := by decide
theorem test_wf_recovery_slot : Instr.wf (.recoveryBackoffExpiry 131072) = false := by decide
theorem test_wf_holder : Instr.wf (.silenceBackoffExpiry (.hub 0)) = false := by decide
theorem test_wf_region : Instr.wf (.hwkRegionWrite 0 1024 0) = false := by decide
theorem test_wf_query_hub : Instr.wf (.hubPortQuery 4096 1) = false := by decide
theorem test_wf_query_port : Instr.wf (.hubPortQuery 1 16) = false := by decide
theorem test_wf_usable_port : Instr.wf (.hubBranchUsable 1 0) = false := by decide
theorem test_wf_retry_position : Instr.wf (.enumRetry ⟨0, 0, 1⟩) = false := by decide
theorem test_wf_idle_position : Instr.wf (.treeIdleExpiry ⟨0, 1, 0⟩) = false := by decide
theorem test_wf_readdress : Instr.wf (.readdressTimeout 0) = false := by decide
theorem test_wf_parameters : Instr.wf (.paramBlockReadDone 0 []) = false := by decide
theorem test_wf_vector : Instr.wf (.msixVectorUnmask 1 16) = false := by decide

/-! ### The spec's worked examples -/

/-- "The CRC-8 of a POLL" (02): the six bytes on the wire. -/
theorem test_poll : tokenPacket pidPoll 0x2C7 0x11 0 0 = [0xE1, 0xC7, 0x12, 0x01, 0x00, 0x77] := by decide +kernel

/-- The check value of the CRC-32C (R35). -/
theorem test_crc32c : crc32c [0x31, 0x32, 0x33, 0x34, 0x35, 0x36, 0x37, 0x38, 0x39] = 0xE3069283 := by decide +kernel

/-- "One periodic poll at Express" (02) and the commit rounds of the scene (06): 72 and 67 byte-times; the timeout is 1.2 µs. -/
theorem test_costs : svcCost .express 2 32 true = 72 ∧ svcCost .express 2 16 false = 67 ∧ timeout .express 2 = 120 := by decide +kernel

/-- "A lost block across the wrap" (02): blocks 30 and 31 are done. -/
theorem test_lost_block : ((0 : BitVec 5) - 30).toNat = 2 ∧ ((2 : BitVec 5) - 0).toNat = 2 := by decide

/-- "Credit on a wrapped ring" (04). -/
theorem test_credit :
    ({ size := 4, head := 40, tail := 10, reserved := 21 } : EvtRing).credit = 7 ∧
    ({ size := 4, head := 72, tail := 10, reserved := 21 } : EvtRing).credit = 39 := by decide +kernel

/-- "Encoding an OPEN_ENDPOINT" (05): the fields of its first 16 bytes. -/
theorem test_open_endpoint :
    let e : CEntry := BitVec.ofNat 512 (leNat
      [0x12, 0, 0, 0, 7, 0, 0, 0, 0x03, 0x00, 0x0A, 0x20, 0x31, 0x98, 0x80, 0x20])
    ceOp e = 0x12 ∧ fld e 63 32 = 7 ∧ fld e 80 64 = 3 ∧ fld e 92 81 = 5 ∧ fld e 95 93 = 1 ∧ fld e 100 96 = 0x11 ∧ fld e 102 101 = 1 ∧
    fld e 106 103 = 0 ∧ fld e 109 107 = 3 ∧ fld e 113 110 = 2 ∧ fld e 123 114 = 32 ∧ fld e 127 124 = 2 := by decide +kernel

/-- "Addresses of a tenant" (14): the doorbell word. -/
theorem test_doorbell_word : fld (0x40011 : Word) 32 16 = 4 ∧ fld (0x40011 : Word) 15 0 = 0x11 := by decide

/-- Queues 8 and 9 of group 2, as "Weights and a busy flow" (10) has them. -/
def twoQueues (d8 d9 : Nat) : State :=
  ((up.modGroup 2 fun g => { g with fifo := [] }).modQueue 8 fun q => { q with enable := true, weight := 3, depthMax := 8, depth := d8 }).modQueue
    9 fun q => { q with enable := true, weight := 1, depthMax := 8, depth := d9 }

/-- "Weights and a busy flow" (10): A goes to queue 8 by the tie, C to queue 9, B to queue 8. -/
theorem test_weights :
    (twoQueues 2 0).chooseQueue 2 = some 8 ∧ (twoQueues 3 0).chooseQueue 2 = some 9 ∧ (twoQueues 2 1).chooseQueue 2 = some 8 := by
  decide +kernel

/-! ### Steps -/

/-- What a command makes of a state, seen through `f`. -/
def after {α : Type} (c : Instr) (s : State) (f : State → α) : Option α :=
  match exec c s with
  | .next t => some (f t)
  | _ => none

/-- The frame count goes on while the controller is halted (R199, R361). -/
theorem test_tick : after .subframeTick { up with pw := { up.pw with halted := true } } (fun t => (t.pl.subN, t.pl.cycle)) = some (1,
150000) := by decide +kernel

/-- PERST_N released with the supplies valid starts PRIME (R366). -/
theorem test_prime : after .perstNRelease State.reset (fun t => (t.pw.primeInstant, t.pw.resetCause, t.pw.perst)) = some (1, 2, false) := by
  decide +kernel

/-- An empty queue idles; a command in it runs (log 2). -/
theorem test_step : step up = .next up ∧
    (match step { up with pending := [.tapReset, .subframeTick] } with
     | .next t => t.pending = [.subframeTick]
     | _ => False) := ⟨rfl, rfl⟩

/-- A NOP completes with CMD_OK at the tail of event ring 0, and `head` passes it (R92, R108). -/
theorem test_nop : after (.nop 0 0) (withCmd up (ce 0x01 [(32, 32, 9)])) (fun t => ((t.inst 0).cmdHead, (t.ring 0 0).tail,
    t.out.any fun o => match o with
      | .hostWrite _ at' bs => at' == 0 && bs.take 4 == [2, 0x20, 0, 0] && numAt bs 24 4 == 9
      | _ => false)) = some (1, 1, true) := by decide +kernel

/-! ### Witnesses -/

theorem wit_InvKept : State.reset.Inv ∧ step State.reset = .next State.reset := ⟨⟨by decide, by decide, by decide⟩, rfl⟩

theorem wit_StepTakesFront : State.reset.pending = [] := rfl

theorem wit_PrimeReset : ((up.modPort 31 fun x => { x with ppwrEn := true }).port 31).ppwrEn = true ∧
  (up.port 0).ppwrEn = false := by decide +kernel

/-- Before instant 1. -/
def inPrime (n : Nat) : State := { State.reset with pw := { State.reset.pw with primeInstant := n } }
def inMode (m : Mode) : State := { State.reset with pw := { State.reset.pw with mode := m, perst := false } }

theorem wit_PrimeInstants_start :
    ((inPrime 0).pw.mode = .prime ∧ (inPrime 0).pw.primeInstant = 0 ∧ (inPrime 0).pw.perst = true ∧ (inPrime 0).pw.aonValid = true ∧
      (inPrime 0).pw.mainValid = true) ∧
    ((inMode .off).pw.mode = .off ∧ (inMode .off).pw.perst = false ∧ (inMode .off).pw.mainValid = true) ∧
    ((inMode .retain).pw.mode = .retain ∧ (inMode .retain).pw.perst = false ∧ (inMode .retain).pw.aonValid = true) := by decide +kernel

/-- A slot is tried; the boot directory was valid. -/
def trying : State := { inPrime 5 with boot := { State.reset.boot with trying := some false } }

/-- A boot directory copy that names slot A. -/
def validDir : List Byte := ({ valid := true, dseq := 1, active := false, trial := none } : BootDir).bytes

theorem wit_PrimeInstants :
    (∀ n ∈ [1, 2, 3, 5, 9], (inPrime n).pw.mode = .prime ∧ (inPrime n).pw.primeFailed = false ∧ (inPrime n).pw.primeInstant = n) ∧
    (trying.pw.mode = .prime ∧ trying.pw.primeFailed = false ∧ trying.boot.trying = some false ∧
      trying.boot.refused = none) := by decide +kernel

theorem wit_PrimeInstants_dir :
    ({ (inPrime 3).boot with dir0 := BootDir.read validDir, dir1 := BootDir.read [] } : Boot).dir.valid = true := by decide +kernel

/-- A configuration image with no records. -/
def emptyConfig : List Byte :=
  leBytes 4 0x47464355 ++ leBytes 2 1 ++ leBytes 2 0 ++ leBytes 4 80 ++ List.replicate 68 0

def compatConfig : List Byte :=
  leBytes 4 0x47464355 ++ leBytes 2 1 ++ leBytes 2 1 ++ leBytes 4 80 ++ List.replicate 68 0

theorem wit_PrimeEnds :
    (∀ n ∈ [6, 7, 8], (inPrime n).pw.mode = .prime ∧ (inPrime n).pw.primeFailed = false ∧ (inPrime n).pw.primeInstant = n) ∧
    fwRefusal [] 0 = some 1 ∧ trying.boot.trying = some false ∧ trying.boot.refused = none ∧
    (inPrime 7).cfgOk emptyConfig = true ∧ (inPrime 7).cfgOk [] = false ∧
    ((inPrime 8).pw.lcState ≠ .scrapped ∧ (inPrime 8).boot.forerunner = false ∧ (inPrime 8).pw.egress = false) := by decide +kernel

theorem wit_ModeEntered :
    ((inPrime 7).pw.mode = .prime ∧ (inPrime 7).pw.primeInstant = 7 ∧ (inPrime 7).pw.primeFailed = false ∧
      (inPrime 7).pw.lcState ≠ .scrapped ∧ (inPrime 7).boot.forerunner = false) ∧
    ((inPrime 7).cfgOk emptyConfig = true ∧ numAt emptyConfig 6 2 % 2 = 0) ∧
    ((inPrime 7).cfgOk compatConfig = true ∧ numAt compatConfig 6 2 % 2 = 1) := by decide +kernel

theorem wit_Resets :
    (up.pw.mode ≠ .off ∧ up.pw.perst = false ∧ up.pw.mode.isRunning = true ∧ up.pw.aonValid = true ∧ up.pw.mainValid = true ∧
      up.runs = true ∧ up.pw.linkUp = true) ∧
    (∀ m ∈ [Mode.off, .retain, .standby, .prime], (inMode m).pw.perst = false ∧ (inMode m).pw.mode = m) ∧
    ({ up with pw := { up.pw with halted := true } } : State).pw.halted = true ∧
    ({ up with pw := { up.pw with bmcResetEn := true } } : State).pw.bmcResetEn = true := by decide +kernel

/-- RETAIN with port 3 powered and allowed to wake. -/
def retaining : State :=
  { (inMode .retain).modPort 3 fun x => { x with ppwrEn := true } with
    pw := { (inMode .retain).pw with
      retention := some ⟨Vector.replicate 32 true, Vector.replicate 32 0, Vector.replicate 32 true, none, Vector.replicate 32 false, .sole, 0, 2⟩ } }

theorem wit_Retain :
    up.pw.mode.isRunning = true ∧ (inMode .standby).pw.mode = .standby ∧ (inMode .off).pw.mode = .off ∧ (inPrime 5).pw.mode = .prime ∧
    (retaining.pw.mode = .retain ∧ (retaining.pw.retention.map fun r => vget r.wakeEn 3) = some true ∧ retaining.pw.wakeN = false ∧
      (retaining.port 3).ppwrEn = true) := by decide +kernel

/-- A device on port 0, addressed as 1. -/
def dev1 : DevRec :=
  { port := 0, tier := 0, parent := 0, phport := 0, route := 0, hub := false, rev3 := true, speed := .express, owner := 0, hubPorts := 0
    st := .addressed, ep0Max := 64, cls := 0, admitFrame := 0, resetGen := 0, awaiting := false, perPort := false, statusOn := false
    statusPhase := 0, statusSeq := 0, bits := 0, hports := [], work := 0 }

/-- The running machine with that device, on an ENABLED port. -/
def plugged : State :=
  { up with devs := [(1, dev1)] }.modPort 0 fun x => { x with st := .enabled, speed := .express, reckoned := .express, ppwrEn := true, line := .restP }

/-- EGRESS_N in force, with an active entry for a halted endpoint. -/
def overridden : State :=
  { plugged with
    eps := [(5, { ep0 with kind := .periodic, epid := 3, egressSafe := true, st := .halted })]
    pw := { plugged.pw with egress := true, egressProg := [⟨5, 0, 4, [1, 2, 3, 4]⟩] } }

theorem wit_Egress :
    (up.pw.egress = false ∧ up.alive = true ∧ (inPrime 5).pw.egress = false ∧ (inPrime 5).pw.mode = .prime ∧
      (inMode .retain).pw.egress = false ∧ (inMode .retain).pw.mode = .retain) ∧
    (overridden.pw.mode ≠ .off ∧ overridden.pw.egress = true) ∧
    (overridden.alive = true ∧ overridden.egressNames 5 = true ∧ (overridden.ep 5).map (·.st) = some .halted ∧
      (overridden.ep 5).map (·.recovering) = some false) := by decide +kernel

/-- Sensors with a core supply of so many mV. -/
def coreAt (mv : Nat) : Sensors := ⟨mv, 800, 3300, 800, 25, false, false⟩

theorem wit_Shedding :
    (up.runs = true ∧ up.pw.hot = false ∧ (coreAt 729).tempC < 110 ∧ up.pw.shedStep = 0 ∧
      ({ up.pw with sens := coreAt 729 } : Power).causes 1 ≠ 0) ∧
    (({ up.pw with sens := coreAt 726 } : Power).causes 2 ≠ 0 ∧ ({ up.pw with sens := coreAt 711 } : Power).causes 7 ≠ 0) ∧
    (∀ n ∈ [1, 6], ({ up with pw := { up.pw with mode := .shed, shedStep := n, acted := n } } : State).runs = true) ∧
    (({ up.pw with sens := coreAt 740 } : Power).causes 1 = 0 ∧ ({ up.pw with sens := coreAt 740 } : Power).retraced 1 = true ∧
      up.pw.thermal = 0) := by decide +kernel

/-- No tenants. -/
def alone : State :=
  { up with
    pw := { up.pw with mode := .sole, vfEnable := false }
    insts := Vector.ofFn fun i => if i = 0 then openInst 0 else {} }

theorem wit_Functions :
    (alone.cfgOpen = true ∧ alone.pw.vfEnable = false ∧ alone.inCompat = false ∧ (∀ i, (alone.inst i).leaving = false)) ∧
    (let s : State := { alone with pw := { alone.pw with vfEnable := true, mode := .shared } }
     s.cfgOpen = true ∧ s.pw.vfEnable = true ∧ s.pw.mode = .shared ∧ ∀ i, i ≠ 0 → (s.inst i).st = .disabled) ∧
    ((∀ i ∈ [(0 : InstNo), 1], up.fnOpen i = true ∧ (up.inst i).d3hot = false ∧ (up.inst i).waiting = []) ∧
      (let u := up.modInst 1 fun n => { n with d3hot := true }
       (u.inst 0).d3hot = false ∧ u.fnOpen 1 = true ∧ (u.inst 1).d3hot = true) ∧
      (alone.fnOpen 0 = true ∧ alone.pw.mode.isRunning = true ∧
        ∀ j : InstNo, j = 0 ∨ (alone.inst j).st = .disabled)) ∧
    ((up.modInst 0 fun n => { n with busMaster := false }).inst 0).busMaster = false := by decide +kernel

theorem wit_Messages :
    (up.regsOpen 0 = true ∧ (up.inst 0).fresh = false ∧ up.inCompat = false ∧ 63 < vectors 0 ∧ up.regsOpen 1 = true ∧
      (up.inst 1).fresh = false ∧ 15 < vectors 1) ∧
    (let s : State := { up with pw := { up.pw with l1 := some .l12, msgQueue := [(0, 1), (1, 2)] }, cnt := { up.cnt with shedStopped := true } }
     s.pw.l1 = some .l12 ∧ (∀ m ∈ s.pw.msgQueue, s.canWrite m.1 = true) ∧ s.cnt.msgDue = false ∧ (∀ i, (s.inst i).ctrMsgDue = false) ∧
       s.cnt.shedStopped = true ∧ s.mem.bsLock = false) ∧
    (up.alive = true ∧ up.pw.linkUp = true ∧ up.pw.l1 = none ∧ up.pw.msgQueue = [] ∧
      (let s : State := { up.modInst 1 fun n => { n with busMaster := false } with pw := { up.pw with msgQueue := [(1, 2)] } }
       ∀ m ∈ s.pw.msgQueue, s.canWrite m.1 = false)) := by decide +kernel

/-- A command of the manager that names tenant 1. -/
def onTenant (op : Nat) (l : List (Nat × Nat × Nat)) : CEntry := ce op ((64, 6, 1) :: l)

def tenantIn (st : InstState) : State := up.modInst 1 fun n => { n with st := st }

theorem wit_InstanceLife :
    (Takes up 0x44 anyForm (onTenant 0x44 []) ∧ Takes up 0x44 anyForm (onTenant 0x44 [(70, 1, 1)]) ∧
      Takes (tenantIn .frozen) 0x44 anyForm (onTenant 0x44 []) ∧ (withCmd up (onTenant 0x44 [])).tenantOf (onTenant 0x44 []) = some 1 ∧
      ((withCmd up (onTenant 0x44 [])).inst 1).st = .running ∧ bitOf (onTenant 0x44 []) 70 = false ∧
      bitOf (onTenant 0x44 [(70, 1, 1)]) 70 = true) ∧
    ((tenantIn .quiescing).runs = true ∧ (tenantIn .quiescing).quiet 1 = true ∧ ((tenantIn .quiescing).inst 1).abort = false ∧
      (tenantIn .quiescing).pw.shedStep < 5 ∧ (tenantIn .quiesced).midBlock 1 = false ∧ (tenantIn .halted).midBlock 1 = false) ∧
    (∀ st ∈ [InstState.quiescing, .quiesced], Takes (tenantIn st) 0x45 anyForm (onTenant 0x45 [])) ∧
    (∀ st ∈ [InstState.halted, .quiesced], Takes (tenantIn st) 0x46 anyForm (onTenant 0x46 [])) ∧
    ((up.inst 1).st ≠ .disabled ∧ (up.inst 1).flrAsked = false ∧ up.alive = true ∧ up.pw.linkUp = true) ∧
    ∀ b ∈ [false, true], (let s := up.modInst 1 fun n => { n with flrAsked := true, leaving := b }
      (s.inst 1).flrAsked = true ∧ (s.inst 1).operating = false ∧ s.midBlock 1 = false ∧ (s.inst 1).leaving = b) := by decide +kernel

/-- Tenant 1 with a dirty log. -/
def logging : State := up.modInst 1 fun n => { n with dirty := some ⟨0x1000, 0, 64, false, [3]⟩ }

theorem wit_InstanceLife_dirty :
    (Takes up 0x49 (fun e => fld e 71 70 < 2) (onTenant 0x49 [(70, 2, 1)]) ∧
      (withCmd up (onTenant 0x49 [(70, 2, 1)])).tenantOf (onTenant 0x49 [(70, 2, 1)]) = some 1 ∧
        fld (onTenant 0x49 [(70, 2, 1)]) 71 70 = 1 ∧
      (up.inst 1).dirty = none) ∧
    (Takes logging 0x49 (dirtyForm 3) (onTenant 0x49 [(70, 2, 3), (128, 64, 0x2000)]) ∧
      (logging.inst 1).dirty = some ⟨0x1000, 0, 64, false, [3]⟩ ∧ 0x1000 ≠ fld (onTenant 0x49 [(70, 2, 3), (128, 64, 0x2000)]) 191 128) ∧
    Takes logging 0x49 (dirtyForm 2) (onTenant 0x49 [(70, 2, 2)]) := by decide +kernel

/-- A doorbell: instance bits as the page has them, `target` in bits [32:16], the new `tail` in bits [15:0]. -/
def bell (target tail : Nat) : Word := BitVec.ofNat 64 (target * 2 ^ 16 + tail)

/-- The manager in legacy mode, alone. -/
def compat : State := { alone with pw := { alone.pw with mode := .compat } }

theorem wit_Doorbells :
    (up.nativeRegs 0 = true ∧ (up.inst 0).fresh = false ∧ (up.inst 0).halted = false ∧ fld (bell 0 1) 63 33 = 0 ∧ fld (bell 0 1) 32 16 = 0 ∧
      (up.inst 0).cmdEn = true ∧
      tailOk (up.inst 0).cmdEntries (up.inst 0).cmdHead (up.inst 0).cmdTail (BitVec.ofNat 16 (fld (bell 0 1) 15 0)) = true ∧
      tailOk (up.inst 0).cmdEntries (up.inst 0).cmdHead (up.inst 0).cmdTail (BitVec.ofNat 16 (fld (bell 0 15) 15 0)) = true) ∧
    ((up.modInst 1 fun n => { n with cmdEn := false }).inst 1).cmdEn = false ∧
    (let s : State := { plugged with eps := [(15, ep0)] }
     s.nativeRegs 0 = true ∧ fld (bell 16 1) 32 16 ≠ 0 ∧ s.epOf 0 (fld (bell 16 1) 32 16 - 1) = some (15, ep0) ∧
      ep0.opening = none ∧ tailOk ep0.ringSize ep0.trHead ep0.trTail (BitVec.ofNat 16 (fld (bell 16 1) 15 0)) = true) ∧
    (let e := { ep0 with opening := some 3 }
     let s : State := { plugged with eps := [(15, e)] }
     s.nativeRegs 0 = true ∧ s.epOf 0 (fld (bell 16 1) 32 16 - 1) = some (15, e) ∧ e.opening.isSome = true) ∧
    (compat.regsOpen 0 = true ∧ compat.inCompat = true ∧ (compat.inst 0).fresh = false ∧ (compat.inst 0).halted = false ∧
      fld (1 : BitVec 32) 31 16 = 0 ∧ (compat.inst 0).cmdEn = true ∧
      tailOk (compat.inst 0).cmdEntries (compat.inst 0).cmdHead (compat.inst 0).cmdTail (BitVec.ofNat 16 (fld (1 : BitVec 32) 15 0)) = true) :=
  by decide +kernel

theorem wit_RingRegisters :
    (up.regsOpen 0 = true ∧ (up.inst 0).fresh = false ∧ up.regsOpen 1 = true ∧ (up.inst 1).fresh = false) ∧
    (let s := up.modRing 0 7 fun r => { r with tail := 15 }
     s.ringReached 7 = true ∧ (s.ring 0 7).used = 15 ∧ (s.ring 0 7).entries = 16 ∧ (s.ring 0 6).used = 0) ∧
    (let s := up.modInst 1 fun n => { n with cmdEn := false }
     s.regsOpen 1 = true ∧ (s.inst 1).cmdEn = false ∧ (s.ring 1 0).enable = true) ∧
    (let s : State := { up.modInst 0 fun n => { n with cmdEn := false } with mem := { up.mem with bsLock := true } }
     s.regsOpen 0 = true ∧ (s.inst 0).cmdEn = false ∧ (s.ring 0 0).enable = true ∧ s.mem.bsLock = true) ∧
    ((up.inst 0).cmdHead = (up.inst 0).cmdTail ∧ (up.inst 0).waiting = []) ∧
    (let s := up.modRing 1 7 fun r => { r with enable := false }
     s.regsOpen 1 = true ∧ (s.ring 1 7).enable = false ∧ s.canWrite 1 = true ∧
      (s.modInst 1 fun n => { n with busMaster := false }).canWrite 1 = false ∧
      (s.modInst 1 fun n => { n with busMaster := false }).regsOpen 1 = true) ∧
    (up.ringReached 7 = true ∧ up.ringNeeded 1 7 = false ∧ up.mem.bsLock = false) := by decide +kernel

/-- A bulk OUT endpoint with an entry to take. -/
def outEp : Ep := { ep0 with epid := 3, trTail := 1 }

theorem wit_TakingWork :
    (let s := up.modInst 0 fun n => { n with cmdTail := 1 }
     s.takesWork 0 = true ∧ (s.inst 0).cmdEn = true ∧ (s.inst 0).cmdFetch ≠ (s.inst 0).cmdTail ∧ (s.inst 0).started < 16 ∧
      (s.ring 0 0).hasCredit = true ∧ ceMalformed (ce 0x01 []) = none) ∧
    (let s : State := { plugged with eps := [(5, outEp)] }
     s.ep 5 = some outEp ∧ s.takesEntry 5 outEp = true ∧ s.cachedOf (.ep 5) = true ∧
       teMalformed outEp (BitVec.ofNat 256 (2 ^ 108 + 2 ^ 64)) = none ∧ outEp.kind = .bulk ∧
      outEp.inward = false ∧ outEp.flowEn = false ∧ outEp.force = none) ∧
    (let s := up.modRing 1 3 fun r => { r with mirrorDue := true, counted := 1 }
     (s.ring 1 3).enable = true ∧ s.canWrite 1 = true ∧ (s.ring 1 3).mirrorDue = true ∧ (s.ring 1 3).counted ≠ 0) ∧
    (let s : State := { up with mem := { up.mem with bsLock := true, cache := [7] } }
     s.mem.bsLock = true ∧ 131071 ∉ s.mem.cache ∧ 131071 ∉ s.mem.reading ∧ 7 ∈ s.mem.cache) ∧
    (let s : State := { up with mem := { up.mem with bsLock := true, reading := [131071] }, eps := [(131071, ep0)] }
     s.runs = true ∧ 131071 ∈ s.mem.reading ∧ 131071 ∉ s.mem.cache ∧ (s.ep 131071).isSome = true ∧ s.mem.cache.length < 8192 ∧
      crc8 ((List.replicate 63 (0 : Byte) ++ [57]).take 63) = (List.replicate 63 (0 : Byte) ++ [57]).getD 63 0) ∧
    Takes up 0x01 anyForm (ce 0x01 []) := by decide +kernel

theorem wit_Malformed :
    (up.runs = true ∧ (up.inst 0).halted = false) ∧ ((1 : InstNo) ≠ 0 ∧ (up.inst 1).halted = false ∧ (up.inst 1).st = .running) := by
  decide +kernel

theorem wit_RegisterWrites :
    (up.regsOpen 0 = true ∧ (up.inst 0).fresh = false ∧ up.inCompat = false ∧ up.sngOpen = true ∧ (up.chan 15).owner ≠ 1) ∧
    ((up.modPort 31 fun x => { x with reckoned := .reach }).port 31).reckoned ≠ .none ∧
    (let w : Word := BitVec.ofNat 64 (2 ^ 63 + 2 ^ 32)
     up.regionOk 0 1 ⟨bitOf w 63, fld w 47 32, fld w 15 0⟩ = false ∧ up.regionOk 0 0 ⟨bitOf w 63, fld w 47 32, fld w 15 0⟩ = true) := by
  decide +kernel

theorem wit_RegionsDisjoint : up.regionOk 0 0 ⟨true, 1, 0⟩ = true ∧ up.regionOk 0 3 ⟨false, 0, 0⟩ = true := by decide +kernel

theorem wit_CounterRegisters :
    up.nativeRegs 0 = true ∧ (up.inst 0).fresh = false ∧
    (let s : State := { up with cnt := { up.cnt with mtrRunning := true }, pl := { up.pl with subN := 8000 } }
     s.nativeRegs 0 = true ∧ s.cnt.mtrRunning = true ∧ s.cnt.shedStopped = false ∧ (s.inst 0).fresh = false ∧
       s.cnt.mtrFrom + 8 * (s.cnt.mtrFrames.toNat + 1) = s.pl.subN ∧ up.pl.subN < up.cnt.mtrFrom + 8 * (up.cnt.mtrFrames.toNat + 1)) := by
  decide +kernel

/-- A counter of tokens sent on every set. -/
theorem wit_Counting :
    up.cnt.shedStopped = false ∧
    (let c : Counter := { (vget up.cnt.ctrs 0) with enable := true, cls := 0x09 }
     c.passes { cls := 0x09, inst := some 1 } true = true ∧ c.discard = 0 ∧
       (vget up.cnt.ctrs 7).passes { cls := 0x09, inst := none } true = false) := by decide +kernel

/-- An item of the manager with no flow, in the FIFO of group 0. -/
def item0 (st : ItemState) : Item :=
  { owner := 0, group := 0, flow := 0, src := 0, tag := 0, bytes := 0, status := 0, ringIndex := 0, ep := 0, gate := 0, st := st
    stamp := 0, ready := 0, seq := 0 }

/-- Group 0 with an item to deliver, and queue 3 of it enabled. -/
def dispatching : State :=
  ((up.modDisp fun d => { d with items := [(4, item0 .pending)] }).modGroup 0 fun y => { y with fifo := [4] }).modQueue 3 fun y =>
    { y with enable := true }

/-- Item 4 in service of queue 3. -/
def serving : State :=
  (up.modDisp fun d => { d with items := [(4, item0 (.inService 3))] }).modQueue 3 fun y => { y with enable := true, depth := 1 }

/-- Release of item 4 by queue 3. -/
def releaseWord : Word := BitVec.ofNat 64 (4 * 2 ^ 16 + 3)

theorem wit_DispatchRegisters :
    (let s : State := { up with pl := { up.pl with subN := 8000 } }
     s.nativeRegs 0 = true ∧ (s.inst 0).fresh = false ∧ s.pw.mode.isRunning = true ∧
       s.disp.windowAt + 8 * (s.disp.windowFrames.toNat + 1) = s.pl.subN ∧
       up.pl.subN < up.disp.windowAt + 8 * (up.disp.windowFrames.toNat + 1)) ∧
    (up.nativeRegs 0 = true ∧ (up.inst 0).fresh = false ∧ up.pw.mode.isRunning = true ∧ up.disp.trace.enable = false) ∧
    ((up.group 15).fifo = [] ∧ (∀ q, (up.queue q).group = 15 → (up.queue q).depth = 0) ∧ (dispatching.group 0).fifo ≠ [] ∧
      dispatching.nativeRegs 0 = true) ∧
    ((up.group 0).owner = 0 ∧ (up.queue 63).depth = 0 ∧ (up.queue 63).owner = 0) ∧
    (let w : Word := BitVec.ofNat 64 (255 * 2 ^ 23 + 15 * 2 ^ 19 + 7 * 2 ^ 16)
     fld w 18 16 = 7 ∧ fld w 30 23 ≠ 0 ∧ fld w 22 19 ≠ 0) ∧
    (bitOf (268 : Word) 8 = true ∧ fld (268 : Word) 3 0 ≤ 12) ∧
    (serving.released 0 releaseWord = some (4, item0 (.inService 3)) ∧ fld releaseWord 5 0 = 3 ∧ serving.nativeRegs 0 = true ∧
      serving.disp.trace.enable = false) := by decide +kernel

theorem wit_Dispatch :
    dispatching.runs = true ∧ (0 : GroupNo).val = (dispatching.disp.lastGroup.val + 1) % 16 ∧ (dispatching.group 0).fifo = [4] ∧
    kget dispatching.disp.items 4 = some (item0 .pending) ∧ (item0 .pending).flow = 0 ∧ 4 ∉ ([] : List Nat) ∧
    dispatching.servedNow 0 = true ∧ dispatching.canWrite 0 = true ∧ dispatching.chooseQueue 0 = some 3 ∧
    dispatching.disp.trace.enable = false ∧ dispatching.serves 0 3 = true ∧ dispatching.queueRoom 3 = true := by decide +kernel

/-- The running machine with port 0 in a state, as `f` makes it. -/
def withPort (f : Port → Port) : State := plugged.modPort 0 f

def portIn (st : PortState) : State := withPort fun x => { x with st := st }

theorem wit_AttachDetach :
    (let s := withPort fun x => { x with st := .empty }
     s.portLive 0 = true ∧ (s.port 0).st = .empty) ∧
    (let s := withPort fun x => { x with st := .attached, line := .restP, leg := 1 }
     s.portLive 0 = true ∧ (s.port 0).st = .attached ∧ (s.port 0).leg = 1) ∧
    ((withPort fun x => { x with st := .resuming }).port 0).driven = true ∧
    (let s := withPort fun x => { x with st := .attaching, line := .restP }
     s.portLive 0 = true ∧ (s.port 0).st = .attaching ∧ (s.port 0).line = .restP) ∧
    (∀ n ∈ [0, 1], (let s := withPort fun x => { x with lowWindows := n }
      s.inService 0 = true ∧ (s.port 0).lowWindows = n ∧ (s.port 0).round = none)) ∧
    (∀ st ∈ [PortState.attached, .suspending, .suspended, .disabled], (let s := withPort fun x => { x with st := st, line := .low }
      s.portLive 0 = true ∧ (s.port 0).st = st ∧ (s.port 0).line = .low)) ∧
    ((plugged.port 0).round = none ∧ plugged.dev 1 = some dev1 ∧ dev1.port = 0 ∧ dev1.tier < 8) := by decide +kernel

theorem wit_ResetNegotiation :
    (∀ ph ∈ [ResetPhase.low, .chirp, .training, .echo, .fallback], (let s := withPort fun x => { x with st := .resetting, phase := ph }
      s.portLive 0 = true ∧ (s.port 0).st = .resetting ∧ (s.port 0).phase = ph ∧ s.pw.shedStep = 0 ∧ (s.port 0).topSpeed = .express)) ∧
    (∀ m ∈ [0, 1, 2], ∀ n ∈ [0, 1], (let s := withPort fun x => { x with st := .resetting, phase := .low, maxSpeed := BitVec.ofNat 2 m }
      let s : State := { s with pw := { s.pw with shedStep := n } }
      s.portLive 0 = true ∧ (s.port 0).st = .resetting ∧ (s.port 0).phase = .low ∧ s.pw.shedStep = n ∧
        (s.port 0).topSpeed = (if m = 0 then .reach else if m = 1 then .standard else .express))) ∧
    Line.low ≠ .restP ∧ Line.low ≠ .restN := by decide +kernel

theorem wit_AfterReset :
    (let s := withPort fun x => { x with recovering := true }
     s.portLive 0 = true ∧ (s.port 0).st = .enabled ∧ (s.port 0).recovering = true ∧ (s.port 0).enumHw = false ∧ s.tree.procs = [] ∧
       (s.port 0).sosfHold = .none) ∧
    (∀ h ∈ [SosfHold.none, .plain, .train, .late], (let u := withPort fun x => { x with sosfHold := h }
      let s : State := { u with pw := { u.pw with mode := .shed, shedStep := 1, acted := 1 } }
      s.portLive 0 = true ∧ s.wantsDown 0 = true ∧ (s.port 0).round = none ∧ (s.port 0).downshift = false ∧ (s.port 0).sosfHold = h)) ∧
    (let s := withPort fun x => { x with st := .disabled, disableCause := 1, enumHw := true }
     s.alive = true ∧ (s.port 0).st = .disabled ∧ (s.port 0).disableCause = 1 ∧ (s.port 0).enumHw = true ∧
      (s.port 0).babbleAgain = false) := by decide +kernel

theorem wit_SuspendResume :
    (let s := withPort fun x => { x with suspendPending := true, tokenWait := true }
     s.portLive 0 = true ∧ (s.port 0).st = .enabled ∧ (s.port 0).suspendPending = true ∧ rootPos 0 ∉ s.tree.marks ∧ s.marked 0 = [] ∧
      (s.port 0).tokenWait = true) ∧
    (∀ st ∈ [PortState.suspending, .suspended, .resuming], (portIn st).portLive 0 = true ∧ ((portIn st).port 0).st = st ∧
      ((portIn st).port 0).resumeWanted = false ∧ ((portIn st).port 0).wakeEn = true ∧ ((portIn st).port 0).wakeSeen = false ∧
      (portIn st).pw.mode ≠ .standby) ∧
    (let s := withPort fun x => { x with st := .suspended, wakeSeen := true }
     s.portLive 0 = true ∧ (s.port 0).st = .suspended ∧ (s.port 0).wakeSeen = true) := by decide +kernel

theorem wit_PortPower :
    ((portIn .powering).portLive 0 = true ∧ ((portIn .powering).port 0).st = .powering) ∧
    (plugged.pw.mode ≠ .off ∧ plugged.pw.mode ≠ .prime ∧ (plugged.port 0).ppwrEn = true ∧ (plugged.port 0).st ≠ .powering ∧
      (plugged.port 0).st ≠ .faulted ∧ (retaining.pw.mode = .retain ∧ (retaining.port 3).ppwrEn = true) ∧ (up.port 0).ppwrEn = false) ∧
    (let s := withPort fun x => { x with st := .faulted, ppwrEn := false, pwrRetries := 14, pwrRetryMax := 15 }
     s.alive = true ∧ (s.port 0).st = .faulted ∧ (s.port 0).ppwrEn = false ∧ (s.port 0).pwrRetries.toNat < (s.port 0).pwrRetryMax.toNat) ∧
    (plugged.runs = true ∧ (plugged.port 0).st ≠ .held ∧ plugged.egressHolds 0 = false ∧ (plugged.port 0).mgrHold = false ∧
      (plugged.port 0).mgrPowered = false) := by decide +kernel

/-- PORT_CONTROL of root port 0 with an action. -/
def portOrder (a : Nat) : CEntry := ce 0x20 [(64, 4, a)]

/-- Every trowel is out of service. -/
def noTrowels (s : State) : State := { s with trowels := Vector.replicate 48 { tstate := .outOfService } }

/-- Port 0 is held powered by EGRESS_N. -/
def held : State := overridden.modPort 0 fun x => { x with egressPort := true }

theorem wit_PortOrders :
    (∀ a ∈ [1, 2, 3, 4, 5, 6], fld (portOrder a) 76 72 = (0 : PortNo).val ∧ ceAction (portOrder a) = a) ∧
    (Takes (portIn .unpowered) 0x20 powerOnForm (portOrder 1) ∧ Takes (portIn .faulted) 0x20 powerOnForm (portOrder 1) ∧
      (withCmd (portIn .unpowered) (portOrder 1)).holderFound 0 = true ∧
        (withCmd (noTrowels (portIn .unpowered)) (portOrder 1)).holderFound 0 = false ∧
      Takes (noTrowels (portIn .unpowered)) 0x20 powerOnForm (portOrder 1) ∧ plugged.pw.acted < 6) ∧
    (Takes plugged 0x20 (portForm 2) (portOrder 2) ∧ plugged.egressHolds 0 = false ∧ (plugged.port 0).st ≠ .held ∧
      Takes held 0x20 (portForm 2) (portOrder 2) ∧ (withCmd held (portOrder 2)).egressHolds 0 = true) ∧
    (Takes plugged 0x20 (portForm 3) (portOrder 3) ∧ (plugged.port 0).st.resettable = true ∧
      Takes (portIn .unpowered) 0x20 (portForm 3) (portOrder 3) ∧ ((portIn .unpowered).port 0).st.resettable = false) ∧
    (Takes plugged 0x20 (portForm 4) (portOrder 4) ∧ (plugged.port 0).st = .enabled ∧
      (withCmd plugged (portOrder 4)).periodicIn' (rootPos 0) = false ∧
      Takes (portIn .suspended) 0x20 (portForm 4) (portOrder 4)) ∧
    (Takes (portIn .suspended) 0x20 (portForm 5) (portOrder 5) ∧ Takes (portIn .suspending) 0x20 (portForm 5) (portOrder 5)) ∧
    Takes plugged 0x20 (portForm 6) (portOrder 6) := by decide +kernel

/-- A hub addressed as 2 on port 0, with a device addressed as 3 on its port 15. -/
def hub2 : DevRec := { dev1 with hub := true, hubPorts := 15, perPort := true, tier := 1 }
def dev3 : DevRec := { dev1 with tier := 2, parent := 2, phport := 15 }
def treed : State := { plugged with devs := [(1, { dev1 with tier := 1 }), (2, hub2), (3, dev3)] }

/-- PORT_CONTROL device reset of a zone address, and TREE_POWER of ports of hub 2. -/
def resetOf (z : Nat) : CEntry := ce 0x20 [(64, 4, 3), (68, 1, 1), (80, 12, z)]
def treePower (a p : Nat) : CEntry := ce 0x21 [(64, 12, 2), (76, 4, p), (80, 4, a)]

/-- The branch below root port 0 is down: the root port is suspended. -/
def asleep (s : State) : State := s.modPort 0 fun x => { x with st := .suspended }

theorem wit_HubOrders :
    (Takes treed 0x20 (fun e => bitOf e 68) (resetOf 1) ∧ fld (resetOf 1) 91 80 = 1 ∧ ceAction (resetOf 1) = 3 ∧
      (withCmd treed (resetOf 1)).dev 1 = some { dev1 with tier := 1 } ∧ ((withCmd treed (resetOf 1)).port 0).st.resettable = true) ∧
    (Takes treed 0x20 (fun e => bitOf e 68) (resetOf 3) ∧ (withCmd treed (resetOf 3)).dev 3 = some dev3 ∧ 1 < dev3.tier ∧
      (withCmd treed (resetOf 3)).branchDown ⟨0, 2, 0⟩ = false ∧ (treed.port 0).treeHw = false ∧
      (withCmd treed (resetOf 3)).dev dev3.parent = some hub2 ∧ dev3.st = .addressed ∧
      Takes (asleep treed) 0x20 (fun e => bitOf e 68) (resetOf 3) ∧ (asleep (withCmd treed (resetOf 3))).branchDown ⟨0, 2, 0⟩ = true) ∧
    (∀ a ∈ [1, 2, 3], Takes treed 0x21 (treeForm a) (treePower a 15) ∧
      (withCmd treed (treePower a 15)).treeHub 0 (treePower a 15) = some (2, hub2) ∧
      fld (treePower a 15) 79 76 = 15) ∧
    (Takes treed 0x21 (fun e => fld e 83 80 == 0 || 4 ≤ fld e 83 80) (treePower 4 0) ∧ fld (treePower 4 0) 83 80 = 4) ∧
    (treed.branchDown hub2.pos = false ∧ treed.periodicIn' ⟨0, 2, 15⟩ = false ∧ treed.egressProtects ⟨0, 2, 15⟩ = false) ∧
    (let s : State := { treed with devs := [(2, { hub2 with perPort := false })] }
     Takes s 0x21 (treeForm 3) (treePower 3 1) ∧
       (withCmd s (treePower 3 1)).treeHub 0 (treePower 3 1) = some (2, { hub2 with perPort := false })) ∧
    (Takes (asleep treed) 0x21 (treeForm 2) (treePower 2 1) ∧ (asleep treed).branchDown hub2.pos = true) ∧
    treed.dev 2 = some hub2 := by decide +kernel

/-- A device that waits at address 0 on port 0, after its reset. -/
def newcomer : State := (withPort id).modTree fun t => { t with marks := [rootPos 0] }
def unnamed : State := { newcomer with devs := [(0, { dev1 with st := .addressed })] }
def admission (port hub hp : Nat) : CEntry := ce 0x10 [(64, 5, port), (72, 12, hub), (84, 4, hp)]
def assign (z : Nat) : CEntry := ce 0x11 [(64, 5, 0), (72, 12, z)]
def release (z : Nat) : CEntry := ce 0x18 [(64, 12, z)]
def give (j z x : Nat) : CEntry := ce 0x42 [(64, 6, j), (72, 12, z), (84, 12, x)]

/-- An endpoint of device 1 is open in slot 5. -/
def opened (s : State) : State := { s with eps := [(5, ep0)] }

theorem wit_Addressing :
    (newcomer.admitPos (admission 0 0 0) = some (rootPos 0) ∧ Takes newcomer 0x10 anyForm (admission 0 0 0) ∧
      rootPos 0 ∈ newcomer.tree.marks ∧
      newcomer.record0Held = false ∧ (newcomer.marked 0).length ≤ 1 ∧ (newcomer.port 0).enumHw = false ∧ (newcomer.port 0).treeHw = false ∧
      newcomer.branchDown (rootPos 0) = false ∧ newcomer.pw.acted < 6) ∧
    (let s := treed.modTree fun t => { t with marks := [⟨0, 2, 15⟩] }
     Takes s 0x10 anyForm (admission 0 2 15) ∧ s.admitPos (admission 0 2 15) = some ⟨0, 2, 15⟩ ∧ (s.marked 0).length ≤ 1 ∧
       s.record0Held = false ∧
      s.dev 2 = some hub2 ∧ s.branchDown ⟨0, 2, 15⟩ = false) ∧
    (Takes newcomer 0x10 anyForm (admission 0 0 1) ∧ newcomer.admitPos (admission 0 0 1) = none) ∧
    (Takes unnamed 0x10 anyForm (admission 0 0 0) ∧ unnamed.admitPos (admission 0 0 0) = some (rootPos 0) ∧ unnamed.record0Held = true) ∧
    (∀ z ∈ [1, 4095], Takes unnamed 0x11 (fun e => !bitOf e 95) (assign z) ∧ fld (assign z) 83 72 = z ∧ fld (assign z) 68 64 = 0 ∧
      unnamed.dev z = none ∧ unnamed.tree.procs = []) ∧
    ((unnamed.dev 0).isSome = true ∧ (unnamed.marked 0).length ≤ 1 ∧ unnamed.branchDown (rootPos 0) = false ∧
      (({ unnamed with devs := [(0, dev1), (1, dev1)] } : State).dev 1).isSome = true) := by
  decide +kernel

theorem wit_Addressing_more :
    (let s : State := { newcomer with devs := [(1, { dev1 with awaiting := true })] }
     let e := ce 0x11 [(72, 12, 1), (95, 1, 1)]
     Takes s 0x11 (fun e => bitOf e 95) e ∧ s.dev (fld e 83 72) = some { dev1 with awaiting := true } ∧ s.branchDown dev1.pos = false ∧
      Takes plugged 0x11 (fun e => bitOf e 95) e ∧ plugged.dev (fld e 83 72) = some dev1 ∧ dev1.awaiting = false) ∧
    (Takes (opened plugged) 0x18 anyForm (release 1) ∧ fld (release 1) 75 64 = 1 ∧ plugged.dev 1 = some dev1 ∧
      (let s := (opened plugged).modDev 1 fun d => { d with st := .detached }
       Takes s 0x18 anyForm (release 1) ∧ s.dev 1 = some { dev1 with st := .detached })) ∧
    (Takes plugged 0x42 anyForm (give 1 1 4095) ∧ (withCmd plugged (give 1 1 4095)).instOf (fld (give 1 1 4095) 69 64) = some 1 ∧
      fld (give 1 1 4095) 83 72 = 1 ∧ fld (give 1 1 4095) 95 84 = 4095 ∧ dev1.st = .addressed ∧ dev1.owner = 0 ∧
      kget (plugged.inst 1).devMap 4095 = none ∧ plugged.eps = []) ∧
    (Takes (opened plugged) 0x42 anyForm (give 1 1 4095) ∧ (opened plugged).eps = [(5, ep0)] ∧ ep0.zone = 1 ∧ ep0.inst = dev1.owner) := by
  decide +kernel

/-- OPEN_ENDPOINT of local slot 5 at device 1: kind, EPID, exponent, block size, phase. -/
def openOf (kind epid n mb phase : Nat) : CEntry :=
  ce 0x12 [(64, 17, 5), (81, 12, 1), (96, 5, epid), (101, 2, kind), (103, 4, n), (107, 3, 3), (114, 10, mb), (202, 16, phase)]

/-- Reservations on port 0, and a region for the endpoint's held payload. -/
def bookable : State :=
  plugged.modInst 0 fun n =>
    { n with devMap := [(1, 1)], units := vset n.units 0 2000, unitMap := List.range 16, regions := [(0, ⟨true, 8, 0⟩)] }

theorem wit_OpenEndpoint :
    (Takes bookable 0x12 anyForm (openOf 2 2 0 512 0) ∧ bookable.devOf 0 (fld (openOf 2 2 0 512 0) 92 81) = some (1, dev1) ∧
      bookable.openOk 0 (openOf 2 2 0 512 0) dev1 = true ∧ fld (openOf 2 2 0 512 0) 80 64 < (bookable.inst 0).epLimit ∧
      bookable.ep 5 = none ∧ bookable.eps = [] ∧ fld (openOf 2 2 0 512 0) 102 101 ≠ 1 ∧ ((opened bookable).ep 5).isSome = true) ∧
    (∀ n ∈ [0, 8], Takes bookable 0x12 anyForm (openOf 1 2 n 64 0) ∧ bookable.openOk 0 (openOf 1 2 n 64 0) dev1 = true ∧
      fld (openOf 1 2 n 64 0) 102 101 = 1 ∧ bookable.branchSuspends dev1.pos = false ∧ (bookable.port 0).converting = false ∧
      bookable.book 5 0 0 (38 + 64 + turnCharge (bookable.port 0).reckon 0) n 0 = some 0 ∧
      plugged.book 5 0 0 (38 + 64 + turnCharge (plugged.port 0).reckon 0) n 0 = none) := by decide +kernel

theorem wit_Booking : bookable.book 5 0 0 200 1 0xFFFF = some 0 ∧ bookable.book 5 0 0 2000 8 255 = some 255 := by decide +kernel

/-- The running machine with an endpoint in slot 5 of the manager. -/
def withEp (e : Ep) : State := { bookable with eps := [(5, e)] }

def pep : Ep := { ep0 with kind := .periodic, maxBlock := 64, svcCost := 200 }
def cep : Ep := { ep0 with kind := .control, epid := 0, maxBlock := 64 }

/-- A command of the manager about its local endpoint 5. -/
def onEp (op : Nat) (l : List (Nat × Nat × Nat)) : CEntry := ce op ((64, 17, 5) :: l)

theorem wit_EndpointCommands :
    (∀ e ∈ [ep0, pep, cep], (withEp e).epOf 0 (fld (onEp 0x13 []) 80 64) = some (5, e) ∧ (withEp e).epDev e = some dev1 ∧
      ((withEp e).ring 0 e.evtRing).enable = true ∧ blockOk e.kind.ctorIdx dev1.ep0Max e.maxBlock = true ∧ (withEp e).atBoundary 5 = true ∧
      (withEp e).midWait (.ep 5) = false ∧ (withEp e).armedOn 5 = false ∧ (withEp e).branchDown dev1.pos = false ∧
      ((withEp e).port 0).treeHw = false) ∧
    (Takes (withEp ep0) 0x13 anyForm (onEp 0x13 [(84, 1, 1)]) ∧
      masked (onEp 0x13 [(84, 1, 1)]) 83 (fld (onEp 0x13 [(84, 1, 1)]) 109 107) 3 ≠ 0 ∧
      bitOf (onEp 0x13 [(84, 1, 1)]) 81 = false ∧ bitOf (onEp 0x13 [(84, 1, 1)]) 82 = false) ∧
    (let c := onEp 0x13 [(81, 1, 1), (82, 1, 1), (103, 4, 8), (202, 16, 255)]
     Takes (withEp pep) 0x13 anyForm c ∧ schedOk 1 (fld c 106 103) (fld c 217 202) false = true ∧ ((withEp pep).port 0).converting = false ∧
      (withEp pep).book 5 0 0 (svcCost ((withEp pep).port 0).reckon 0 64 pep.inward) (fld c 106 103) (fld c 217 202) = some 255) := by
  decide +kernel

/-- Endpoint 5 bound to an armed commit. -/
def bound : State :=
  { withEp { pep with epid := 3 } with commits := [(7, ⟨0, 0, 0, 800, [⟨5, 0, false, false, none⟩], .armed⟩)] }

theorem wit_EndpointCommands_more :
    (∀ op ∈ [0x14, 0x15, 0x16], Takes (withEp ep0) op anyForm (onEp op [])) ∧ bound.armedOn 5 = true ∧
      Takes bound 0x14 anyForm (onEp 0x14 []) ∧
    (∀ st ∈ [EpState.halted, .detached, .stopped], Takes (withEp { ep0 with st := st }) 0x16 anyForm (onEp 0x16 [])) ∧
    Takes (withEp { cep with st := .halted }) 0x16 anyForm (onEp 0x16 []) ∧ Takes (withEp cep) 0x15 anyForm (onEp 0x15 []) ∧
    (asleep (withEp ep0)).branchDown dev1.pos = true ∧ Takes (asleep (withEp ep0)) 0x15 anyForm (onEp 0x15 []) ∧
    (let e : Ep := { ep0 with st := .halted, trHead := 15, trTail := 2 }
     let c (n : Nat) := onEp 0x17 [(96, 16, n)]
     let ahead (x : Nat) : Nat := (x + e.ringSize - e.trHead.toNat) % e.ringSize
     (∀ n ∈ [2, 3, 14, 15], Takes (withEp e) 0x17 anyForm (c n) ∧ fld (c n) 111 96 = n ∧ n < e.ringSize) ∧ e.trHead.toNat < e.ringSize ∧
      e.trTail.toNat < e.ringSize ∧ ahead 15 = 0 ∧ ahead 2 = ahead e.trTail.toNat ∧ ahead e.trTail.toNat < ahead 3 ∧
      ahead e.trTail.toNat < ahead 14) ∧
    Takes (withEp { ep0 with trTail := 2 }) 0x17 anyForm (onEp 0x17 [(96, 16, 2)]) := by decide +kernel

/-- 1 KiB of stencil store for the manager. -/
def stored : State := plugged.modInst 0 fun n => { n with stSize := 1 }
def loadOf (at' words : Nat) : CEntry := ce 0x30 [(64, 16, at'), (80, 16, words)]

/-- A command of the manager waits for the data that it reads. -/
def reading (s : State) (e : CEntry) : State := s.modInst 0 fun n => { n with cmds := [⟨0, e, .waiting⟩] }

theorem wit_StencilLoad :
    (∀ x ∈ [(0, 1), (0, 128), (1016, 1)], Takes stored 0x30 anyForm (loadOf x.1 x.2) ∧ 0 < fld (loadOf x.1 x.2) 95 80 ∧
      fld (loadOf x.1 x.2) 79 64 % 8 = 0 ∧ fld (loadOf x.1 x.2) 79 64 + 8 * fld (loadOf x.1 x.2) 95 80 ≤ 1024 * (stored.inst 0).stSize) ∧
    (∀ c, stored.progRange c = none) ∧
    (let s := stored.modChan 3 fun x => { x with cstate := .running, store := true, progWords := 2 }
     s.progRange 3 = some (0, 16) ∧ Takes s 0x30 anyForm (loadOf 8 1)) ∧
    (let s := reading stored (loadOf 0 1)
     s.cmd 0 0 = some ⟨0, loadOf 0 1, .waiting⟩ ∧ ceOp (loadOf 0 1) = 0x30 ∧ s.runs = true ∧ (s.inst 0).halted = false ∧
      8 = 8 * fld (loadOf 0 1) 95 80) := by decide +kernel

def gateOf (l : List (Nat × Nat × Nat)) : CEntry := ce 0x31 ((64, 16, 1) :: l)

theorem wit_Gates :
    (Takes plugged 0x31 anyForm (gateOf []) ∧ fld (gateOf []) 79 64 ≠ 0 ∧ plugged.gatesHeld 0 < (plugged.inst 0).gateQuota ∧
      kfree plugged.disp.gates 4096 = some 0 ∧ bitOf (gateOf []) 80 = false) ∧
    (Takes plugged 0x31 anyForm (gateOf [(80, 1, 1), (81, 4, 15)]) ∧ fld (gateOf [(80, 1, 1), (81, 4, 15)]) 84 81 = 15 ∧
      (plugged.group 15).owner = 0 ∧ plugged.itemRoom 0 = true) ∧
    (let s := plugged.modInst 0 fun n => { n with gateQuota := 0 }
     Takes s 0x31 anyForm (gateOf []) ∧ (s.inst 0).gateQuota ≤ s.gatesHeld 0) ∧
    (let s := plugged.modDisp fun d => { d with gates := [(9, ⟨0, 1, none⟩), (4095, ⟨1, 1, none⟩)] }
     Takes s 0x32 anyForm (ce 0x32 [(64, 12, 9)]) ∧ kget s.disp.gates 9 = some ⟨0, 1, none⟩ ∧ s.disp.trace.enable = false ∧
      s.commits = [] ∧ Takes s 0x32 anyForm (ce 0x32 [(64, 12, 4095)]) ∧ kget s.disp.gates 4095 = some ⟨1, 1, none⟩) ∧
    9 ∈ (plugged.modDisp fun d => { d with absorb := [9] }).disp.absorb := by decide +kernel

/-- Gate 9 is held, and a periodic OUT endpoint is open in slot 5. -/
def armable : State :=
  (withEp { pep with epid := 3 }).modDisp fun d => { d with gates := [(9, ⟨0, 1, none⟩)] }

/-- COMMIT_ARM with gate 9, one slot, for frame 100. -/
def armCmd (n : Nat) : CEntry := ce 0x33 [(64, 32, 100), (99, 12, 9), (192, 14, n)]

theorem wit_Commits :
    (Takes armable 0x33 anyForm (armCmd 1) ∧ armable.armOk 0 (armCmd 1) = true ∧ Takes armable 0x33 anyForm (armCmd 0) ∧
      armable.armOk 0 (armCmd 0) = false) ∧
    (let s := up.modInst 1 fun n => { n with cmds := [⟨0, armCmd 1, .waiting⟩] }
     s.cmd 1 0 = some ⟨0, armCmd 1, .waiting⟩ ∧ ceOp (armCmd 1) = 0x33 ∧ s.runs = true ∧ (s.inst 1).halted = false ∧
      (leBytes 8 (2 ^ 63)).length = 8 * fld (armCmd 1) 205 192 ∧
      (slotList (leBytes 8 (2 ^ 32)) (fld (armCmd 1) 205 192)).findSome? (s.listBad 1) = some mMisaligned) ∧
    (let l := slotList (leBytes 8 5) (fld (armCmd 1) 205 192)
     (∀ x ∈ l, armable.suits 0 (armable.release (armCmd 1)).1 x = true ∧ armable.armedOn ((armable.inst 0).epBase + x.ep) = false) ∧
      (l.map (·.ep)).Nodup ∧ (armable.commits.filter fun c => c.2.phase == .armed).length < 256 ∧
      (armable.ring 0 (armRing (armCmd 1))).hasCredit = true ∧ kfree armable.commits 256 = some 0) := by decide +kernel

/-- SET_SHARE of tenant 1. -/
def shareOf (w base limit : Nat) : CEntry :=
  ce 0x40 [(64, 6, 1), (70, 10, w), (80, 17, base), (97, 17, limit), (114, 12, 4), (128, 15, 4), (144, 6, 63), (150, 7, 1)]

theorem wit_Shares :
    (∀ w ∈ [1, 1000], Takes up 0x40 anyForm (shareOf w 131071 1) ∧ up.instOf (fld (shareOf w 131071 1) 69 64) = some 1 ∧
      fld (shareOf w 131071 1) 79 70 = w ∧ fld (shareOf w 131071 1) 96 80 + fld (shareOf w 131071 1) 113 97 ≤ 131072 ∧
      fld (shareOf w 131071 1) 142 128 ≤ 16384 ∧ fld (shareOf w 131071 1) 149 144 + fld (shareOf w 131071 1) 156 150 ≤ 64) ∧
    ((∀ k ∈ allInsts.filter (· != 1), meetRange 131071 1 (up.inst k).epBase (up.inst k).epLimit = false ∧
        meetRange 63 1 (up.inst k).stBase (up.inst k).stSize = false) ∧
      ((allInsts.filter (· != 1)).map fun k => (up.inst k).gateQuota).sum + 4 ≤ 4096 ∧
      ((allInsts.filter (· != 1)).map fun k => (up.inst k).flowQuota).sum + 4 ≤ 16384 ∧ up.openOf 1 = [] ∧ up.gatesHeld 1 ≤ 4 ∧
      up.itemsHeld 1 ≤ 4 ∧ up.progsInside 1 63 1 = true) ∧
    (let e := ce 0x40 [(64, 6, 1), (70, 10, 1), (80, 17, 32), (97, 17, 1), (144, 6, 63), (150, 7, 2)]
     Takes up 0x40 anyForm e ∧ up.instOf (fld e 69 64) = some 1 ∧ fld e 79 70 = 1 ∧ 64 < fld e 149 144 + fld e 156 150 ∧
      ∀ k ∈ allInsts.filter (· != 1), meetRange (fld e 96 80) (fld e 113 97) (up.inst k).epBase (up.inst k).epLimit = false ∧
        meetRange (fld e 149 144) (fld e 156 150) (up.inst k).stBase (up.inst k).stSize = false) ∧
    (meetRange (fld (shareOf 1 15 1) 96 80) (fld (shareOf 1 15 1) 113 97) (up.inst 0).epBase (up.inst 0).epLimit = true) := by decide +kernel

def reserveOf (j units : Nat) : CEntry := ce 0x41 [(64, 6, j), (70, 5, 0), (80, 16, units)]
def quotaOf (units descs : Nat) : CEntry := ce 0x43 [(64, 6, 1), (80, 16, units), (96, 11, descs)]
def grantOf (j give : Nat) : CEntry := ce 0x34 [(64, 6, j), (70, 4, 8), (74, 1, give)]

theorem wit_Shares_more :
    (Takes bookable 0x41 anyForm (reserveOf 0 0) ∧ Takes bookable 0x41 anyForm (reserveOf 0 65535) ∧ fld (reserveOf 0 0) 74 70 = 0 ∧
      (bookable.port 0).converting = false ∧
      periodicLimit (bookable.port 0).reckon <
        ((allInsts.filter (· != 0)).map fun k => vget (bookable.inst k).units 0).sum + fld (reserveOf 0 65535) 95 80 ∧
      bookable.bookedPeak 0 0 ≤ fld (reserveOf 0 0) 95 80 ∧ fld (reserveOf 0 0) 95 80 < (withEp pep).bookedPeak 0 0 ∧
      Takes (withEp pep) 0x41 anyForm (reserveOf 0 0)) ∧
    (Takes up 0x43 anyForm (quotaOf 32767 1020) ∧ fld (quotaOf 32767 1020) 95 80 ≤ 32768 ∧ fld (quotaOf 32767 1020) 106 96 ≤ 1024 ∧
      ((allInsts.filter (· != 1)).map fun k => (up.inst k).unitMap.length).sum + fld (quotaOf 32767 1020) 95 80 ≤ 32768 ∧
      ((allInsts.filter (· != 1)).map fun k => (up.inst k).regionQuota).sum + fld (quotaOf 32767 1020) 106 96 ≤ 1024 ∧
      (up.inst 1).carved ≤ fld (quotaOf 32767 1020) 95 80 ∧ (up.inst 1).highRegion ≤ fld (quotaOf 32767 1020) 106 96) ∧
    (∀ b ∈ [0, 1], Takes up 0x34 anyForm (grantOf 1 b) ∧ fld (grantOf 1 b) 69 64 = 1) ∧
    (let s := withCmdOf 1 (up.modInst 1 fun n => { n with allowed := 8 }) (grantOf 0 1)
     (s.starts 1 0 0x34 (fun e => (1 : InstNo) != 0 || fld e 69 64 == 0) = some (grantOf 0 1) ∧
       s.notPermitted 1 (grantOf 0 1) = false) ∧ s.instOf (fld (grantOf 0 1) 69 64) = some 0 ∧
      BitVec.ofNat 4 (fld (grantOf 0 1) 73 70) &&& ~~~(s.inst 1).allowed = 0 ∧
      BitVec.ofNat 4 (fld (grantOf 0 1) 73 70) &&& ~~~(up.inst 1).allowed ≠ 0) := by decide +kernel

/-- Instance 1 with one region of 4 units at its units 2 to 5. -/
def carvedUp : State := up.modInst 1 fun n => { n with unitMap := List.range 8, regionQuota := 4, regions := [(2, ⟨true, 4, 2⟩)] }

theorem wit_CarvedExtent :
    ((2, ⟨true, 4, 2⟩) ∈ (carvedUp.inst 1).regions ∧ (carvedUp.inst 1).carved = 6) ∧
    ∀ q ∈ [(5, 3), (6, 2)], Takes carvedUp 0x43 anyForm (quotaOf q.1 q.2) ∧ carvedUp.instOf (fld (quotaOf q.1 q.2) 69 64) = some 1 ∧
      fld (quotaOf q.1 q.2) 95 80 = q.1 ∧ fld (quotaOf q.1 q.2) 106 96 = q.2 ∧
      ((allInsts.filter (· != 1)).map fun k => (carvedUp.inst k).unitMap.length).sum + q.1 ≤ 32768 ∧
      ((allInsts.filter (· != 1)).map fun k => (carvedUp.inst k).regionQuota).sum + q.2 ≤ 1024 := by decide +kernel

/-- SET_SPLIT: function, mode, all ports, port, pool. -/
def splitOf (f hw all p a b : Nat) : CEntry :=
  ce 0x4A [(64, 3, f), (67, 1, hw), (68, 1, all), (69, 5, p), (80, 8, 1), (96, 12, a), (108, 12, b)]

def due (f : SplitFn) (p : Option PortNo) : State :=
  { plugged with pl := { plugged.pl with splits := [⟨f, p, true, 1, 10, 20, true⟩] } }

theorem wit_SplitModes :
    (∀ f ∈ [0, 1, 2, 3, 4], Takes plugged 0x4A anyForm (splitOf f 0 1 0 0 0) ∧ Takes plugged 0x4A anyForm (splitOf f 0 0 31 0 0)) ∧
    (splitFn (fld (splitOf 3 0 1 0 0 0) 66 64) = some .recovery ∧ plugged.splitOk .recovery (splitOf 3 0 1 0 0 0) = true ∧
      plugged.splitOk .recovery (splitOf 3 0 0 0 0 0) = false ∧ SplitFn.recovery.wide = true ∧ SplitFn.enumeration.wide = false) ∧
    (plugged.splitOk .enumeration (splitOf 0 1 0 31 10 20) = true ∧ fld (splitOf 0 1 0 31 10 20) 73 69 = 31 ∧
      bitOf (splitOf 0 1 0 31 10 20) 68 = false ∧ bitOf (splitOf 0 1 1 0 10 4095) 68 = true) ∧
    (∀ f ∈ [SplitFn.schedule, .recovery], (due f none).alive = true ∧ (due f none).pl.splits.filter (·.due) = (due f none).pl.splits) ∧
    (∀ f ∈ [SplitFn.enumeration, .hubManagement, .treePower], (due f (some 31)).pl.splits.filter (·.due) = (due f (some 31)).pl.splits) := by
  decide +kernel

def egressOf (n : Nat) : CEntry := ce 0x4B [(192, 14, n)]
def stageOf (a len : Nat) : CEntry := ce 0x4C [(64, 2, a), (192, 32, len)]

/-- A firmware image that is well formed but for its signature. -/
def unsigned : List Byte :=
  leBytes 4 0x57464C55 ++ leBytes 2 1 ++ leBytes 2 0x200 ++ leBytes 4 0x200 ++ leBytes 2 1 ++ leBytes 2 0 ++ List.replicate 112 0 ++
  [4] ++ List.replicate 383 0

def staging (x : Option (BitVec 16)) : State := { up with boot := { up.boot with staging := some (x, true, 1) } }
def staged : State := { up with boot := { up.boot with staged := some (true, 1, false) } }

theorem wit_DeviceCommands :
    (Takes plugged 0x4B anyForm (egressOf 1) ∧ fld (egressOf 1) 205 192 ≠ 0 ∧ plugged.pw.egress = false ∧
      Takes overridden 0x4B anyForm (egressOf 1) ∧ overridden.pw.egress = true) ∧
    (let s := reading plugged (egressOf 1)
     s.cmd 0 0 = some ⟨0, egressOf 1, .waiting⟩ ∧ ceOp (egressOf 1) = 0x4B ∧ s.runs = true ∧ (s.inst 0).halted = false ∧
      32 = 32 * fld (egressOf 1) 205 192 ∧ egrProgram (List.replicate 32 0) 1 = some [] ∧
      egrProgram (List.replicate 32 255) 1 = none) ∧
    (Takes up 0x4C (fun e => fld e 65 64 < 2) (stageOf 1 0x200) ∧ fld (stageOf 1 0x200) 65 64 = 1 ∧ fld (stageOf 1 0x200) 223 192 ≠ 0 ∧
      up.boot.staging = none ∧ Takes up 0x4C (fun e => fld e 65 64 < 2) (stageOf 1 0) ∧ fld (stageOf 1 0) 223 192 = 0 ∧
      Takes (staging none) 0x4C (fun e => fld e 65 64 < 2) (stageOf 1 0x200) ∧ (staging none).boot.staging.isSome = true) ∧
    (let s := reading up (stageOf 1 0x200)
     s.cmd 0 0 = some ⟨0, stageOf 1 0x200, .waiting⟩ ∧ s.runs = true ∧ (s.inst 0).halted = false ∧ s.boot.staging = none ∧
      (List.replicate 0x200 (0 : Byte)).length = fld (stageOf 1 0x200) 223 192 ∧ (fwRefusal (List.replicate 0x200 0) 0).isSome = true) ∧
    ((staging (some 3)).runs = true ∧ (staging (some 3)).boot.staging = some (some 3, true, 1)) ∧
    (staged.boot.staged = some (true, 1, false) ∧ Takes staged 0x4C (stageForm 2) (stageOf 2 0) ∧
      Takes staged 0x4C (stageForm 3) (stageOf 3 0)) :=
  by decide +kernel

/-- An image is accepted once its key is fused and its signature verifies; what those functions answer is free (log 8). -/
theorem wit_accepted_image (k : Config.fusedDigests.contains (Config.sha384 (bytesAt unsigned 0x80 128)) = true)
    (v : Config.ecdsaVerify (bytesAt unsigned 0x80 97) (Config.sha384 (bytesAt unsigned 0 0x100 ++ bytesAt unsigned 0x200 0))
      (bytesAt unsigned 0x100 96) = true) : fwRefusal unsigned 0 = none := by
  have h : fwHeaderOk unsigned = true := by decide +kernel
  have l : numAt unsigned 8 4 = 0x200 := by decide +kernel
  have m : ¬ numAt unsigned 0xC 2 < (0 : BitVec 6).toNat := by decide +kernel
  simp only [fwRefusal, h, l, k, m]
  simp [v]

/-- LIFECYCLE: the new state, the length of the record. -/
def lifeOf (b len : Nat) : CEntry := ce 0x4D [(64, 4, b), (192, 16, len)]
def inState (a : LcState) : State := { up with pw := { up.pw with lcState := a } }

/-- A provisioning record of this chip, with a wrapped key of zeros. -/
def keyRecord : List Byte :=
  [1, 1, 0, 0] ++ leBytes 8 Config.serial.toNat ++ leBytes 4 (bodyLen 1) ++ List.replicate (bodyLen 1) 0

theorem wit_ProductLife :
    (Takes (inState .provisioned) 0x4D anyForm (lifeOf 2 0) ∧ lcTarget (fld (lifeOf 2 0) 67 64) = some .field ∧
      lcRecord .provisioned .field (fld (lifeOf 2 0) 207 192 == 0) = some 0 ∧ (inState .provisioned).pw.perst = false ∧
      (inState .provisioned).pw.aonValid = true ∧ (inState .provisioned).pw.mainValid = true) ∧
    (Takes (inState .return_) 0x4D anyForm (lifeOf 5 0) ∧ lcTarget (fld (lifeOf 5 0) 67 64) = some .scrapped ∧
      lcRecord .return_ .scrapped (fld (lifeOf 5 0) 207 192 == 0) = some 0) ∧
    (Takes (inState .blank) 0x4D anyForm (lifeOf 2 0) ∧ lcRecord .blank .field (fld (lifeOf 2 0) 207 192 == 0) = none) ∧
    (Takes (inState .field) 0x4D anyForm (lifeOf 3 160) ∧ lcTarget (fld (lifeOf 3 160) 67 64) = some .fieldOpen ∧
      lcRecord .field .fieldOpen (fld (lifeOf 3 160) 207 192 == 0) = some 2 ∧ (inState .field).pw.whsLeft ≠ 0 ∧
      fld (lifeOf 3 160) 207 192 ≠ 0) ∧
    (let s := reading (inState .field) (lifeOf 3 160)
     s.cmd 0 0 = some ⟨0, lifeOf 3 160, .waiting⟩ ∧ ceOp (lifeOf 3 160) = 0x4D ∧ s.runs = true ∧ (s.inst 0).halted = false ∧
      (List.replicate 160 (0 : Byte)).length = fld (lifeOf 3 160) 207 192 ∧ lcRecord s.pw.lcState .fieldOpen false = some 2 ∧
      s.authRefusal 2 (List.replicate 160 0) = some 1) ∧
    (lcRecord .blank .provisioned false = some 1 ∧ (inState .blank).authRefusal 1 [] = some 1) := by decide +kernel

theorem leNat_leBytes : ∀ k n, leNat (leBytes k n) = n % 256 ^ k
  | 0, n => by simp [leBytes, leNat, Nat.mod_one]
  | k + 1, n => by
    have h := leNat_leBytes k (n / 256)
    simp only [leBytes, leNat, h, BitVec.toNat_ofNat]
    rw [show 256 ^ (k + 1) = 256 * 256 ^ k from by rw [Nat.pow_succ, Nat.mul_comm], Nat.mod_mul]

/-- A provisioning record is accepted once its key unwraps; what that answers is free (log 8). -/
theorem wit_accepted_record (h : (Config.unwrapSiteKey (keyRecord.drop 16)).isSome = true) : up.authRefusal 1 keyRecord = none := by
  have serial : numAt keyRecord 4 8 = Config.serial.toNat := by
    change leNat (leBytes 8 Config.serial.toNat) = _
    rw [leNat_leBytes]; exact Nat.mod_eq_of_lt Config.serial.isLt
  have head : (numAt keyRecord 0 1 == 1 && numAt keyRecord 1 1 == 1 && numAt keyRecord 2 2 == 0 && numAt keyRecord 12 4 == bodyLen 1 &&
      decide (keyRecord.length = 16 + bodyLen 1)) = true := by decide +kernel
  simp only [State.authRefusal, head, serial, h]
  simp

/-- Tenant 1 quiesced and fresh, with a site key. -/
def quiesced : State :=
  { tenantIn .quiesced with pw := { up.pw with siteKey := some 5 } }.modInst 1 fun n => { n with fresh := true }

def saveOf (len : Nat) : CEntry := onTenant 0x47 [(192, 32, len)]
def restoreOf (len : Nat) : CEntry := onTenant 0x48 [(192, 32, len)]

theorem wit_SaveRestore :
    (Takes up 0x47 anyForm (saveOf 0) ∧ up.tenantOf (saveOf 0) = some 1 ∧ up.pw.siteKey = none ∧ quiesced.pw.siteKey.isSome = true ∧
      Takes quiesced 0x47 anyForm (saveOf 0) ∧ (quiesced.inst 1).st = .quiesced ∧ quiesced.canWrite 0 = true ∧
        (quiesced.inst 0).dirty = none) ∧
    (let s : State := { up with pw := { up.pw with siteKey := some 5 } }
     Takes s 0x47 anyForm (saveOf 0) ∧ (s.inst 1).st = .running) ∧
    (Takes quiesced 0x48 anyForm (restoreOf 0) ∧ (quiesced.inst 1).fresh = true ∧ Takes up 0x48 anyForm (restoreOf 0) ∧
      (up.inst 1).st ≠ .quiesced) ∧
    (let s := reading quiesced (restoreOf 1)
     s.cmd 0 0 = some ⟨0, restoreOf 1, .waiting⟩ ∧ ceOp (restoreOf 1) = 0x48 ∧ s.runs = true ∧ (s.inst 0).halted = false ∧
      1 = fld (restoreOf 1) 223 192 ∧ s.tenantOf (restoreOf 1) = some 1 ∧ (∀ p, (s.port p).converting = false) ∧
      s.sealCheck [0] (fld (restoreOf 1) 223 192) = some .imageUnsealed) := by decide +kernel

/-- A buffer of no bytes is too short for an image; one of the image's length takes it, where that can be told in 32 bits. How long the
sections are is free (log 8). -/
theorem wit_SaveRestore_length : let x := quiesced.imageParts 1
    let len := x.1.length + x.2.1.length + x.2.2.length
    fld (saveOf 0) 223 192 < len ∧ (len < 2 ^ 32 → fld (saveOf len) 223 192 = len) := by
  refine ⟨?_, fun h => ?_⟩
  · have : fld (saveOf 0) 223 192 = 0 := by decide +kernel
    rw [this]
    have : 0 < (quiesced.imageParts 1).2.2.length := by simp [State.imageParts, leBytes]
    omega
  · generalize (quiesced.imageParts 1).1.length + (quiesced.imageParts 1).2.1.length + (quiesced.imageParts 1).2.2.length = len at *
    simp only [saveOf, onTenant, ce, fld, pack, BitVec.toNat_ofNat, Nat.shiftLeft_eq, Nat.shiftRight_eq_div_pow]
    omega

theorem wit_Frames :
    (plugged.pw.mode.isRunning = true ∧ plugged.pw.halted = false ∧ (plugged.port 0).st = .enabled ∧
      (plugged.port 0).suspendPending = false ∧
      (plugged.port 0).downshift = false ∧ plugged.spanAt 0 (plugged.pl.subN + 1) = true ∧
      ∀ h ∈ [SosfHold.none, .plain, .train, .late], ((withPort fun x => { x with sosfHold := h }).port 0).sosfHold = h) ∧
    (let s : State := { up with pw := { up.pw with halted := true } }
     s.pw.mode.isRunning = true ∧ s.pw.halted = true) ∧
    (∀ m ∈ [Mode.off, .retain, .prime], (inMode m).pw.mode.isRunning = false ∧ (inMode m).pw.mode ≠ .standby) ∧
    (let s : State := { up with commits := [(255, ⟨0, 0, 0, 0, [], .missed⟩)] }
     kget s.commits 255 = some ⟨0, 0, 0, 0, [], .missed⟩ ∧ 0 ≤ s.pl.subN) := by decide +kernel

/-- A frame-list walk of tenant 1, before a link word or a run of descriptors. -/
def walking (n : Nat) (link : Bool) : State := up.modInst 1 fun x => { x with walk := some ⟨some 64, link, n, [], []⟩ }

theorem wit_Frames_walk :
    (∀ b ∈ [false, true], (walking 4095 b).runs = true ∧ (walking 4095 b).pl.cutDone = false ∧
      (((walking 4095 b).inst 1).walk.map fun w => (w.next.isSome, w.atLink, w.count)) = some (true, b, 4095)) ∧
    (∀ n ∈ [1, 2], (List.replicate n (BitVec.ofNat 256 ((n - 1) * 2 ^ 88))).length =
      fld ((List.replicate n (BitVec.ofNat 256 ((n - 1) * 2 ^ 88))).head?.getD 0) 95 88 + 1) := by decide +kernel

theorem wit_Cutoff :
    plugged.alive = true ∧ plugged.pl.cutDone = false ∧ plugged.spanAt 0 (plugged.pl.subN + 1) = true ∧ plugged.carries 0 = true := by
  decide +kernel

theorem wit_Conversion : plugged.alive = true ∧ (withPort fun x => { x with reckoned := .standard }).alive = true ∧
    ((withPort fun x => { x with reckoned := .standard }).port 0).converting = true := by decide +kernel

/-- Periodic endpoint 5 at the head of port 0's skim. -/
def skimming (e : Ep) : State := (withEp e).modPort 0 fun x => { x with skim := [.ep 5] }

def pin : Ep := { pep with epid := 0x12 }
def pout : Ep := { pep with epid := 3 }

/-- An entry in progress: its type, its length. -/
def entryOf (t len : Nat) : Xfer := ⟨0, BitVec.ofNat 256 (t * 2 ^ 108 + len * 2 ^ 64), 0, .body, none, none, false⟩

theorem wit_PeriodicRounds :
    (∀ e ∈ [pin, pout, { pout with cur := some (entryOf 1 4) }], (skimming e).lineFree 0 100 = true ∧ ((skimming e).port 0).skim = [.ep 5] ∧
      (skimming e).listedLive (.ep 5) = true ∧ (skimming e).ep 5 = some e ∧ e.kind = .periodic ∧
      ((skimming e).wire (.ep 5)).map (·.addr) = some 1 ∧ (skimming e).cachedOf (.ep 5) = true ∧
      (let s : State := { skimming e with mem := { (skimming e).mem with bsLock := true } }
       s.lineFree 0 100 = true ∧ s.cachedOf (.ep 5) = false)) ∧
    (pin.inward = true ∧ pout.inward = false ∧ (skimming pout).outPayload 5 = none ∧
      ((skimming { pout with cur := some (entryOf 1 4) }).outPayload 5).map (·.2) = some .entry) ∧
    100 + 38 + pout.maxBlock + timeout .express 0 ≤ spanLimit .express (skimming pout).pl.subN ∧
    (100 + 27 + pin.maxBlock + timeout .express 0 ≤ spanLimit .express (skimming pin).pl.subN ∧
      spanLimit .express (skimming pin).pl.subN < 10000000 + 27 + pin.maxBlock + timeout .express 0) := by decide +kernel

/-- A transaction of endpoint 5. -/
def txn (kind : RoundKind) (ph : TxnPhase) (sent : Nat) : Txn :=
  { id := 40, port := 0, inst := 0, who := .ep 5, kind := kind, n := 2, s := 0, sent := sent, phase := ph, arb := false, data := []
    started := decide (sent ≠ 0), resent := false }

def queueing (e : Ep) (x : Txn) : State := (withEp e).modPort 0 fun y => { y with queue := [x] }

/-- Endpoint 5 with the transaction in slot 0 of port 0's trowel, which holds the port. -/
def inTrowel (e : Ep) (x : Txn) : State := (withEp e).modTrowel 0 fun w => { w with slots := [x], holds := [0] }

def bin : Ep := { ep0 with epid := 0x12, cur := some (entryOf 1 1024) }
def bout : Ep := { ep0 with epid := 3, cur := some (entryOf 1 1024) }
def ctl (st : Stage) : Ep := { cep with cur := some { entryOf 2 0 with stage := st } }

theorem wit_Picking :
    ((queueing bin (txn .bulkIn .queued 0)).port 0).queue.length ≤ 4 ∧
    (let s := withEp (ctl .setup)
     (s.port 0).st = .enabled ∧ s.alive = true ∧ (s.port 0).recovering = false ∧ (s.port 0).tokenWait = false ∧
       (s.port 0).queue.length < 4 ∧
      s.pw.mode ≠ .standby ∧ s.pw.acted < 6 ∧ (s.port 0).ctrlUsed < controlShare (s.port 0).speed ∧
      (s.controlPick 0 (s.readyOn 0) (s.startEstimate 0 0)).isSome = true) ∧
    (let s := queueing bin (txn .bulkIn .queued 0)
     s.isHome 0 = true ∧ s.alive = true ∧ (s.trowel 0).open = true ∧ s.standbyGated 0 = false ∧ (s.port 0).queue = [txn .bulkIn .queued 0] ∧
      s.txnLive (txn .bulkIn .queued 0) = true ∧ ({ s with eps := [] } : State).txnLive (txn .bulkIn .queued 0) = false) ∧
    (let s := inTrowel bout (txn .bulkOut .taken 0)
     (allTrowels.findSome? fun k => ((s.trowel k).slots.find? fun t => t.id == 40 && t.phase == .taken).map fun t => (k, t)) =
       some (0, txn .bulkOut .taken 0) ∧ s.stageLen (txn .bulkOut .taken 0) = 1024) := by decide +kernel

/-- A transaction of one of the kinds can start on port 0, and its context is at hand. -/
abbrev starting (s : State) (kinds : List RoundKind) (opened : Bool) : Prop :=
  (s.startable 0 kinds opened 100).isSome = true ∧ s.cachedOf (.ep 5) = true

theorem wit_WorkRounds :
    starting (inTrowel bin (txn .bulkIn .staged 0)) [.bulkIn] false ∧
    starting (inTrowel (ctl .body) (txn .ctlIn .staged 0)) [.ctlIn, .ctlOut] false ∧
    starting (inTrowel bout (txn .bulkOut .staged 0)) [.bulkOut] false ∧
    starting (inTrowel bout (txn .bulkOut .staged 1)) [.bulkOut, .ctlOut] true ∧
    starting (inTrowel (ctl .setup) (txn .setup .staged 0)) [.setup] false ∧
    (∀ k ∈ [RoundKind.stIn, .stOut], starting (inTrowel (ctl .status) (txn k .staged 0)) [.stIn, .stOut] false) ∧
    (let limit := (inTrowel bin (txn .bulkIn .staged 0)).workLimit 0
     fitBlocks .express .bulkIn 0 512 100 limit 2 = 2 ∧ fitBlocks .express .ctlIn 0 64 100 limit 2 = 2 ∧
      segmentFit .express 0 512 100 limit 2 = 2 ∧ segmentFit .express 0 512 (limit - 700) limit 2 = 1 ∧
      100 + longestSetup .express 0 ≤ limit ∧ 100 + longestRound .express .stIn 0 0 1 ≤ limit) := by
  decide +kernel

theorem wit_Outcomes : (withEp bin).ep 5 = some bin ∧ bin.retryCount + 1 ≤ bin.retryLimit ∧ min 7 (bin.errCount + 1) < bin.errThreshold ∧
    { bin with errCount := 2 }.errThreshold ≤ min 7 ({ bin with errCount := 2 }.errCount + 1) ∧
    { bin with retryCount := 3 }.retryLimit < { bin with retryCount := 3 }.retryCount + 1 ∧ (withEp bin).egressActive 5 = false ∧
    ({ overridden with pw := { overridden.pw with egressServing := true } } : State).egressActive 5 = true ∧
    (let d : Delivery := ⟨10, 5, 0, [3], none, none, none⟩
     let s : State := { withEp bin with deliveries := [] ++ d :: [⟨11, 6, 0, [3], none, none, none⟩] }
     s.ep 5 = some bin ∧ d.ep = 5 ∧ bin.cur.isSome = true ∧ s.commitOf 5 = none ∧ (withEp bin).deliveries = []) := by decide +kernel

/-- A round of endpoint 5 in progress on port 0. -/
def inRound (e : Ep) (kind : RoundKind) (sent got : Nat) : State :=
  (withEp e).modPort 0 fun x =>
    { x with round := some ⟨kind, .ep 5, 0, none, 0, 1, 0, sent, got, false, [], false, .entry⟩ }

theorem wit_Responses :
    (let s := inRound pin .perIn 0 0
     (s.port 0).round.map (·.kind) = some .perIn ∧ s.ep 5 = some pin ∧ (s.wire (.ep 5)).map (·.mb) = some 64 ∧
      (match receive 64 (dataPacket 0 true true [7]) with
       | .data d => d.length == 1 && decide (d.length ≤ 64) && d.seq == pin.expectSeq
       | _ => false) = true ∧ pin.cur = none ∧ receive 64 [0x87, 0x00, 0xCF] = .stall ∧ pin.kind ≠ .control ∧ receive 64 [0] = .corrupt) ∧
    (let s := inRound bout .bulkOut 1 0
     s.haltedRound ⟨.bulkOut, .ep 5, 0, none, 0, 1, 0, 1, 0, false, [], false, .entry⟩ = false ∧
       (s.port 0).round.map (fun r => (r.kind.isIn, r.sent, r.n, r.awaits)) = some (false, 1, 1, true) ∧ s.orderPending 0 = none ∧
      receive 512 (ackPacket 1) = .ack 1 ∧ receive 512 (ackPacket 0) = .ack 0) ∧
    ((inRound bin .bulkIn 0 1).port 0).round.map (fun r => (r.kind.isIn, r.got)) = some (true, 1) ∧
    ((inRound bin .bulkIn 0 1).haltedRound ⟨.bulkIn, .ep 5, 0, none, 0, 1, 0, 0, 1, false, [], false, .entry⟩ = false) ∧
    (let r : Round := ⟨.bulkIn, .ep 5, 0, some 40, 0, 1, 0, 0, 0, false, [], false, .entry⟩
     let s := (withEp bin).modPort 0 fun x => { x with round := some r }
     (s.port 0).round = some r ∧ r.awaits = true ∧ s.haltedRound r = false ∧ s.ep 5 = some bin ∧ (s.inst bin.inst).halted = false ∧
       bin.st = .running ∧
      bin.cur.isSome = true ∧ s.ending 5 = false ∧ min 7 (bin.errCount + 1) < bin.errThreshold) ∧
    (let e := { bin with backoff := true, backoffAt := 3 }
     (withEp e).ep 5 = some e ∧ (withEp e).pl.subN < e.backoffAt ∧ bin.backoffAt ≤ (withEp bin).pl.subN) ∧
    (∀ e ∈ [ep0, cep], (let s : State := { withEp { e with st := .halted } with pl := { up.pl with recoverHw := true } }
      s.runs = true ∧ s.pl.recoverHw = true ∧ s.ep 5 = some { e with st := .halted } ∧ (s.inst 0).halted = false ∧
        s.epDev { e with st := .halted } = some dev1 ∧ (s.port 0).treeHw = false ∧ s.reachable e.zone = true ∧ s.usable 0 = true ∧
        (asleep s).usable 0 = false)) ∧
    (let s : State := { withEp bin with deliveries := [⟨9, 5, 0, [1, 2], some .success, none, none⟩, ⟨10, 5, 2, [3], none, none, none⟩] }
     s.deliveries.find? (fun x => x.id == 9) = some ⟨9, 5, 0, [1, 2], some .success, none, none⟩ ∧
      (s.deliveries.find? fun y => y.ep == 5).map (·.id) = some 9 ∧ s.ep 5 = some bin ∧ s.canWrite bin.inst = true ∧
      (let h := s.modInst 0 fun n => { n with halted := true }
       h.canWrite bin.inst = false ∧ (h.inst bin.inst).halted = true)) := by decide +kernel

theorem wit_Trowels :
    (up.nativeRegs 0 = true ∧ (up.inst 0).fresh = false ∧ up.canRelieve 47 = true ∧ (up.trowel 47).tstate = .inService ∧
      (let s := noTrowels up
       (s.modTrowel 3 fun w => { w with holds := [3] }).canRelieve 3 = false ∧ s.nativeRegs 0 = true ∧ (s.trowel 3).tstate ≠ .inService)) ∧
    (let s := up.modTrowel 3 fun w => { w with tstate := .draining }
     (s.trowel 3).tstate = .draining ∧ (s.trowel 3).slots = [] ∧ (s.trowel 3).holds = []) ∧
    ((up.modTrowel 3 fun w => { w with tstate := .returning }).trowel 3).tstate = .returning ∧ up.pw.acted < 4 ∧
    (up.alive = true ∧ (up.trowel 3).tstate = .inService ∧ (up.trowel 3).holds = [] ∧
      (let s := up.modTrowel 3 fun w => { w with holds := [3] }
       s.alive = true ∧ (s.trowel 3).tstate = .inService ∧ ∀ p ∈ (s.trowel 3).holds, s.inService p = false) ∧
      (let s := plugged.modTrowel 0 fun w => { w with holds := [0] }
       s.alive = true ∧ ∃ p ∈ (s.trowel 0).holds, s.inService p = true)) ∧
    (up.mem.passS ≠ 0 ∧ up.regionOwner 0 = some 0 ∧ up.regionOwner 512 = some 1) := by decide +kernel

/-- Hardware enumeration on port 0, with a pool of addresses, and a position that waits. -/
def hardwareEnum (st : PortState) (w : EnumWait) : State :=
  (withPort fun x => { x with st := st, enumHw := true, poolFirst := 10, poolLast := 20 }).modTree fun t => { t with waiting := [w] }

def procAt (pu : Purpose) (q : Pos) (step addr : Nat) : Proc := ⟨50, pu, q, step, addr, [], false⟩

/-- The controller's own transfer 51 for procedure 50, ended. -/
def ownDone (st : Status) : OwnXfer :=
  { id := 51, port := 0, addr := 1, tier := 0, maxBlock := 64, req := 0x5C, tgt := 0x20, sel := 2, arg := 0, xlen := 0, proc := 50
    stage := .status, data := [], err := 0, retry := 0, silenceRun := 0, backoff := false, backoffAt := 0, picked := false, inSeq := 0, outSeq := 0
    result := some st }

def withProc (s : State) (x : Proc) (o : List OwnXfer) : State := s.modTree fun t => { t with procs := [x], own := o }

/-- Hub 2 with its status endpoint on, and a word for its port 15. -/
def hubOn (b : BitVec 16) (x : HPort) : DevRec := { hub2 with statusOn := true, bits := b, hports := [(15, x)] }

theorem wit_Enumeration :
    (let s := hardwareEnum .attached ⟨rootPos 0, none, false, 0⟩
     s.runs = true ∧ s.pw.acted < 6 ∧ s.canEnum ⟨rootPos 0, none, false, 0⟩ = true ∧ rootPos 0 ∉ s.tree.marks ∧ s.poolAddr 0 = some 10 ∧
       s.tree.procs = []) ∧
    (let s := { hardwareEnum .enabled ⟨⟨0, 2, 15⟩, some 3, false, 0⟩ with devs := treed.devs }
     s.canEnum ⟨⟨0, 2, 15⟩, some 3, false, 0⟩ = true ∧ (⟨0, 2, 15⟩ : Pos) ∉ s.tree.marks ∧
       s.tree.waiting = [⟨⟨0, 2, 15⟩, some 3, false, 0⟩] ∧ s.tree.procs = []) ∧
    (let x := procAt (.devReset 0 0) ⟨0, 2, 15⟩ 20 0
     let s := withProc treed x []
     s.tree.procs.find? (fun x => x.step == 20) = some x ∧ s.dev x.pos.hub = some hub2) ∧
    (∀ st ∈ [Status.success, .silent], (let x := procAt (.unhaltHw 5) (rootPos 0) 0 0
      let s := withProc (withEp ep0) x [ownDone st]
      s.ownXfer 51 = some (ownDone st) ∧ (ownDone st).result = some st ∧ s.tree.procs.find? (fun y => y.id == (ownDone st).proc) = some x ∧
        s.ep 5 = some ep0)) ∧
    (let x := procAt (.assign 0 0) (rootPos 0) 4 4095
     let s := withProc { unnamed with devs := [(0, dev1)] } x [ownDone .success]
     s.ownXfer 51 = some (ownDone .success) ∧ s.tree.procs.find? (fun y => y.id == 50) = some x ∧ s.dev 0 = some dev1 ∧ dev1.hub = false) ∧
    (let s := (hardwareEnum .enabled ⟨rootPos 0, none, false, 0⟩).modTree fun t => { t with failedOnce := [rootPos 0] }
     s.runs = true ∧ rootPos 0 ∈ s.tree.failedOnce ∧ (s.port 0).enumHw = true) := by decide +kernel

theorem wit_Enumeration_more :
    (let s := plugged.modDev 1 fun d => { d with awaiting := true }
     s.runs = true ∧ s.dev 1 = some { dev1 with awaiting := true } ∧ dev1.st ≠ .detached) ∧
    (let d := hubOn 0x8000 {}
     let s : State := { treed with devs := [(2, d)] }
     s.dev 2 = some d ∧ s.runs = true ∧ d.hub = true ∧ d.statusOn = true ∧ d.st = .addressed ∧ d.awaiting = false ∧ 15 ≤ d.hubPorts ∧
      bitOf d.bits 15 = true ∧ s.querying 2 15 = false ∧ kget d.hports 15 = some {}) ∧
    (let s := ({ treed with eps := [] } : State).modPort 0 fun x => { x with treeHw := true }
     s.runs = true ∧ s.pw.acted < 6 ∧ (s.port 0).treeHw = true ∧ s.usable 0 = true ∧ s.egressHolds 0 = false ∧
      (∀ q ∈ [rootPos 0, ⟨0, 2, 15⟩], s.branchIdle q = true ∧ s.branchDown q = false ∧ s.restAt q = some (rootPos 0)) ∧
      (let u := { s with eps := [(5, { pep with zone := 1 })] }
       u.branchIdle ⟨0, 2, 15⟩ = true ∧ u.branchDown ⟨0, 2, 15⟩ = false ∧ u.restAt ⟨0, 2, 15⟩ = some ⟨0, 2, 15⟩)) ∧
    (let d := hubOn 0 { waking := true }
     let s : State := { treed with devs := [(2, d)] }
     s.dev 2 = some d ∧ (kget d.hports 15).map (·.waking) = some true) ∧
    (let s := withProc unnamed (procAt .fire (rootPos 0) 4 7) []
     Takes s 0x11 (fun e => !bitOf e 95) (assign 7) ∧ ∃ x ∈ s.tree.procs, x.addr = fld (assign 7) 83 72) := by decide +kernel

/-- A channel of the manager in a state. -/
def chanIn (f : Chan → Chan) : State := plugged.modChan 3 f

/-- A parameter block whose pointer 0 is `w`, with zeros else. -/
def params (w : Nat) : List Byte := leBytes 8 w ++ List.replicate 120 0

theorem wit_Channels :
    (plugged.nativeRegs 0 = true ∧ (plugged.inst 0).fresh = false ∧ (plugged.chan 15).owner = 0 ∧ (plugged.chan 15).cstate = .idle) ∧
    ((plugged.modChan 3 fun x => { x with discard := 2 }).chan 3).discard ≠ 0 ∧
    (∀ st ∈ [CState.pending, .running, .waiting, .paused], (let s := chanIn fun x => { x with cstate := st }
      s.nativeRegs 0 = true ∧ (s.chan 3).cstate = st ∧ (s.chan 3).cstate ≠ .idle)) ∧
    (let s := chanIn fun x => { x with cstate := .pending }
     (s.ring (s.chan 3).owner (s.chan 3).evtRing).hasCredit = true ∧ s.gated 3 = false ∧ s.servedNow (s.chan 3).owner = true ∧
      s.canWrite (s.chan 3).owner = true) ∧
    (let s := chanIn fun x => { x with cstate := .running }
     s.runs = true ∧ (s.chan 3).cstate = .running ∧ (s.chan 3).ready = false ∧ (params 0).length = 128 ∧ (∀ b ∈ (params 0).drop 96, b = 0) ∧
      (∀ k, k < 8 → s.ptrOk (s.chan 3).owner (paramPtr (params 0) k) = true) ∧
      s.ptrOk (s.chan 3).owner (paramPtr (params (3 * 2 ^ 62)) 0) = false ∧ (1 : Byte) ∈ (List.replicate 127 (0 : Byte) ++ [1]).drop 96) ∧
    ((1 : InstNo).val = fld (1 : Word) 5 0 ∧ (1 : InstNo) ≠ (plugged.chan 15).owner) := by decide +kernel

/-- Channel 3 of the manager runs word 0 of a program of two words in host memory; pointer 0 names its hawk region 0, pointer 1 host memory,
pointer 2 nothing. -/
def program : State :=
  { bookable with commits := [] }.modChan 3 fun x =>
    { x with cstate := .running, ready := true, progWords := 2, resv := some 0
             ptrs := vset (vset x.ptrs 0 (BitVec.ofNat 64 (2 * 2 ^ 62))) 1 (BitVec.ofNat 64 (2 ^ 62 + 0x1000)) }

def stn (op : Nat) (l : List (Nat × Nat × Nat)) : Word := BitVec.ofNat 64 (pack ((0, 4, op) :: l))

/-- A line of a host program whose first word is `w`. -/
def lineOf (w : Word) : List Byte := leBytes 8 w.toNat ++ List.replicate 56 0

/-- What `Executes` says of a word, in a decidable form. -/
abbrev Runs (s : State) (op : Nat) (w : Word) : Prop :=
  s.chanRuns 3 = true ∧ s.pcOk (s.chan 3) = true ∧ ((s.chan 3).entersLine = true → (lineOf w).length = 64) ∧
  s.progWord (s.chan 3) (lineOf w) = w ∧ fld w 3 0 = op ∧ (∀ r ∈ stnReserved op, fld w r.1 r.2 = 0) ∧ stnCodeBad w = false

theorem executes {s : State} {op : Nat} {w : Word} (h : Runs s op w) : s.Executes 3 op (lineOf w) w := h

/-- Channel 3 once the line of the instruction has been read. -/
def lined (w : Word) : Chan := (program.lineRead 3 (lineOf w)).chan 3

theorem wit_StencilData :
    (let w := stn 1 [(7, 3, 0), (4, 3, 1), (10, 2, 1), (12, 2, 1), (40, 24, 1024)]
     Runs program 1 w ∧ program.accessFault (lined w) 0 (fld w 63 40) = none ∧ program.accessFault (lined w) 1 (fld w 63 40) = none ∧
      fld w 9 7 = 0 ∧ fld w 6 4 = 1 ∧ (∀ b ∈ [0, 1, 2], (lined w).dataHere 0 ((lined w).part (fld w 63 40) b) [] = true) ∧
      (lined w).part (fld w 63 40) 1 < fld w 63 40 ∧ (lined w).part (fld w 63 40) 2 = fld w 63 40 ∧ (lined w).inHawk 1 = false ∧
      program.canWrite (lined w).owner = true ∧ program.overlap (lined w) 0 1 (fld w 63 40) = false) ∧
    (let w := stn 1 [(7, 3, 1), (4, 3, 0), (40, 24, 2)]
     Runs program 1 w ∧ program.accessFault (lined w) 0 2 = none ∧ program.accessFault (lined w) 1 2 = none ∧ fld w 63 40 = 2 ∧
      (lined w).dataHere 1 ((lined w).part 2 1) [1, 2] = true ∧ (lined w).inHawk 0 = true ∧
      program.overlap (lined w) 1 0 (fld w 63 40) = false) ∧
    (let w := stn 2 [(4, 3, 0), (11, 21, 1024), (9, 2, 2)]
     Runs program 2 w ∧ program.accessFault (lined w) 0 (fld w 31 11 * 2 ^ fld w 10 9) = none ∧ fld w 6 4 = 0 ∧ (lined w).inHawk 0 = true) ∧
    (∀ x ∈ [(0, 3), (1, 4), (2, 8), (2, 6)], (let w := stn 3 [(4, 3, 0), (7, 3, 1), (14, 2, x.1), (24, 24, x.2)]
      Runs program 3 w ∧ fld w 47 24 = x.2 ∧ fld w 15 14 = x.1 ∧ program.accessFault (lined w) 0 x.2 = none ∧
        program.accessFault (lined w) 1 x.2 = none ∧ (lined w).dataHere 0 ((lined w).part x.2 1) [] = true ∧
        (lined w).dataHere 1 ((lined w).part x.2 1) (List.replicate x.2 0) = true)) := by decide +kernel

theorem wit_StencilFlow :
    (∀ d ∈ [0, 1, 2], (let w := stn 4 [(4, 2, 3), (8, 24, 2), (32, 16, d)]
      Runs program 4 w ∧ fld w 5 4 = 3 ∧ fld w 31 8 ≠ 0 ∧ vget (lined w).loops 3 = 0 ∧
        BitVec.ofNat 24 (fld w 31 8) - 1 ≠ 0 ∧ (lined w).inProgram ((lined w).target w) = decide (d < 2))) ∧
    Runs program 4 (stn 4 [(8, 24, 1)]) ∧ BitVec.ofNat 24 (fld (stn 4 [(8, 24, 1)]) 31 8) - 1 = 0 := by decide +kernel

theorem wit_StencilFlow_wait :
    (Runs program 5 (stn 5 [(8, 16, 65535)]) ∧ fld (stn 5 [(8, 16, 65535)]) 23 8 ≠ 0 ∧ Runs program 5 (stn 5 [(4, 2, 1), (8, 12, 9)]) ∧
      program.holdsGate 0 9 = false ∧ (program.modDisp fun d => { d with gates := [(9, ⟨0, 1, none⟩)] }).holdsGate 0 9 = true ∧
      Runs program 5 (stn 5 [(4, 2, 2), (8, 4, 15), (24, 16, 1)]) ∧ (program.chan 15).owner = (program.chan 3).owner ∧
      ((program.modChan 15 fun x => { x with owner := 1 }).chan 15).owner ≠ (program.chan 3).owner ∧
      Runs (program.modChan 15 fun x => { x with owner := 1 }) 5 (stn 5 [(4, 2, 2), (8, 4, 15)])) ∧
    (let s := program.modChan 3 fun x => { x with cstate := .waiting, wait := some (.tick 0), timeout := 1 }
     s.runs = true ∧ (s.chan 3).cstate = .waiting ∧ (s.chan 3).wait = some (.tick 0) ∧ s.waitHolds (s.chan 3).owner (.tick 0) = true ∧
      (s.chan 3).timeout ≠ 0) := by decide +kernel

theorem wit_StencilFlow_signal :
    Runs program 6 (stn 6 [(7, 1, 1)]) ∧ Runs program 6 (stn 6 [(6, 1, 1), (20, 4, 15)]) ∧
      (let s := program.modDisp fun d => { d with gates := [(4095, ⟨0, 1, none⟩)] }
       Runs s 6 (stn 6 [(4, 1, 1), (8, 12, 4095)]) ∧ s.holdsGate 0 4095 = true ∧ s.absorbs 4095 = false) ∧
      (let s := program.modDisp fun d => { d with absorb := [9] }
       Runs s 6 (stn 6 [(4, 1, 1), (8, 12, 9)]) ∧ s.absorbs 9 = true) := by decide +kernel

theorem wit_StencilFlow_more :
    (∀ m ∈ [0, 1, 2], ∀ d ∈ [1, 2], Runs program 7 (stn 7 [(4, 2, m), (6, 1, 1), (32, 16, d)]) ∧
      (lined (stn 7 [(4, 2, m), (6, 1, 1), (32, 16, d)])).inProgram ((lined (stn 7 [(4, 2, m), (6, 1, 1), (32, 16, d)])).target
        (stn 7 [(4, 2, m), (6, 1, 1), (32, 16, d)])) = decide (d < 2)) ∧ (program.chan 3).flag = false ∧
    (∀ q ∈ [0, 1], Runs program 8 (stn 8 [(4, 1, q)])) ∧
    (program.chanRuns 3 = true ∧
      (program.modChan 3 fun x => { x with pc := 2 }).pcOk ((program.modChan 3 fun x => { x with pc := 2 }).chan 3) = false ∧
      (program.modChan 3 fun x => { x with pc := 2 }).chanRuns 3 = true ∧ fld (program.progWord (program.chan 3) (lineOf 0)) 3 0 = 0 ∧
      8 < fld (program.progWord (program.chan 3) (lineOf 9)) 3 0) := by decide +kernel

theorem wit_Completions :
    (up.canWrite 0 = true ∧ (up.inst 0).unsol = [] ∧ (up.ring 0 7).blocked = false ∧ (up.ring 0 7).modInterval = 0 ∧
      (up.inst 0).msixEn = true ∧
      (up.modInst 0 fun n => { n with msix := [(0, ⟨0, 0, false⟩)] }).pw.l1 = none ∧
      ((up.modInst 0 fun n => { n with msix := [(0, ⟨0, 0, false⟩)] }).inst 0).masked 0 = false) ∧
    ((withCmd up (ce 1 [])).cmd 0 0 = some ⟨0, ce 1 [], .fetched⟩ ∧ ((withCmd up (ce 1 [])).inst 0).cmdHead = 0 ∧
      ((withCmd up (ce 1 [])).inst 0).cmdDone = [] ∧ up.eps = []) ∧
    (∀ x ∈ [entryOf 1 512, { entryOf 1 512 with entry := BitVec.ofNat 256 (2 ^ 114 + 2 ^ 108) }], (let e : Ep := { ep0 with cur := some x }
      (withEp e).ep 5 = some e ∧ x.bytes < 2 ^ 24 ∧ (withEp e).localIx e 5 < 2 ^ 17 ∧ (withEp e).canWrite e.inst = true)) ∧
    teSuppress (entryOf 1 512).entry = false ∧ teGateEn (BitVec.ofNat 256 (2 ^ 114 + 2 ^ 108)) = false ∧
    teSuppress (BitVec.ofNat 256 (2 ^ 114 + 2 ^ 108)) = true := by decide +kernel

/-- A snag-log entry with code 6. -/
def snag6 : Snag := ⟨0, 0, 6, 4, 0, List.replicate 16 0, some 0⟩

def snags (n : Nat) : State := { up with snag := { up.snag with buffer := List.replicate n snag6 } }

theorem wit_Management :
    (up.pw.mode.isRunning = true ∧ up.snag.buffer = [] ∧ up.snag.flash = []) ∧
    ((snags 1).snag.buffer = [snag6] ∧ snag6.last = some 0 ∧ (snags 1).pl.subN ≤ 0 + 8000 ∧ snag6.code ≠ 7 ∧
      (snags 1).snag.buffer.length < 64 ∧
      64 ≤ (snags 64).snag.buffer.length) ∧
    ((snags 64).spiOurs = true ∧ (snags 64).snag.buffer.length + (snags 64).snag.flash.length ≤ 8192) ∧
    (up.pw.mode ≠ .off ∧ (snags 1).snag.find 0 = some snag6 ∧ up.snag.find 0 = none ∧ (inMode .standby).pw.mode = .standby ∧
      (snags 1).snag.oldest = some snag6 ∧ (snags 1).snag.newest = some snag6) := by decide +kernel

end Sys2Proof.Tests
end

section
/-!
SUPPORT. The end of a command when nothing is due, software writes where `fresh` is clear already, and the messages that wait for
the link.
-/
namespace Sys2Proof.Machine

variable {s : State}

/-- A write of software changes `fresh` only where it is still set (R314). -/
theorem State.written_of_not_fresh {i : InstNo} (h : (s.inst i).fresh = false) : s.written i = s := by
  simp [State.written, h]

/-! ### The end of a command -/

theorem done_eq_ended (u : State) : done u = .next u.ended := rfl

@[simp] theorem State.bare_ended (u : State) : u.ended.bare = u.bare := by simp [State.ended]

/-- A store that is not placed takes no records (R98). -/
theorem State.syncStore_of_unlocked (h : s.mem.bsLock = false) : s.syncStore = s := by simp [State.syncStore, h]

theorem State.each_eq_self {α : Type} {l : List α} {f : State → α → State} (h : ∀ x ∈ l, f s x = s) : s.each l f = s := by
  induction l with
  | nil => rfl
  | cons x l ih =>
    obtain ⟨hx, hl⟩ := List.forall_mem_cons.1 h
    calc s.each (x :: l) f = (f s x).each l f := rfl
      _ = s := by rw [hx, ih hl]

/-- No counter message is sent where none is due (R347). -/
theorem State.sendCtr_of_none_due (hd : s.cnt.msgDue = false) (hi : ∀ i, (s.inst i).ctrMsgDue = false) : s.sendCtr = s := by
  have hdev : s.sendDevCtr = s := by simp [State.sendDevCtr, hd]
  rw [State.sendCtr, hdev]
  exact State.each_eq_self fun i _ => by simp [State.sendInstCtr, hi i]

/-- The end of a command changes nothing where the store is not placed and no counter message is due. -/
theorem State.ended_of_nothing_due (hb : s.mem.bsLock = false) (hd : s.cnt.msgDue = false)
    (hi : ∀ i, (s.inst i).ctrMsgDue = false) : s.ended = s := by
  rw [State.ended, State.syncStore_of_unlocked hb, State.sendCtr_of_none_due hd hi]

/-! ### Messages that wait for the link (R124) -/

/-- Occurrences are not counted once shedding has stopped the counters (R351). -/
theorem State.count_of_shedStopped (o : Occ) (h : s.cnt.shedStopped = true) : s.count o = s := by simp [State.count, h]

@[simp] theorem State.bare_sendQueued (u : State) (which : InstNo × Nat → Bool) : (u.sendQueued which).bare = u.bare :=
  State.bare_each _ _ _ fun t m => by simp

/-- Messages leave one after another, so that the last stands first in `out`. -/
theorem State.each_emit_msix (q : List (InstNo × Nat)) (u : State) (h : u.cnt.shedStopped = true) :
    (u.each q fun s m => (s.emit (.msix m.1 m.2)).count { cls := 0x11, inst := some m.1 }) =
      { u with out := (q.map fun m => Out.msix m.1 m.2).reverse ++ u.out } := by
  induction q generalizing u with
  | nil => rfl
  | cons m q ih =>
    have hc : (u.emit (.msix m.1 m.2)).count { cls := 0x11, inst := some m.1 } = u.emit (.msix m.1 m.2) :=
      State.count_of_shedStopped _ h
    calc u.each (m :: q) (fun s m => (s.emit (.msix m.1 m.2)).count { cls := 0x11, inst := some m.1 })
        = (u.emit (.msix m.1 m.2)).each q (fun s m => (s.emit (.msix m.1 m.2)).count { cls := 0x11, inst := some m.1 }) := by
          simp only [State.each, List.foldl_cons, hc]
      _ = _ := ih _ h
      _ = _ := by simp [State.emit]

/-- The state with every message that waited sent, oldest first, and nothing counted. -/
def State.allSent (s : State) : State :=
  { s with
    pw := { s.pw with msgQueue := [] }
    out := (s.pw.msgQueue.map fun m => Out.msix m.1 m.2).reverse ++ s.out }

theorem State.sendQueued_all {which : InstNo × Nat → Bool} (hw : ∀ m ∈ s.pw.msgQueue, which m = true)
    (h : s.cnt.shedStopped = true) : s.sendQueued which = s.allSent := by
  have hchosen : s.pw.msgQueue.filter which = s.pw.msgQueue := List.filter_eq_self.2 hw
  have hrest : (s.pw.msgQueue.filter fun m => !which m) = [] := by simpa using hw
  simp only [State.sendQueued, State.modPw, hchosen, hrest]
  exact State.each_emit_msix _ _ h

/-- Where messages may be sent, neither the controller nor the function is halted (R15, R117). -/
theorem State.not_halted_of_canWrite {i : InstNo} (h : s.canWrite i = true) : s.pw.halted = false ∧ (s.inst i).halted = false := by
  simp only [State.canWrite, State.runs, Bool.and_eq_true, Bool.not_eq_true'] at h
  obtain ⟨⟨⟨⟨⟨⟨_, hpw⟩, _⟩, _⟩, hin⟩, _⟩, _⟩ := h
  exact ⟨hpw, hin⟩

/-- The state in L0 again: CLKREQ_N asserted after a substate, and the messages of halted functions dropped (R117). -/
def State.backInL0 (s : State) (l : L1State) : State :=
  { s with
    out := (if l = .l1 then [] else [.clkreqN true]) ++ s.out
    pw := { s.pw with l1 := none, msgQueue := s.pw.msgQueue.filter fun m => !s.pw.halted && !(s.inst m.1).halted } }

/-- L1_EXIT_COMPLETE from an L1 state sends what waited, from the state in L0. -/
theorem execL1ExitComplete_of_l1 {l : L1State} (h : s.pw.l1 = some l) :
    execL1ExitComplete s = .next ((s.backInL0 l).sendQueued fun m => s.canWrite m.1).ended := by
  simp only [execL1ExitComplete, h]
  cases l <;> rfl

/-- Messages that may all be sent are all kept on the way to L0. -/
theorem State.backInL0_msgQueue (l : L1State) (h : ∀ m ∈ s.pw.msgQueue, s.canWrite m.1 = true) :
    (s.backInL0 l).pw.msgQueue = s.pw.msgQueue :=
  List.filter_eq_self.2 fun m hm => by simp [State.not_halted_of_canWrite (h m hm)]

end Sys2Proof.Machine
end

section
/-! MSI-X messages and the L1 substates (O14). -/
namespace Sys2Proof.Machine

/-- Settles O14: `exec` unfolds at the unmasked vector and at the entry; the exit is `sendQueued` from the state in L0. -/
theorem messages : Obligations.Messages := by
  refine ⟨fun s i v hopen hfresh hv hcompat => ?_, fun s l hl => ?_, fun s sub halive hup hl1 hq => ?_⟩
  · have hv' : ¬ vectors i ≤ v.val := by omega
    simp [exec, execMsixVectorUnmask, State.written_of_not_fresh hfresh, hopen, hv', hcompat, done_eq_ended]
  · refine ⟨_, execL1ExitComplete_of_l1 hl, (State.bare_ended _).trans (State.bare_sendQueued _ _), fun hw hd hi hshed hbs => ?_⟩
    have hall : ∀ m ∈ (s.backInL0 l).pw.msgQueue, s.canWrite m.1 = true := by rwa [State.backInL0_msgQueue l hw]
    have hend : (s.backInL0 l).allSent.ended = (s.backInL0 l).allSent := State.ended_of_nothing_due hbs hd hi
    rw [State.sendQueued_all hall hshed, hend]
    refine ⟨rfl, ?_⟩
    rw [State.allSent, State.backInL0_msgQueue l hw]
    exact (List.append_assoc _ _ _).symm
  · have hentry : (!s.alive || !s.pw.linkUp || s.pw.l1.isSome || s.pw.msgQueue.any fun m => s.canWrite m.1) = false := by
      simpa [halive, hup, hl1] using hq
    simp only [exec, execAspmL1Entry, hentry]
    cases sub <;> rfl

end Sys2Proof.Machine
end

section
/-!
SUPPORT. Reading a register's fields: `fld` and `bitOf` of a word that is put together of named fields.
-/
namespace Sys2Proof.Machine

/-- The fields of a register stand in rising order and do not overlap. -/
def Rising (l : List (Nat × Nat × Nat)) : Prop := l.Pairwise fun a b => a.1 + a.2.1 ≤ b.1

theorem rising_cons {x : Nat × Nat × Nat} {l : List (Nat × Nat × Nat)} :
    Rising (x :: l) ↔ (∀ y ∈ l, x.1 + x.2.1 ≤ y.1) ∧ Rising l := List.pairwise_cons

/-- Fields that begin at bit `k` or above make a multiple of 2^k. -/
theorem two_pow_dvd_pack {k : Nat} {l : List (Nat × Nat × Nat)} (h : ∀ x ∈ l, k ≤ x.1) : 2 ^ k ∣ pack l := by
  induction l with
  | nil => exact dvd_zero _
  | cons x l ih =>
    obtain ⟨hx, hl⟩ := List.forall_mem_cons.1 h
    rw [pack, Nat.shiftLeft_eq]
    exact dvd_add (dvd_mul_of_dvd_right (pow_dvd_pow 2 hx) _) (ih hl)

/-- The lowest field and a multiple of its end. -/
theorem pack_cons {lo w v : Nat} {l : List (Nat × Nat × Nat)} (h : ∀ y ∈ l, lo + w ≤ y.1) :
    ∃ c, pack l = 2 ^ (lo + w) * c ∧ pack ((lo, w, v) :: l) = 2 ^ lo * (v % 2 ^ w + 2 ^ w * c) := by
  obtain ⟨c, hc⟩ := two_pow_dvd_pack h
  exact ⟨c, hc, by rw [pack, hc, Nat.shiftLeft_eq]; ring⟩

/-- A field reads as the value put into it, cut to its width. -/
theorem pack_div_mod {l : List (Nat × Nat × Nat)} (h : Rising l) {lo w v : Nat} (hm : (lo, w, v) ∈ l) :
    pack l / 2 ^ lo % 2 ^ w = v % 2 ^ w := by
  induction l with
  | nil => cases hm
  | cons x l ih =>
    obtain ⟨a, u, y⟩ := x
    obtain ⟨hx, hl⟩ := rising_cons.1 h
    obtain ⟨c, htail, hall⟩ := pack_cons (v := y) hx
    rcases List.mem_cons.1 hm with he | hm
    · obtain ⟨rfl, rfl, rfl⟩ : lo = a ∧ w = u ∧ v = y := by simpa using he
      rw [hall, Nat.mul_div_cancel_left _ (by positivity), Nat.add_mul_mod_self_left, Nat.mod_mod]
    · obtain ⟨d, hd⟩ : ∃ d, lo = a + u + d := Nat.exists_eq_add_of_le (hx _ hm)
      have hskip : pack ((a, u, y) :: l) / 2 ^ lo = pack l / 2 ^ lo := by
        rw [hall, htail, hd, pow_add 2 (a + u), ← Nat.div_div_eq_div_mul, ← Nat.div_div_eq_div_mul,
          Nat.mul_div_cancel_left _ (by positivity), pow_add 2 a u, ← Nat.div_div_eq_div_mul,
          Nat.mul_div_cancel_left _ (by positivity), Nat.add_mul_div_left _ _ (by positivity),
          Nat.div_eq_of_lt (Nat.mod_lt _ (by positivity)), zero_add]
      rw [hskip, ih hl hm]

/-- Fields that end below bit `k` make a number below 2^k. -/
theorem pack_lt {l : List (Nat × Nat × Nat)} (h : Rising l) {k : Nat} (hk : ∀ x ∈ l, x.1 + x.2.1 ≤ k) : pack l < 2 ^ k := by
  induction l with
  | nil => exact Nat.two_pow_pos k
  | cons x l ih =>
    obtain ⟨a, u, y⟩ := x
    obtain ⟨hx, hl⟩ := rising_cons.1 h
    obtain ⟨hak, hlk⟩ := List.forall_mem_cons.1 hk
    obtain ⟨d, rfl⟩ : ∃ d, k = a + u + d := Nat.exists_eq_add_of_le hak
    obtain ⟨c, htail, hall⟩ := pack_cons (v := y) hx
    have hc : c < 2 ^ d := by
      have := ih hl hlk
      rwa [htail, pow_add 2 (a + u), Nat.mul_lt_mul_left (by positivity)] at this
    calc pack ((a, u, y) :: l) = 2 ^ a * (y % 2 ^ u + 2 ^ u * c) := hall
      _ < 2 ^ a * (2 ^ u + 2 ^ u * c) := by
        have := Nat.mod_lt y (Nat.two_pow_pos u)
        exact Nat.mul_lt_mul_of_pos_left (by omega) (by positivity)
      _ = 2 ^ (a + u) * (c + 1) := by ring
      _ ≤ 2 ^ (a + u) * 2 ^ d := Nat.mul_le_mul_left _ hc
      _ = 2 ^ (a + u + d) := (pow_add 2 _ _).symm

/-- A field within the 64 bits of a register reads as its value (R8). -/
theorem fld_regWord {l : List (Nat × Nat × Nat)} (h : Rising l) {hi lo v : Nat} (hm : (lo, hi + 1 - lo, v) ∈ l) (hlo : lo ≤ hi)
    (hhi : hi < 64) : fld (regWord l) hi lo = v % 2 ^ (hi + 1 - lo) := by
  obtain ⟨d, hd⟩ : ∃ d, 64 = lo + (hi + 1 - lo) + d := Nat.exists_eq_add_of_le (by omega)
  rw [← pack_div_mod h hm, fld, regWord, BitVec.toNat_ofNat, Nat.shiftRight_eq_div_pow, hd, add_assoc, pow_add 2 lo,
    Nat.mod_mul_right_div_self, Nat.mod_mod_of_dvd _ (pow_dvd_pow 2 (Nat.le_add_right _ d))]

/-- A bit vector held in a field of its own width reads as it is held. -/
theorem fld_regWord_toNat {l : List (Nat × Nat × Nat)} (h : Rising l) {lo n : Nat} (v : BitVec (n + 1))
    (hm : (lo, n + 1, v.toNat) ∈ l) (h64 : lo + n < 64) : fld (regWord l) (lo + n) lo = v.toNat := by
  have hwidth : lo + n + 1 - lo = n + 1 := by omega
  rw [fld_regWord h (v := v.toNat) (by rwa [hwidth]) (by omega) h64, hwidth, Nat.mod_eq_of_lt v.isLt]

/-- The bits above every field read 0 (R8). -/
theorem fld_regWord_above {l : List (Nat × Nat × Nat)} (h : Rising l) {hi lo : Nat} (hl : ∀ x ∈ l, x.1 + x.2.1 ≤ lo) :
    fld (regWord l) hi lo = 0 := by
  have hlt : (BitVec.ofNat 64 (pack l)).toNat < 2 ^ lo := (Nat.mod_le _ _).trans_lt (pack_lt h hl)
  rw [fld, regWord, Nat.shiftRight_eq_div_pow, Nat.div_eq_of_lt hlt, Nat.zero_mod]

/-- A bit is a field of width 1. -/
theorem bitOf_eq_fld {n : Nat} (x : BitVec n) (k : Nat) : bitOf x k = decide (fld x k k = 1) := by
  simp [bitOf, fld, BitVec.getLsbD, Nat.testBit_eq_decide_div_mod_eq, Nat.shiftRight_eq_div_pow]

/-- A flag within the 64 bits of a register reads as it stands (R8). -/
theorem bitOf_regWord {l : List (Nat × Nat × Nat)} (h : Rising l) {k : Nat} {b : Bool} (hm : (k, 1, b2n b) ∈ l) (hk : k < 64) :
    bitOf (regWord l) k = b := by
  have hf : fld (regWord l) k k = b2n b % 2 := by
    simpa using fld_regWord h (hi := k) (lo := k) (v := b2n b) (by simpa using hm) le_rfl hk
  rw [bitOf_eq_fld, hf]
  cases b <;> rfl

end Sys2Proof.Machine
end

section
/-!
SUPPORT. Where writes and reads of registers go: from the offset in BAR0 to the register's own operation (R404, R405).
-/
namespace Sys2Proof.Machine

variable {s : State}

/-- A write to a block of the physical function ends as a write within that block (R404). -/
theorem execRegisterWrite_pf {off : Nat} (w : Word) (hopen : s.regsOpen 0 = true) (hcompat : s.inCompat = false)
    (h8 : off % 8 = 0) (hlo : 0x10000 ≤ off) (hhi : off < 2 ^ 20) :
    execRegisterWrite 0 off w s = .next (s.writePf off w).ended := by
  have hconfig : ¬ 2 ^ 20 ≤ off := by omega
  have hwindow : ¬ off < 0x10000 := by omega
  simp only [execRegisterWrite, if_neg hconfig, hopen, hcompat, State.writeNative, h8, if_neg hwindow]
  rfl

/-- The block, the port and the register that an offset in the PRT block names (R84, R404). -/
theorem prt_offset (p : PortNo) {off reg : Nat} (hreg : reg < 0x40) (hoff : off = 0x10000 + reg + 0x40 * p.val) :
    off / 0x1000 = 0x10 ∧ off % 0x1000 / 0x40 % 32 = p.val ∧ off % 0x1000 % 0x40 = reg ∧ ¬ 0x800 ≤ off % 0x1000 ∧ ¬ off < 0x10000 := by
  omega

theorem State.writePf_prtCtrl (p : PortNo) (w : Word) : s.writePf (0x10000 + 0x40 * p.val) w = s.writePrtCtrl p w := by
  obtain ⟨hblock, hport, hreg, hin, -⟩ := prt_offset p (reg := 0) (by omega) rfl
  simp only [State.writePf, hblock, State.writePrt, hin, hreg, hport, if_false]

/-- A read at an offset of the PRT block goes to the port and the register that it names. -/
theorem State.readReg_prt (p : PortNo) {off reg : Nat} (hreg : reg < 0x40) (hoff : off = 0x10000 + reg + 0x40 * p.val) :
    s.readReg 0 off = s.readPrt (off % 0x1000) := by
  obtain ⟨hblock, -, -, -, hpf⟩ := prt_offset p hreg hoff
  simp only [State.readReg, State.readNative, hpf, bne_self_eq_false, Bool.false_eq_true, hblock, if_false]

theorem State.readReg_prtCtrl (p : PortNo) : s.readReg 0 (0x10000 + 0x40 * p.val) = s.prtCtrl p := by
  obtain ⟨-, hport, hreg, hin, -⟩ := prt_offset p (reg := 0) (by omega) rfl
  rw [State.readReg_prt p (reg := 0) (by omega) rfl]
  simp only [State.readPrt, hin, hreg, hport, if_false]

theorem State.readReg_prtTiming (p : PortNo) : s.readReg 0 (0x10018 + 0x40 * p.val) = (s.port p).timing := by
  obtain ⟨-, hport, hreg, hin, -⟩ := prt_offset p (reg := 0x18) (by omega) rfl
  rw [State.readReg_prt p (reg := 0x18) (by omega) rfl]
  simp only [State.readPrt, hin, hreg, hport, if_false]

theorem State.writePf_treIdle (w : Word) :
    s.writePf 0x11000 w =
      { s with tree := { s.tree with idleMs := if fld w 15 0 = 0 then s.tree.idleMs else BitVec.ofNat 16 (fld w 15 0) } } := by
  change s.writeTre 0 w = _
  rw [State.writeTre, if_pos rfl]
  split <;> rfl

/-- The doorbell page of a window reads 0 (R93). -/
theorem State.readReg_doorbellPage (i : InstNo) {off : Nat} (h : off < 0x1000) : s.readReg i (0xA000 + off) = 0 := by
  have hwindow : 0xA000 + off < 0x10000 := by omega
  have hpage : (0xA000 + off) / 0x1000 = 0xA := by omega
  simp only [State.readReg, State.readNative, if_pos hwindow, State.readWindow, hpage]

/-- The registers of a channel read 0 to any but its owner (R262). -/
theorem State.readReg_chan_of_not_owner (i : InstNo) (c : ChanNo) {reg : Nat} (hreg : reg < 0x40) (h : (s.chan c).owner ≠ i) :
    s.readReg i (0x3000 + 0x40 * c.val + reg) = 0 := by
  have hwindow : 0x3000 + 0x40 * c.val + reg < 0x10000 := by omega
  have hblock : (0x3000 + 0x40 * c.val + reg) / 0x1000 = 0x3 := by omega
  have hoff : (0x3000 + 0x40 * c.val + reg) % 0x1000 = 0x40 * c.val + reg := by omega
  have hchan : (0x40 * c.val + reg) / 0x40 % 16 = c.val := by omega
  have hstn : 0x40 * c.val + reg < 0x400 := by omega
  simp [State.readReg, State.readNative, hwindow, State.readWindow, hblock, hoff, State.readStn, hstn, hchan, h]

/-! ### PRT_CTRL and PRT_TIMING (R85, R88) -/

/-- Outside COMPAT 0b11 alone is a speed that `max_speed` does not take (R85). -/
theorem State.maxSpeedField_native (old : BitVec 2) (v : Nat) (h : s.inCompat = false) :
    s.maxSpeedField old v = if v = 3 then old else BitVec.ofNat 2 v := by
  simp [State.maxSpeedField, h]

/-- Reservations of a port that has run stay as they were reckoned (R172). -/
theorem State.convertIdle_of_reckoned {p : PortNo} (a b : Speed) (h : (s.port p).reckoned ≠ .none) : s.convertIdle p a b = s := by
  simp [State.convertIdle, h]

/-- PRT_CTRL of a port that has run: each field of the word, but for a speed or a blanking time that it does not take. -/
theorem State.writePrtCtrl_of_reckoned {p : PortNo} (w : Word) (hcompat : s.inCompat = false) (h : (s.port p).reckoned ≠ .none) :
    s.writePrtCtrl p w = s.modPort p fun x => { x with
      wakeEn := bitOf w 16
      maxSpeed := if fld w 15 14 = 3 then x.maxSpeed else BitVec.ofNat 2 (fld w 15 14)
      mgrHold := bitOf w 13
      faultBlank := if fld w 12 8 = 0 then x.faultBlank else BitVec.ofNat 5 (fld w 12 8)
      pwrRetryMax := BitVec.ofNat 4 (fld w 7 4)
      pwrRetryGap := BitVec.ofNat 4 (fld w 3 0) } := by
  simp only [State.writePrtCtrl, State.maxSpeedField_native _ _ hcompat]
  exact State.convertIdle_of_reckoned _ _ (by simpa using h)

/-- The fields of PRT_CTRL outside COMPAT (R85). -/
def Port.ctrlFields (x : Port) : List (Nat × Nat × Nat) :=
  [(0, 4, x.pwrRetryGap.toNat), (4, 4, x.pwrRetryMax.toNat), (8, 5, x.faultBlank.toNat), (13, 1, b2n x.mgrHold),
    (14, 2, x.maxSpeed.toNat), (16, 1, b2n x.wakeEn)]

theorem Port.ctrlFields_rising (x : Port) : Rising x.ctrlFields := by simp [Rising, Port.ctrlFields]

theorem State.prtCtrl_native (p : PortNo) (h : s.inCompat = false) : s.prtCtrl p = regWord (s.port p).ctrlFields := by
  simp [State.prtCtrl, h, Port.ctrlFields]

/-- PRT_CTRL outside COMPAT reads its fields as they are held, and 0 above them (R8, R85). -/
theorem Port.fld_ctrlFields (x : Port) :
    let w := regWord x.ctrlFields
    bitOf w 16 = x.wakeEn ∧ fld w 15 14 = x.maxSpeed.toNat ∧ bitOf w 13 = x.mgrHold ∧ fld w 12 8 = x.faultBlank.toNat ∧
      fld w 7 4 = x.pwrRetryMax.toNat ∧ fld w 3 0 = x.pwrRetryGap.toNat ∧ fld w 63 17 = 0 := by
  have hr := x.ctrlFields_rising
  exact ⟨bitOf_regWord hr (by simp [ctrlFields]) (by omega), fld_regWord_toNat hr x.maxSpeed (by simp [ctrlFields]) (by omega),
    bitOf_regWord hr (by simp [ctrlFields]) (by omega), fld_regWord_toNat hr x.faultBlank (by simp [ctrlFields]) (by omega),
    fld_regWord_toNat hr x.pwrRetryMax (by simp [ctrlFields]) (by omega),
    fld_regWord_toNat hr x.pwrRetryGap (by simp [ctrlFields]) (by omega), fld_regWord_above hr (by simp [ctrlFields])⟩

/-- PRT_TIMING reads the base and the allowance for each tier of the port's speed, and 0 above them (R88). -/
theorem Port.timing_fields (x : Port) :
    fld x.timing 31 16 = tmoBaseNs x.speed ∧ fld x.timing 15 0 = tmoTierNs x.speed ∧ fld x.timing 63 32 = 0 := by
  cases h : x.speed <;> simp only [Port.timing, h] <;> decide

end Sys2Proof.Machine
end

section
/-! Register writes and reads (O20). -/
namespace Sys2Proof.Machine

/-- Settles O20: each write goes to its register's own operation, each read to its register's word. -/
theorem registerWrites : Obligations.RegisterWrites := by
  intro s hopen hfresh
  have hwritten : s.written 0 = s := State.written_of_not_fresh hfresh
  refine ⟨fun p w hc hrun => ?_, fun w hc => ?_, fun w hc => ?_, fun w _ hsng => ?_, fun p w hc => ?_, fun d w hd => ?_,
    fun p hc => ?_, fun p => ?_, fun i off hoff => s.readReg_doorbellPage i hoff, fun i c reg hreg howner => ?_⟩
  · refine ⟨_, execRegisterWrite_pf w hopen hc (by omega) (by omega) (by omega), ?_⟩
    rw [State.bare_ended, State.writePf_prtCtrl, State.writePrtCtrl_of_reckoned w hc hrun]
  · exact ⟨_, execRegisterWrite_pf w hopen hc (by omega) (by omega) (by omega), by rw [State.bare_ended, State.writePf_treIdle]⟩
  · exact ⟨_, execRegisterWrite_pf w hopen hc (by omega) (by omega) (by omega), State.bare_ended _⟩
  · simp [exec, execSngIndexWrite, hsng]
  · simp [exec, execPrtChangeClear, hopen, hc, hwritten]
  · have hin : ¬ 1024 ≤ d := by omega
    constructor <;> intro htaken <;> simp [exec, execHwkRegionWrite, hopen, hin, hwritten, readRegion, htaken]
  · rw [State.readReg_prtCtrl, State.prtCtrl_native p hc]
    exact (s.port p).fld_ctrlFields
  · rw [State.readReg_prtTiming]
    exact (s.port p).timing_fields
  · exact State.readReg_chan_of_not_owner i c (by omega) howner

end Sys2Proof.Machine
end

section
/-!
SUPPORT. Loops that keep a view of the state, instant 1 of R366, and the sources of resets: what each brings and what it keeps.
-/
namespace Sys2Proof.Machine

/-! ### Loops -/

/-- What every step of a loop keeps, the loop keeps. -/
theorem State.each_keeps {α β : Type} (g : State → β) {f : State → α → State} (h : ∀ t x, g (f t x) = g t) (l : List α) (s : State) :
    g (s.each l f) = g s := by
  induction l generalizing s with
  | nil => rfl
  | cons x l ih => exact (ih (f s x)).trans (h s x)

/-- A loop whose steps change instances alone changes instances alone. -/
theorem State.each_insts {α : Type} {f : State → α → State} (h : ∀ t a, ∃ x, f t a = { t with insts := x }) (l : List α) (s : State) :
    ∃ x, s.each l f = { s with insts := x } := by
  induction l generalizing s with
  | nil => exact ⟨s.insts, rfl⟩
  | cons a l ih =>
    obtain ⟨x, hx⟩ := h s a
    obtain ⟨y, hy⟩ := ih (f s a)
    exact ⟨y, by rw [hx] at hy; rw [← hy, ← hx]; rfl⟩

/-- Two states that agree once `out` is set aside differ in `out` alone. -/
theorem State.eq_with_out {s t : State} (h : ({ t with out := [] } : State) = { s with out := [] }) : t = { s with out := t.out } :=
  congrArg (fun u : State => { u with out := t.out }) h

/-- PPWR_EN driven low reaches `out` alone (R80). -/
theorem State.allPowerLow_eq (s : State) : s.allPowerLow = { s with out := s.allPowerLow.out } := by
  have hstep (t : State) (p : PortNo) :
      ({ (if (t.port p).ppwrEn then t.emit (.ppwrEn p false) else t) with out := [] } : State) = { t with out := [] } := by
    split <;> rfl
  exact State.eq_with_out (State.each_keeps (fun t => ({ t with out := [] } : State)) hstep allPorts s)

/-! ### The start of PRIME (R366) -/

variable (s : State)

/-- The first half of instant 1 (R366): the cause latched and recorded, the counts at 0, the nonce renewed, WAKE_N released. -/
def State.latchCause (s : State) : State :=
  let u := if s.pw.wakeN then s.emit (.wakeN false) else s
  let v : State := { u with
    freeIx := s.freeIx + 1
    pl := { s.pl with subN := 0, cycle := 0 }
    pw := { s.pw with
      mode := .prime, primeInstant := 1, resetCause := s.pw.nextCause, nonce := BitVec.ofNat 256 s.freeNat, whsLeft := 4, wakeN := false } }
  v.record 0x01 [BitVec.ofNat 8 s.pw.nextCause.toNat]

/-- The wake cause that RETAIN kept, recorded and reported (R376). -/
def State.reportWake (s : State) : State :=
  match s.pw.retention with
  | some r =>
    match r.wakeCause with
    | some c => (s.record 0x12 [c]).modPw fun w => { w with retention := some { r with wakeCause := none } }
    | none => s
  | none => s

theorem State.latch_eq : s.latch = s.latchCause.reportWake := by
  unfold State.latch State.latchCause
  cases s.pw.wakeN <;> rfl

/-- A report of the wake cause changes the snag log and clears the cause. -/
theorem State.reportWake_eq : ∃ k l, s.reportWake = { s with
    freeIx := k
    snag := l
    pw := { s.pw with retention := s.pw.retention.map fun r => { r with wakeCause := none } } } := by
  have hkeep (h : (s.pw.retention.map fun r => { r with wakeCause := none }) = s.pw.retention) :
      s = { s with pw := { s.pw with retention := s.pw.retention.map fun r => { r with wakeCause := none } } } := by rw [h]
  unfold State.reportWake
  split
  next r hr =>
    split
    · exact ⟨_, _, by rw [hr]; rfl⟩
    · next hc => exact ⟨_, _, hkeep (by rw [hr, Option.map_some, ← hc])⟩
  next hr => exact ⟨_, _, hkeep (by rw [hr, Option.map_none])⟩

/-- Instant 1 of R366, from any state. -/
theorem State.atInstantOne_latch : s.AtInstantOne s.latch := by
  unfold State.AtInstantOne
  rw [s.latch_eq]
  obtain ⟨k, l, h⟩ := s.latchCause.reportWake_eq
  rw [h]
  unfold State.latchCause
  cases s.pw.wakeN <;> rfl

/-- PRIME that waits before instant 1 starts, and so do OFF and RETAIN through a reset (R14, R366). -/
theorem State.tryStart_of_prime {s : State} (hm : s.pw.mode = .prime) (h0 : s.pw.primeInstant = 0) (ha : s.pw.aonValid = true)
    (hv : s.pw.mainValid = true) (hp : s.pw.perst = false) : s.tryStart = s.latch := by
  simp [State.tryStart, hm, h0, ha, hv, hp]

theorem State.tryStart_of_off {s : State} (hm : s.pw.mode = .off) (ha : s.pw.aonValid = true) (hv : s.pw.mainValid = true)
    (hp : s.pw.perst = false) : s.tryStart = (s.toPrime 1).latch := by
  simp [State.tryStart, hm, ha, hv, hp]

theorem State.tryStart_of_retain {s : State} (hm : s.pw.mode = .retain) (ha : s.pw.aonValid = true) (hv : s.pw.mainValid = true)
    (hp : s.pw.perst = false) : s.tryStart = (s.toPrime 3).latch := by
  simp [State.tryStart, hm, ha, hv, hp]

/-! ### A reset through PRIME (R371) -/

variable (c : BitVec 4)

/-- PPWR_EN leaves the power island's registers as they are. -/
@[simp] theorem State.allPowerLow_pw : s.allPowerLow.pw = s.pw := by rw [s.allPowerLow_eq]

@[simp] theorem State.toPrime_mode : (s.toPrime c).pw.mode = .prime := rfl
@[simp] theorem State.toPrime_primeInstant : (s.toPrime c).pw.primeInstant = 0 := rfl
@[simp] theorem State.toPrime_aonValid : (s.toPrime c).pw.aonValid = s.pw.aonValid := by
  simp only [State.toPrime, State.allPowerLow_pw]
@[simp] theorem State.toPrime_mainValid : (s.toPrime c).pw.mainValid = s.pw.mainValid := by
  simp only [State.toPrime, State.allPowerLow_pw]
@[simp] theorem State.toPrime_perst : (s.toPrime c).pw.perst = s.pw.perst := by
  simp only [State.toPrime, State.allPowerLow_pw]

/-- What has left the block has no effect on a reset through PRIME. -/
theorem State.toPrime_with_out (o : List Out) : ∃ o', ({ s with out := o } : State).toPrime c = { s.toPrime c with out := o' } := by
  refine ⟨(({ s with out := o } : State).toPrime c).out, ?_⟩
  unfold State.toPrime
  rw [State.allPowerLow_eq { s with out := o }, s.allPowerLow_eq]

/-- A reset from inside starts PRIME at once where the supplies are valid and PERST_N is released (R14, R366). -/
theorem State.resetPrime_eq_latch {s : State} (ha : s.pw.aonValid = true) (hm : s.pw.mainValid = true) (hp : s.pw.perst = false) :
    s.resetPrime c = (s.toPrime c).latch := by
  rw [State.resetPrime, State.tryStart_of_prime] <;> simp [ha, hm, hp]

theorem State.atInstantOne_resetPrime {s : State} (ha : s.pw.aonValid = true) (hm : s.pw.mainValid = true)
    (hp : s.pw.perst = false) : (s.toPrime c).AtInstantOne (s.resetPrime c) := by
  rw [State.resetPrime_eq_latch c ha hm hp]
  exact State.atInstantOne_latch _

/-- At instant 1 the mode is PRIME and the cause is the one that waited. -/
theorem State.AtInstantOne.pw {u t : State} (h : u.AtInstantOne t) :
    t.pw.mode = .prime ∧ t.pw.primeInstant = 1 ∧ t.pw.resetCause = u.pw.nextCause := by
  have hpw := congrArg State.pw h
  exact ⟨congrArg Power.mode hpw, congrArg Power.primeInstant hpw, congrArg Power.resetCause hpw⟩

/-- The end of a command adds nothing to the snag log. -/
@[simp] theorem State.ended_snag : s.ended.snag = s.snag := by
  rw [← State.bare_snag, State.bare_ended, State.bare_snag]

/-! ### The sources of resets (R11, R14, R371, R372, R395) -/

/-- OFF is a reset through PRIME with the always-on island lost too (R14). -/
theorem State.toOff_eq : s.toOff = { s.toPrime 1 with
    out := s.toOff.out
    pw := { (s.toPrime 1).pw with
      mode := .off, aonValid := false, wakeN := false, egress := false, retention := none, reqResult := 5, snagSel := 0
      lastCompat := false }
    snag := { (s.toPrime 1).snag with buffer := [] } } := by
  have hlow : ∃ o, (if s.allPowerLow.pw.wakeN then s.allPowerLow.emit (.wakeN false) else s.allPowerLow) = { s with out := o } := by
    rw [s.allPowerLow_eq]
    split <;> exact ⟨_, rfl⟩
  obtain ⟨o, ho⟩ := hlow
  obtain ⟨o', ho'⟩ := s.toPrime_with_out 1 o
  simp only [State.toOff, ho, ho']
  rfl

theorem execPerstNAssert_eq_toPrime {s : State} (hp : s.pw.perst = false) (ho : s.pw.mode ≠ .off) (hs : s.pw.mode ≠ .standby) :
    execPerstNAssert s = .next (({ s with pw := { s.pw with perst := true } } : State).toPrime 2) := by
  cases hm : s.pw.mode <;> simp_all [execPerstNAssert, State.modPw]

theorem execSequencerWatchdog_eq {s : State} (h : s.pw.mode.isRunning = true ∨ s.pw.mode = .prime) :
    execSequencerWatchdog s = .next (s.resetPrime 5) := by
  cases hm : s.pw.mode <;> simp_all [execSequencerWatchdog, Mode.isRunning]

/-- RESET over SMBus with the right data, where it is allowed (R395). -/
theorem execSmbusReset_eq {s : State} (h : s.pw.mode.isRunning = true) (hr : s.pw.halted = true ∨ s.pw.bmcResetEn = true) :
    execSmbusReset 0xA5 s = .next (({ s with pw := { s.pw with reqResult := 0 } } : State).resetPrime 7) := by
  cases hm : s.pw.mode <;> simp_all [execSmbusReset, Mode.isRunning, State.modPw]

/-- A warm reset while the block runs with its link up (R372). -/
theorem State.warmFrom_eq {s : State} (hr : s.runs = true) (hl : s.pw.linkUp = true) (down : Bool) :
    s.warmFrom c down = s.warmReset c down := by
  simp only [State.runs, Bool.and_eq_true, Bool.not_eq_true'] at hr
  obtain ⟨hrun, hhalt⟩ := hr
  cases hm : s.pw.mode <;> simp_all [State.warmFrom, Mode.isRunning]

/-! ### Replays of the lath (R11) -/

/-- An occurrence counted leaves the power island's registers as they are. -/
@[simp] theorem State.count_pw (o : Occ) : (s.count o).pw = s.pw := by
  unfold State.count State.countInst
  split
  · rfl
  · split <;> rfl

/-- The replays of a lath block, each recorded and counted. -/
def State.lathReplays (s : State) (block : BitVec 8) (n : Nat) : State := s.each (List.range n) fun s _ => s.lathReplay block

theorem State.lathReplays_pw (block : BitVec 8) (n : Nat) : (s.lathReplays block n).pw = s.pw :=
  State.each_keeps State.pw (fun t _ => (t.record 4 [block]).count_pw _) _ s

/-- Replays are reports but for the snag log. -/
theorem State.bare_lathReplays (block : BitVec 8) (n : Nat) :
    (s.lathReplays block n).bare = State.bare { s with snag := (s.lathReplays block n).snag } := by
  have h := State.each_keeps (fun t => ({ t with snag := s.snag } : State).bare) (f := fun t _ => t.lathReplay block) (fun t _ => ?_)
    (List.range n) s
  · exact congrArg (fun u : State => { u with snag := (s.lathReplays block n).snag }) h
  · exact congrArg (fun u : State => { u with snag := s.snag }) (State.bare_count (t.record 4 [block]) _)

/-- A replay that succeeds ends the error with what was recorded and counted. -/
theorem execLathParityError_recovered {s : State} (h : s.pw.mode.isRunning = true) (block : BitVec 8) (n : Nat) :
    execLathParityError block n true s = .next (s.lathReplays block (min n 4)).ended := by
  cases hm : s.pw.mode <;> simp_all [execLathParityError, Mode.isRunning, State.lathReplays, done_eq_ended]

/-- Four replays that fail are a fatal internal error (R11). -/
theorem execLathParityError_failed {s : State} (h : s.pw.mode.isRunning = true) (block : BitVec 8) :
    execLathParityError block 4 false s = .next (((s.lathReplays block 4).record 5 [block, 1]).resetPrime 4) := by
  cases hm : s.pw.mode <;> simp_all [execLathParityError, Mode.isRunning, State.lathReplays]

end Sys2Proof.Machine
end

section
/-! Resets (O9). -/
namespace Sys2Proof.Machine

/-- Settles O9: each source is brought to `toPrime`, `latch` or `warmReset`; the registers after a warm reset are those `warmRegs` writes. -/
theorem resets : Obligations.Resets := by
  refine ⟨fun s hoff => ?_, fun s hp => ⟨fun hm => ?_, fun hm => ?_, fun hm => ?_⟩,
    fun s ha hv hp => ⟨fun hm => ?_, fun hm hr => ?_, fun hm block n _ => ?_, fun hm block => ?_⟩,
    fun s hr hl => ⟨?_, ?_, ?_⟩, fun s cause down => ?_⟩
  · exact ⟨s.toOff, by simp [exec, execVddAonLoss, hoff], s.toOff_eq⟩
  · obtain ⟨hoff, hstandby⟩ : s.pw.mode ≠ .off ∧ s.pw.mode ≠ .standby := by
      cases h : s.pw.mode <;> simp_all [Mode.isRunning]
    exact execPerstNAssert_eq_toPrime hp hoff hstandby
  · simp [exec, execPerstNAssert, hp, hm, State.modPw]
  · simp [exec, execPerstNAssert, hp, hm, State.modPw]
  · exact ⟨_, execSequencerWatchdog_eq hm, State.atInstantOne_resetPrime 5 ha hv hp⟩
  · exact ⟨_, execSmbusReset_eq hm hr, State.atInstantOne_resetPrime 7 ha hv hp⟩
  · refine ⟨_, execLathParityError_recovered hm block n, ?_⟩
    rw [State.bare_ended, State.ended_snag]
    exact s.bare_lathReplays block _
  · have hpw : ((s.lathReplays block 4).record 5 [block, 1]).pw = s.pw := s.lathReplays_pw block 4
    refine ⟨_, execLathParityError_failed hm block, ?_⟩
    exact (State.atInstantOne_resetPrime 4 (by rw [hpw, ha]) (by rw [hpw, hv]) (by rw [hpw, hp])).pw
  · simp only [exec, execPcieHotReset, State.warmFrom_eq 8 hr hl true]
  · simp only [exec, execPcieLinkDown, State.warmFrom_eq 9 hr hl true]
  · simp only [exec, execPfFunctionLevelReset, State.warmFrom_eq 10 hr hl false]
  · exact ⟨rfl, rfl, rfl, rfl, rfl, rfl, rfl, rfl, rfl, rfl, rfl, rfl, rfl, rfl, rfl⟩

end Sys2Proof.Machine
end

section
/-!
SUPPORT. Entry into RETAIN: what it writes to the retention registers and what it leaves as it was.
-/
namespace Sys2Proof.Machine

@[simp] theorem vget_ofFn {α : Type} {n : Nat} (f : Fin n → α) (i : Fin n) : vget (Vector.ofFn f) i = f i := by simp [vget]

variable (s : State)

/-- The retention registers as an entry into RETAIN writes them (R375). -/
def State.retained (s : State) : Retention :=
  { ppwr := Vector.ofFn fun p => (s.port p).ppwrEn
    pullup := Vector.ofFn fun p => (s.port p).pullup
    wakeEn := Vector.ofFn fun p => (s.port p).wakeEn
    wakeCause := none
    egressPort := Vector.ofFn fun p => (s.port p).egressPort
    modeBefore := s.pw.mode
    deepest := 7
    resetCause := s.pw.resetCause }

/-- Entry into RETAIN changes the instances and the registers of the power island alone (R375, R379). -/
theorem State.enterRetain_eq : ∃ x, s.enterRetain = { s with
    insts := x
    pw := { s.pw with
      mode := .retain, mainValid := false, retention := some s.retained, linkUp := false, l1 := none, barsReady := false
      msgQueue := [], perstPending := false, shedStep := 0, acted := 0, hot := false, thermal := 0 } } := by
  have hstep (t : State) (i : InstNo) :
      ∃ x, t.modInst i (fun n => { n with waiting := [], waitData := [], ctrMsgDue := false }) = { t with insts := x } := ⟨_, rfl⟩
  obtain ⟨x, hx⟩ := State.each_insts hstep allInsts s
  exact ⟨x, by rw [State.enterRetain, hx]; rfl⟩

/-- The main supplies are removed while the block runs or stands by (R375). -/
theorem execMainSuppliesRemoved_eq_enterRetain {s : State} (rail : Rail) (h : s.pw.mode.isRunning = true ∨ s.pw.mode = .standby) :
    execMainSuppliesRemoved rail s = .next (s.recordShed s.pw.shedStep 7 (Rail.bit rail)).enterRetain := by
  cases hm : s.pw.mode <;> simp_all [execMainSuppliesRemoved, Mode.isRunning]

end Sys2Proof.Machine
end

section
/-! RETAIN (O10). -/
namespace Sys2Proof.Machine

/-- Settles O10: entry is `enterRetain` after a snag-log entry; the other modes and the wake unfold. -/
theorem retain : Obligations.Retain := by
  refine ⟨fun s rail hm => ?_, fun s rail => ⟨fun hm => ?_, fun hm => ?_⟩, fun s r p hm hr hw hp hv => ?_⟩
  · refine ⟨_, execMainSuppliesRemoved_eq_enterRetain rail hm, ?_⟩
    obtain ⟨x, hx⟩ := (s.recordShed s.pw.shedStep 7 (Rail.bit rail)).enterRetain_eq
    rw [hx]
    refine ⟨rfl, rfl, rfl, rfl, rfl, rfl, rfl, rfl, rfl, rfl, _, rfl, rfl, rfl, rfl, fun p => ?_⟩
    simp only [State.retained, vget_ofFn]
    exact ⟨rfl, rfl, rfl, rfl⟩
  · rcases hm with hm | hm <;> simp [exec, execMainSuppliesRemoved, hm, State.modPw]
  · simp [exec, execMainSuppliesRemoved, hm, State.modPw]
  · simp [exec, execRetainWake, hm, hr, hw, hp, hv, State.modPw, State.emit]

end Sys2Proof.Machine
end

section
/-!
SUPPORT. The modes of the split functions (R19) and the planner: what a change of split does to them, and that events, orders that
complete, suspends and resumes leave them alone.
-/
namespace Sys2Proof.Machine

/-- The modes of a port's functions, and its pool of addresses. -/
def Port.modes (x : Port) : Bool × Bool × Bool × Nat × Nat := (x.enumHw, x.hubHw, x.treeHw, x.poolFirst, x.poolLast)

/-- The planner, and the modes of every port. -/
def State.modes (s : State) : Planner × Tab (Bool × Bool × Bool × Nat × Nat) 32 := (s.pl, s.ports.map Port.modes)

variable {s t : State}

theorem State.pl_of_modes (h : t.modes = s.modes) : t.pl = s.pl := congrArg Prod.fst h

theorem State.port_modes_of_modes (h : t.modes = s.modes) (p : PortNo) : (t.port p).modes = (s.port p).modes := by
  have hp : t.ports.map Port.modes = s.ports.map Port.modes := congrArg Prod.snd h
  simpa [State.port] using congrArg (vget · p) hp

theorem State.modes_of_bare (h : t.bare = s.bare) : t.modes = s.modes := by
  have hbare (u : State) : u.bare.modes = u.modes := rfl
  rw [← hbare t, h, hbare]

variable (s)

theorem State.modes_modPort (p : PortNo) (f : Port → Port) (h : ∀ x : Port, (f x).modes = x.modes) :
    (s.modPort p f).modes = s.modes := by
  have hports : (vset s.ports p (f (s.port p))).map Port.modes = s.ports.map Port.modes := by
    rw [map_vset, h]
    exact (congrArg _ (vget_map Port.modes s.ports p).symm).trans (vset_vget _ _)
  exact congrArg (s.pl, ·) hports

@[simp] theorem State.modes_emit (o : Out) : (s.emit o).modes = s.modes := rfl

/-! ### Commands that complete -/

@[simp] theorem State.modes_passHead (i : InstNo) (h : HeadOf) : (s.passHead i h).modes = s.modes := by
  cases h with
  | none => rfl
  | transfer k => rfl
  | command slot => unfold State.passHead; dsimp only; split <;> rfl

theorem State.modes_ite {c : Prop} [Decidable c] {t u : State} (ht : t.modes = s.modes) (hu : u.modes = s.modes) :
    (if c then t else u).modes = s.modes := by
  split
  · exact ht
  · exact hu

@[simp] theorem State.modes_finish (i : InstNo) (slot : BitVec 16) (st : Status) (r : Nat) : (s.finish i slot st r).modes = s.modes := by
  unfold State.finish
  split
  · rfl
  · have hwait (u : State) (w : WaitEvt) : (u.postWait i w).modes = u.modes := State.modes_of_bare (u.bare_postWait i w)
    have hcount (u : State) (o : Occ) : (u.count o).modes = u.modes := State.modes_of_bare (u.bare_count o)
    apply State.modes_ite
    · refine (State.modes_passHead _ _ _).trans ((hwait _ _).trans (State.modes_ite s rfl (hcount _ _)))
    · exact (hwait _ _).trans (State.modes_ite s rfl (hcount _ _))

@[simp] theorem State.modes_settlePort (p : PortNo) : (s.settlePort p).modes = s.modes := by
  refine State.each_keeps State.modes (fun t i => ?_) _ s
  refine State.each_keeps State.modes (fun u c => ?_) _ t
  split
  · split
    · exact State.modes_finish _ _ _ _ _
    · rfl
  · rfl

/-! ### Suspend and resume -/

@[simp] theorem State.modes_unpick (h : Holder) : (s.unpick h).modes = s.modes := by cases h <;> rfl

theorem State.modes_unpickAll (l : List Txn) : (s.each l fun s t => s.unpick t.who).modes = s.modes :=
  State.each_keeps State.modes (fun _ _ => State.modes_unpick _ _) l s

@[simp] theorem State.modes_withdraw (p : PortNo) : (s.withdraw p).modes = s.modes := by
  have hport : (s.modPort p fun x => { x with queue := [] }).modes = s.modes := s.modes_modPort p _ fun _ => rfl
  refine (State.each_keeps State.modes (fun t k => ?_) _ _).trans ((State.modes_unpickAll _ _).trans hport)
  exact State.modes_ite t rfl (State.modes_unpickAll _ _)

@[simp] theorem State.modes_flag (p : PortNo) (bit : Nat) : (s.flag p bit).modes = s.modes :=
  State.modes_ite s rfl ((State.modes_of_bare (State.bare_postPort _ _)).trans (s.modes_modPort p _ fun _ => rfl))

@[simp] theorem State.modes_setPortSt (p : PortNo) (st : PortState) (sr : Bool) : (s.setPortSt p st sr).modes = s.modes := by
  have hflag (c : Bool) (u : State) (bit : Nat) : (if c then u.flag p bit else u).modes = u.modes :=
    State.modes_ite u (u.modes_flag p bit) rfl
  unfold State.setPortSt
  rw [State.modes_settlePort, hflag, hflag]
  refine State.modes_ite s ?_ (s.modes_modPort p _ fun _ => rfl)
  rw [State.modes_modPort, State.modes_withdraw, State.modes_modPort]
  · exact fun _ => rfl
  · exact fun _ => rfl

@[simp] theorem State.modes_zeroDeficits (p : PortNo) : (s.zeroDeficits p).modes = s.modes := by
  refine State.each_keeps State.modes (fun t i => ?_) _ s
  exact State.modes_ite t rfl rfl

@[simp] theorem State.modes_backEnabled (p : PortNo) : (s.backEnabled p).modes = s.modes := by
  unfold State.backEnabled
  refine (State.modes_modPort _ p _ ?_).trans ((State.modes_zeroDeficits _ p).trans (s.modes_setPortSt p .enabled true))
  exact fun _ => by simp only [Port.modes]

@[simp] theorem State.modes_resumeEarly (p : PortNo) : (s.resumeEarly p).modes = s.modes := by
  unfold State.resumeEarly
  exact State.modes_ite s (s.modes_backEnabled p) (s.modes_modPort p _ fun _ => rfl)

@[simp] theorem State.modes_startResume (p : PortNo) : (s.startResume p).modes = s.modes := by
  rw [State.startResume, State.modes_emit, State.modes_setPortSt]

@[simp] theorem State.modes_treeAct (cmd : Option (InstNo × BitVec 16)) (hub hport action : Nat) :
    (s.treeAct cmd hub hport action).modes = s.modes := by
  have hask (u : State) (proc z req tgt sel arg xlen : Nat) : (u.ask proc z req tgt sel arg xlen).modes = u.modes := by
    unfold State.ask
    split <;> rfl
  unfold State.treeAct
  split
  · rfl
  · refine (hask _ _ _ _ _ _ _ _).trans ((State.each_keeps State.modes (fun t x => ?_) _ _).trans ?_) <;> rfl

@[simp] theorem State.modes_wakeBranch (q : Pos) : (s.wakeBranch q).modes = s.modes := by
  unfold State.wakeBranch
  refine State.modes_ite s rfl ?_
  dsimp only
  split
  case h_1 =>
    refine State.modes_ite s ?_ ?_
    · rw [State.modes_settlePort]
      exact s.modes_modPort _ _ fun _ => rfl
    · split
      · exact State.modes_ite s rfl (s.modes_treeAct _ _ _ _)
      · rfl
  case h_2 => exact s.modes_resumeEarly _
  case h_3 => exact s.modes_startResume _
  case h_4 => rfl

@[simp] theorem State.modes_wakeWork (p : PortNo) : (s.wakeWork p).modes = s.modes := by
  refine State.modes_ite s rfl (State.each_keeps State.modes (fun t q => ?_) _ s)
  exact State.modes_ite t (t.modes_wakeBranch q) rfl

end Sys2Proof.Machine
end

section
/-!
SUPPORT. Commands carried out: one that ends at once, and the opcodes that the manager alone may issue (R133, R135).
-/
namespace Sys2Proof.Machine

variable {s : State} {i : InstNo} {slot : BitVec 16} {op : Nat} {form : CEntry → Bool} {e : CEntry}

/-- A command ordered is of its opcode. -/
theorem State.Ordered.ceOp_eq (h : s.Ordered i slot op form e) : ceOp e = op := by
  obtain ⟨hs, -⟩ := h
  unfold State.starts at hs
  split at hs
  · cases hs
  · split at hs
    next c _ hc =>
      obtain rfl : c.entry = e := Option.some.inj hs
      simp only [Bool.and_eq_true, beq_iff_eq] at hc
      obtain ⟨⟨⟨-, hop⟩, -⟩, -⟩ := hc
      exact hop
    · cases hs

/-- An opcode of the manager's alone is ordered by the manager (R133). -/
theorem State.Ordered.inst_eq_zero (h : s.Ordered i slot op form e) (hm : managerOnly op = true) : i = 0 := by
  have hop := h.ceOp_eq
  obtain ⟨-, hp⟩ := h
  by_contra hi
  simp [State.notPermitted, hop, hm, hi] at hp

/-- A command of the manager that ends at once ends with its status and result. -/
theorem carryOut_ends {body : CEntry → Reply} {t : State} {st : Status} {r : Nat} (h : s.Ordered i slot op form e)
    (hm : managerOnly op = true) (hb : body e = .ends t st r) :
    carryOut i slot op form s body = .next (t.replied i slot st r) := by
  obtain rfl : i = 0 := h.inst_eq_zero hm
  obtain ⟨hs, hp⟩ := h
  have hserved : t.seqServed 0 op = t := by simp [State.seqServed]
  simp only [carryOut, hs, hp, hb, hserved]
  rfl

end Sys2Proof.Machine
end

section
/-!
SUPPORT. A change of split as it takes effect (R258): each function's mode, and what it leaves as it was.
-/
namespace Sys2Proof.Machine

variable (s : State)

@[simp] theorem State.ended_pl : s.ended.pl = s.pl := State.pl_of_modes (State.modes_of_bare s.bare_ended)

@[simp] theorem State.ended_tree : s.ended.tree = s.tree := by
  rw [← State.bare_tree, State.bare_ended, State.bare_tree]

@[simp] theorem State.modes_ended : s.ended.modes = s.modes := State.modes_of_bare s.bare_ended

@[simp] theorem State.modes_joinEnum (q : Pos) (zone : Option Nat) : (s.joinEnum q zone).modes = s.modes := by
  unfold State.joinEnum State.joinFrom
  exact State.modes_ite s rfl (State.modes_ite s rfl rfl)

theorem State.modes_joinAll {α : Type} (l : List α) (q : α → Pos) (zone : α → Option Nat) :
    (s.each l fun s x => s.joinEnum (q x) (zone x)).modes = s.modes :=
  State.each_keeps State.modes (fun t x => t.modes_joinEnum (q x) (zone x)) l s

@[simp] theorem State.modes_queueReaddress (p : PortNo) : (s.queueReaddress p).modes = s.modes :=
  State.modes_joinAll s _ _ _

/-- The port's mode of enumeration as the change orders it, and its pool where that is hardware (R258). -/
def Port.enumAs (y : Port) (x : Split) : Port :=
  { y with enumHw := x.hw, poolFirst := if x.hw then x.poolFirst else y.poolFirst, poolLast := if x.hw then x.poolLast else y.poolLast }

/-- Enumeration that moves to software tells the manager of every position that waited, and none waits any more. -/
theorem State.moveEnum_software {p : PortNo} {x : Split} (hold : (s.port p).enumHw = true) (hx : x.hw = false) :
    (s.moveEnum p x).bare = ((s.modPort p (·.enumAs x)).modTree fun t =>
      { t with waiting := t.waiting.filter fun y => y.pos.port != p }).bare := by
  simp only [State.moveEnum, hold, hx]
  refine (State.bare_each _ _ _ fun t y => ?_).trans ?_
  · exact State.bare_unsolicited _ _ _ _ _
  · simp only [Port.enumAs, hx]

theorem State.modes_moveEnum (p : PortNo) (x : Split) : (s.moveEnum p x).modes = (s.modPort p (·.enumAs x)).modes := by
  unfold State.moveEnum
  apply State.modes_ite
  · refine (State.each_keeps State.modes (fun t y => ?_) _ _).trans rfl
    exact State.modes_of_bare (State.bare_unsolicited _ _ _ _ _)
  · refine State.modes_ite _ ?_ rfl
    refine (State.modes_queueReaddress _ p).trans ((State.modes_joinAll _ _ _ _).trans ?_)
    refine (State.modes_ite _ rfl (State.modes_joinAll _ _ _ _)).trans ?_
    split
    · exact State.modes_ite _ (State.modes_joinEnum _ _ _) rfl
    · rfl

theorem State.modes_moveHubs (p : PortNo) (hw : Bool) :
    (s.moveHubs p hw).modes = (s.modPort p fun y => { y with hubHw := hw }).modes :=
  State.modes_ite _ rfl rfl

theorem State.modes_moveTree (p : PortNo) (hw : Bool) :
    (s.moveTree p hw).modes = (s.modPort p fun y => { y with treeHw := hw }).modes :=
  State.modes_ite _ (State.modes_wakeWork _ p) rfl

/-- No change of a port's functions alters the planner. -/
theorem State.pl_of_modes_modPort {t : State} {p : PortNo} {f : Port → Port} (h : t.modes = (s.modPort p f).modes) : t.pl = s.pl := by
  rw [State.pl_of_modes h]
  rfl

/-- The port that has been changed shows the modes of the change. -/
theorem State.port_of_modes_modPort {t : State} {p : PortNo} {f : Port → Port} (h : t.modes = (s.modPort p f).modes) :
    (t.port p).modes = (f (s.port p)).modes := by
  have hp := State.port_modes_of_modes h p
  rwa [State.modPort_port, if_pos rfl] at hp

/-- The state with the changes that are due taken from the list: those that wait stay (R20). -/
def State.splitsTaken (s : State) : State := s.modPl fun l => { l with splits := l.splits.filter fun y => !y.due }

/-- The one change that is due takes effect at the frame boundary. -/
theorem execSetSplitTakeEffect_one {x : Split} (ha : s.alive = true) (hx : s.pl.splits.filter (·.due) = [x]) :
    execSetSplitTakeEffect s = .next (s.splitsTaken.applySplit x).ended := by
  simp only [execSetSplitTakeEffect, ha, hx]
  rfl

/-- A change as it takes effect leaves the changes that wait alone. -/
theorem State.applySplit_splits (x : Split) : (s.applySplit x).pl.splits = s.pl.splits := by
  unfold State.applySplit
  split
  · rw [State.pl_of_modes_modPort s (s.modes_moveEnum _ x)]
  · rw [State.pl_of_modes_modPort s (s.modes_moveHubs _ _)]
  · rw [State.pl_of_modes_modPort s (s.modes_moveTree _ _)]
  · rfl
  · rfl
  · rfl

end Sys2Proof.Machine
end

section
/-! SET_SPLIT (O42). -/
namespace Sys2Proof.Machine

/-- What a port's functions have become once the change on it has taken effect. -/
theorem State.modes_splitTaken {s : State} {x : Split} {p : PortNo} {f : Port → Port}
    (h : (s.splitsTaken.applySplit x).modes = (s.splitsTaken.modPort p f).modes) :
    ((s.splitsTaken.applySplit x).ended.port p).modes = (f (s.port p)).modes := by
  rw [State.port_modes_of_modes (State.modes_ended _)]
  exact s.splitsTaken.port_of_modes_modPort h

/-- Settles O42: a SET_SPLIT queues its changes, and at the frame boundary the change that is due moves its own function's mode. -/
theorem splitModes : Obligations.SplitModes := by
  refine ⟨fun s i slot e f ho hf => ⟨fun hok hw => ?_, fun hok hw hall p hp => ?_, fun hok hw hall => ?_, fun hbad => ?_⟩,
    fun s x ha hx => ⟨_, execSetSplitTakeEffect_one s ha hx, ?_, fun hfn => ?_, fun hfn => ?_, fun p hp hfn => ?_, fun p hp hfn => ?_,
      fun p hp hfn => ?_⟩⟩
  · exact carryOut_ends ho rfl (by simp [hf, hok, hw])
  · have hport : splitPorts e = [p] := by simp [splitPorts, hall, ← hp, Nat.mod_eq_of_lt p.isLt]
    exact carryOut_ends ho rfl (by simp [hf, hok, hw, hport])
  · have hport : splitPorts e = allPorts := by simp [splitPorts, hall]
    exact carryOut_ends ho rfl (by simp [hf, hok, hw, hport, List.foldl_map])
  · exact carryOut_ends ho rfl (by simp [hf, hbad])
  · rw [State.ended_pl, State.applySplit_splits]
    rfl
  · rw [State.bare_ended, State.ended_pl, State.applySplit_splits]
    simp only [State.applySplit, hfn]
    rfl
  · rw [State.bare_ended, State.ended_pl, State.applySplit_splits]
    simp only [State.applySplit, hfn]
    rfl
  · have happly : s.splitsTaken.applySplit x = s.splitsTaken.moveEnum p x := by simp only [State.applySplit, hfn, hp]
    have hmodes := State.modes_splitTaken (happly ▸ s.splitsTaken.modes_moveEnum p x)
    simp only [Port.modes, Port.enumAs, Prod.mk.injEq] at hmodes
    obtain ⟨henum, -, -, hfirst, hlast⟩ := hmodes
    refine ⟨henum, fun hhw => ⟨by rw [hfirst, if_pos hhw], by rw [hlast, if_pos hhw]⟩, fun hsw hold w hw => ?_⟩
    have htree : (s.splitsTaken.moveEnum p x).tree = _ :=
      (State.bare_tree _).symm.trans (congrArg State.tree (s.splitsTaken.moveEnum_software hold hsw))
    rw [State.ended_tree, happly, htree] at hw
    simpa using (List.mem_filter.1 hw).2
  · have happly : s.splitsTaken.applySplit x = s.splitsTaken.moveHubs p x.hw := by simp only [State.applySplit, hfn, hp]
    have hmodes := State.modes_splitTaken (happly ▸ s.splitsTaken.modes_moveHubs p x.hw)
    simp only [Port.modes, Prod.mk.injEq] at hmodes
    obtain ⟨-, hhub, -⟩ := hmodes
    exact hhub
  · have happly : s.splitsTaken.applySplit x = s.splitsTaken.moveTree p x.hw := by simp only [State.applySplit, hfn, hp]
    have hmodes := State.modes_splitTaken (happly ▸ s.splitsTaken.modes_moveTree p x.hw)
    simp only [Port.modes, Prod.mk.injEq] at hmodes
    obtain ⟨-, -, htree, -⟩ := hmodes
    exact htree

end Sys2Proof.Machine
end

section
/-!
SUPPORT. The boot directory (R364), and the instants of PRIME up to the firmware slot (R366).
-/
namespace Sys2Proof.Machine

variable {s : State}

/-! ### The boot directory (R364) -/

/-- A change of the directory rewrites one copy in flash, and nothing else. -/
theorem State.writeDir_eq (active : Bool) (trial : Option Bool) : ∃ o d0 d1,
    s.writeDir active trial = { s with out := o, boot := { s.boot with dir0 := d0, dir1 := d1 } } := by
  unfold State.writeDir
  split <;> exact ⟨_, _, _, rfl⟩

/-- Of two valid copies the one whose `dseq` is the other's plus 1 governs, modulo 2^32. -/
theorem Boot.dir_of_next0 {b : Boot} {d : BootDir} (hv : d.valid = true) (h1 : b.dir1.valid = true)
    (hd : d.dseq = b.dir1.dseq + 1) : ({ b with dir0 := d } : Boot).dir = d := by
  simp [Boot.dir, Boot.governs1, hv, h1, hd]

theorem Boot.dir_of_next1 {b : Boot} {d : BootDir} (hv : d.valid = true) (h0 : b.dir0.valid = true)
    (hd : d.dseq = b.dir0.dseq + 1) : ({ b with dir1 := d } : Boot).dir = d := by
  simp [Boot.dir, Boot.governs1, hv, h0, hd]

/-- The copy that a change has rewritten governs from then on. -/
theorem State.dir_writeDir (h : s.boot.dir.valid = true) (active : Bool) (trial : Option Bool) :
    (s.writeDir active trial).boot.dir = ⟨true, s.boot.dir.dseq + 1, active, trial⟩ := by
  cases hg : s.boot.governs1 with
  | true =>
    have hdir : s.boot.dir = s.boot.dir1 := by simp [Boot.dir, hg]
    rw [hdir] at h ⊢
    have hnew : (s.writeDir active trial).boot = { s.boot with dir0 := ⟨true, s.boot.dir1.dseq + 1, active, trial⟩ } := by
      simp only [State.writeDir, hg, hdir]
      rfl
    rw [hnew, Boot.dir_of_next0 rfl h rfl]
  | false =>
    have hdir : s.boot.dir = s.boot.dir0 := by simp [Boot.dir, hg]
    rw [hdir] at h ⊢
    have hnew : (s.writeDir active trial).boot = { s.boot with dir1 := ⟨true, s.boot.dir0.dseq + 1, active, trial⟩ } := by
      simp only [State.writeDir, hg, hdir]
      rfl
    rw [hnew, Boot.dir_of_next1 rfl h rfl]

/-! ### The self-test (R366 instant 5) -/

/-- The second wipe and the directory read, before a slot is chosen. -/
def State.dirRead (s : State) (dir0 dir1 : List Byte) : State :=
  (s.wipe.modPw fun w => { w with primeInstant := 5 }).modBoot fun b => { b with dir0 := BootDir.read dir0, dir1 := BootDir.read dir1 }

/-- The slot that the directory has tried first: the trial slot, cleared from it, else the active one; a free one without a valid
directory (R367). -/
def State.chooseSlot (s : State) : State :=
  if !s.boot.dir.valid then s.takeFree.modBoot fun b => { b with trying := some (s.freeNat % 2 == 1), isTrial := false, refused := none }
  else match s.boot.dir.trial with
    | some t => (s.writeDir s.boot.dir.active none).modBoot fun b => { b with trying := some t, isTrial := true, refused := none }
    | none => s.modBoot fun b => { b with trying := some s.boot.dir.active, isTrial := false, refused := none }

theorem execSelfTestComplete_passed (hm : s.pw.mode = .prime) (hi : s.pw.primeInstant = 3) (hf : s.pw.primeFailed = false)
    (dir0 dir1 : List Byte) : execSelfTestComplete none dir0 dir1 s = .next (s.dirRead dir0 dir1).chooseSlot := by
  have hopen : (!(s.pw.mode == .prime && s.pw.primeInstant = 3 && !s.pw.primeFailed)) = false := by simp [hm, hi, hf]
  have hread : (s.wipe.modPw fun w => { w with primeInstant := 5 }).modBoot (fun b =>
      { b with dir0 := BootDir.read dir0, dir1 := BootDir.read dir1 }) = s.dirRead dir0 dir1 := rfl
  simp only [execSelfTestComplete, hopen, hread]
  generalize s.dirRead dir0 dir1 = u
  unfold State.chooseSlot
  cases u.boot.dir.valid
  · rfl
  · cases u.boot.dir.trial <;> rfl

/-- The choice of a slot changes the directory and what is tried. -/
theorem State.chooseSlot_eq : ∃ o k d0 d1 slot trial, s.chooseSlot = { s with
    out := o
    freeIx := k
    boot := { s.boot with dir0 := d0, dir1 := d1, trying := some slot, isTrial := trial, refused := none } } := by
  unfold State.chooseSlot
  split
  · exact ⟨_, _, _, _, _, _, rfl⟩
  · split
    next t _ =>
      obtain ⟨o, d0, d1, h⟩ := s.writeDir_eq s.boot.dir.active none
      exact ⟨o, s.freeIx, d0, d1, t, true, by rw [h]; rfl⟩
    · exact ⟨_, _, _, _, _, _, rfl⟩

/-- With a valid directory the trial slot is tried once, else the active one, and no slot is set for trial any more (R367). -/
theorem State.chooseSlot_of_valid (h : s.boot.dir.valid = true) :
    s.chooseSlot.boot.trying = some (s.boot.dir.trial.getD s.boot.dir.active) ∧
      s.chooseSlot.boot.isTrial = s.boot.dir.trial.isSome ∧ s.chooseSlot.boot.dir.trial = none ∧
      s.chooseSlot.boot.dir.active = s.boot.dir.active := by
  cases ht : s.boot.dir.trial with
  | none =>
    have hchoose : s.chooseSlot = s.modBoot fun b => { b with trying := some s.boot.dir.active, isTrial := false, refused := none } := by
      simp [State.chooseSlot, h, ht]
    rw [hchoose]
    exact ⟨rfl, rfl, ht, rfl⟩
  | some slot =>
    have hchoose : s.chooseSlot = (s.writeDir s.boot.dir.active none).modBoot fun b =>
        { b with trying := some slot, isTrial := true, refused := none } := by simp [State.chooseSlot, h, ht]
    have hdir : s.chooseSlot.boot.dir = (s.writeDir s.boot.dir.active none).boot.dir := by rw [hchoose]; rfl
    rw [hdir, s.dir_writeDir h, hchoose]
    exact ⟨rfl, rfl, rfl, rfl⟩

/-- The first slot refused leads to the other one (R367). -/
theorem State.refuseSlot_first {slot : Bool} (ht : s.boot.trying = some slot) (hr : s.boot.refused = none) (reason : BitVec 8) :
    s.refuseSlot reason = { s with
      pw := { s.pw with primeInstant := 5 }
      boot := { s.boot with
        refused := some reason, trying := some (!slot), isTrial := false, trialFailed := s.boot.trialFailed || s.boot.isTrial } } := by
  simp only [State.refuseSlot, ht, hr]
  rfl

/-- The link trains in PRIME from the end of the first wipe on (R366). -/
theorem execPcieLinkUp_of_prime (hm : s.pw.mode = .prime) (hi : 3 ≤ s.pw.primeInstant) : ∃ gen lanes,
    execPcieLinkUp s = .next { s with
      freeIx := s.freeIx + 1 + 1, pw := { s.pw with linkUp := true, linkGen := gen, linkLanes := lanes, l1 := none } } := by
  unfold execPcieLinkUp
  dsimp only
  rw [if_pos (by simp [hm, hi])]
  exact ⟨_, _, rfl⟩

end Sys2Proof.Machine
end

section
/-! PRIME up to the firmware slot (O6). -/
namespace Sys2Proof.Machine

/-- Settles O6: PRIME starts through `tryStart`, and each instant's command unfolds; the self-test's slot is `chooseSlot`. -/
theorem primeInstants : Obligations.PrimeInstants := by
  refine ⟨fun s hm h0 hp ha hv => ?_, fun s hm hp hv => ?_, fun s hm hp ha => ?_,
    fun s hm hf => ⟨fun hi => ?_, fun hi => ?_, fun hi => ?_, fun hi code dir0 dir1 => ?_, fun hi dir0 dir1 => ?_, fun hi => ?_,
      fun hi slot ht hr => ?_⟩⟩
  · refine ⟨_, ?_, State.atInstantOne_latch _⟩
    simp [exec, execPerstNRelease, hp, hm, State.modPw, State.tryStart_of_prime, h0, ha, hv]
  · refine ⟨_, ?_, State.atInstantOne_latch _⟩
    simp [exec, execVddAonRise, hp, hm, State.modPw, State.tryStart_of_off, hv]
  · refine ⟨_, ?_, State.atInstantOne_latch _⟩
    simp [exec, execMainSuppliesValid, hp, hm, State.modPw, State.tryStart_of_retain, ha]
  · simp [exec, execPllLock, hm, hi, State.modPw]
  · simp [exec, execFirstWipeComplete, hm, hi, State.modPw, State.wipe]
  · obtain ⟨gen, lanes, h⟩ := execPcieLinkUp_of_prime hm hi
    exact ⟨_, h, rfl⟩
  · refine ⟨(s.record 0x02 [1, 0, code]).failPrime, ?_, rfl⟩
    simp [exec, execSelfTestComplete, hm, hi, hf]
  · obtain ⟨o, k, d0, d1, slot, trial, h⟩ := (s.dirRead dir0 dir1).chooseSlot_eq
    refine ⟨_, execSelfTestComplete_passed hm hi hf dir0 dir1, ?_, ?_,
      fun hv => State.chooseSlot_of_valid (s := s.dirRead dir0 dir1) hv⟩
    · rw [h]
      rfl
    · rw [h]
      rfl
  · simp [exec, execFirmwareSlotReadDone, hm, hi, hf, State.modPw]
  · have hpw : ({ s.pw with primeInstant := 5 } : Power) = s.pw := by rw [← hi]
    have hfail : execFirmwareSlotReadDone false s = .next (s.refuseSlot 5) := by simp [execFirmwareSlotReadDone, hm, hi, hf]
    exact hfail.trans (by rw [State.refuseSlot_first ht hr, hpw])

end Sys2Proof.Machine
end

section
/-!
SUPPORT. Functions: VF Enable for each tenant, and the entry into STANDBY.
-/
namespace Sys2Proof.Machine

theorem mem_allTenants (j : InstNo) : j ∈ allTenants ↔ j ≠ 0 := by revert j; decide

theorem mem_allPorts (p : PortNo) : p ∈ allPorts := List.mem_finRange p

variable {s : State}

/-! ### VF Enable (R315, R327) -/

/-- The turn of a tenant as VF Enable is set: it is enabled if NumVFs reaches it. -/
def State.enableUpTo (s : State) (i : InstNo) : State := if i.val ≤ s.pw.numVfs then s.enableVf i else s

theorem State.enableUpTo_eq (s : State) (i : InstNo) : ∃ x, s.enableUpTo i = { s with insts := x } := by
  unfold State.enableUpTo
  split <;> exact ⟨_, rfl⟩

theorem State.enableUpTo_pw (s : State) (i : InstNo) : (s.enableUpTo i).pw = s.pw := by
  obtain ⟨x, h⟩ := s.enableUpTo_eq i
  rw [h]

/-- A tenant as VF Enable leaves it: every register at reset but for Memory Space Enable. -/
def Inst.enabledAt (n : Inst) (shedStep : Nat) : Inst :=
  { st := if 5 ≤ shedStep then .frozen else .running, memSpace := n.memSpace }

@[simp] theorem Inst.enabledAt_enabledAt (n : Inst) (k : Nat) : (n.enabledAt k).enabledAt k = n.enabledAt k := rfl

theorem State.enableUpTo_inst (s : State) (i j : InstNo) : (s.enableUpTo i).inst j =
    if j = i ∧ j.val ≤ s.pw.numVfs then (s.inst j).enabledAt s.pw.shedStep else s.inst j := by
  unfold State.enableUpTo State.enableVf
  by_cases hj : j = i
  · subst hj
    by_cases hle : j.val ≤ s.pw.numVfs <;> simp [hle, Inst.enabledAt]
  · by_cases hle : i.val ≤ s.pw.numVfs <;> simp [hle, hj]

theorem State.each_enableUpTo_inst (l : List InstNo) (s : State) (j : InstNo) : (s.each l State.enableUpTo).inst j =
    if j ∈ l ∧ j.val ≤ s.pw.numVfs then (s.inst j).enabledAt s.pw.shedStep else s.inst j := by
  induction l generalizing s with
  | nil => simp [State.each]
  | cons i l ih =>
    have hcons : s.each (i :: l) State.enableUpTo = (s.enableUpTo i).each l State.enableUpTo := rfl
    rw [hcons, ih, s.enableUpTo_pw, s.enableUpTo_inst]
    by_cases hle : j.val ≤ s.pw.numVfs
    · by_cases hji : j = i
      · simp [hji, hji ▸ hle]
      · simp [hji, hle]
    · simp [hle]

/-- SOLE becomes SHARED as VF Enable is set, and so do the modes to return to (R14). -/
def State.sharing (s : State) : State :=
  s.modPw fun w =>
    let shared (m : Mode) : Mode := if m == .sole then .shared else m
    { w with vfEnable := true, mode := shared w.mode, beforeShed := shared w.beforeShed, beforeStandby := shared w.beforeStandby }

theorem execVfEnableSet_eq (ho : s.cfgOpen = true) (hv : s.pw.vfEnable = false) (hc : s.inCompat = false)
    (hl : ∀ i, (s.inst i).leaving = false) : execVfEnableSet s = .next (s.sharing.each allTenants State.enableUpTo) := by
  have hopen : (!s.cfgOpen || s.pw.vfEnable || s.inCompat || allTenants.any fun i => (s.inst i).leaving) = false := by
    simp [ho, hv, hc, hl]
  simp only [execVfEnableSet, hopen]
  rfl

/-- With no tenant enabled and VF Enable clear, SHARED becomes SOLE, and so do the modes to return to (R14). -/
theorem State.leaveShared_eq (hv : s.pw.vfEnable = false) (hd : ∀ i, i ≠ 0 → (s.inst i).st = .disabled) :
    ∃ m m', s.leaveShared = { s with pw := { s.pw with
      mode := if s.pw.mode == .shared then .sole else s.pw.mode, beforeShed := m, beforeStandby := m' } } := by
  have hnone : (s.pw.vfEnable || allTenants.any fun i => (s.inst i).st != .disabled) = false := by
    simpa [hv, mem_allTenants] using hd
  simp only [State.leaveShared, hnone]
  exact ⟨_, _, rfl⟩

theorem State.disableVf_of_disabled {i : InstNo} (h : (s.inst i).st = .disabled) : s.disableVf i = s := by simp [State.disableVf, h]

/-- VF Enable is cleared with no tenant enabled (R327). -/
theorem execVfEnableClear_of_disabled (ho : s.cfgOpen = true) (hv : s.pw.vfEnable = true)
    (hd : ∀ i, i ≠ 0 → (s.inst i).st = .disabled) :
    execVfEnableClear s = .next (s.modPw fun w => { w with vfEnable := false }).leaveShared.ended := by
  have heach : (s.modPw fun w => { w with vfEnable := false }).each allTenants State.disableVf = s.modPw fun w => { w with vfEnable := false } :=
    State.each_eq_self fun i hi => State.disableVf_of_disabled (hd i ((mem_allTenants i).1 hi))
  simp [execVfEnableClear, ho, hv, heach, done_eq_ended]

/-- Registers that agree once messages and PME are set aside differ in these alone. -/
theorem Power.eq_with_reports {v w : Power}
    (h : ({ w with msgQueue := [], pme := false } : Power) = { v with msgQueue := [], pme := false }) :
    ∃ q pme, w = { v with msgQueue := q, pme := pme } :=
  ⟨w.msgQueue, w.pme, congrArg (fun x : Power => { x with msgQueue := w.msgQueue, pme := w.pme }) h⟩

/-- The end of a command may send messages and signal PME, and leaves the other registers of the power island alone. -/
theorem State.ended_pw (s : State) : ∃ q pme, s.ended.pw = { s.pw with msgQueue := q, pme := pme } := by
  have hbare (u : State) : ({ u.pw with msgQueue := [], pme := false } : Power) = u.bare.pw := rfl
  exact Power.eq_with_reports (by rw [hbare, State.bare_ended, hbare])

/-! ### STANDBY (R14, R374) -/

/-- Every function but a disabled one is in D3hot (R14). -/
def State.allAsleep (s : State) : Bool := (s.inst 0).d3hot && allTenants.all fun i => (s.inst i).st == .disabled || (s.inst i).d3hot

theorem State.allAsleep_iff (s : State) :
    s.allAsleep = true ↔ ∀ j, (s.inst j).d3hot = true ∨ (j ≠ 0 ∧ (s.inst j).st = .disabled) := by
  simp only [State.allAsleep, Bool.and_eq_true, List.all_eq_true, mem_allTenants, Bool.or_eq_true, beq_iff_eq]
  constructor
  · rintro ⟨h0, h⟩ j
    by_cases hj : j = 0
    · exact .inl (hj ▸ h0)
    · exact (h j hj).symm.imp_right fun hst => ⟨hj, hst⟩
  · intro h
    exact ⟨(h 0).resolve_right fun hne => hne.1 rfl, fun j _ => (h j).symm.imp_left And.right⟩

/-- The state in STANDBY, before anything has been suspended. -/
def State.standing (s : State) : State :=
  s.modPw fun w => { w with mode := .standby, beforeStandby := if w.mode == .shed then w.beforeShed else w.mode }

/-- A port with active egress entries while EGRESS_N is asserted is not suspended (R374). -/
def State.exempt (s : State) (p : PortNo) : Bool := s.pw.egress && s.activeOn p

/-- What STANDBY does to a port: an ENABLED one that is not exempt is to be suspended. -/
def State.suspendFor (u s : State) (p : PortNo) : State :=
  if (s.port p).st != .enabled || u.exempt p then s else s.modPort p fun x => { x with suspendPending := true }

/-- What STANDBY does to a trowel: it drains, unless it holds an exempt port (R216, R220). -/
def State.drainFor (u s : State) (k : TrowelNo) : State :=
  if (s.trowel k).holds.any u.exempt then s else s.returnTxns k fun t => !t.started

theorem State.enterStandby_eq (s : State) :
    s.enterStandby = (s.standing.each allPorts s.standing.suspendFor).each allTrowels s.standing.drainFor := rfl

/-- STANDBY from a running mode exempts the ports that the running mode would. -/
theorem State.standing_exempt (hrun : s.pw.mode.isRunning = true) (p : PortNo) : s.standing.exempt p = s.exempt p := by
  have hcompat : s.standing.inCompat = s.inCompat := by
    cases hm : s.pw.mode <;> simp_all [State.standing, State.inCompat, State.modPw, Mode.isRunning]
  have hentry : s.standing.activeEntry = s.activeEntry := by
    funext x
    simp only [State.activeEntry, hcompat]
    rfl
  simp only [State.exempt, State.activeOn, State.activeEntries, hentry]
  rfl

/-- A port as STANDBY leaves it: one that is ENABLED and not exempt is to be suspended. -/
def Port.standby (x : Port) (exempt : Bool) : Port :=
  { x with suspendPending := decide (x.st = .enabled ∧ ¬ exempt = true) || x.suspendPending }

theorem Port.standby_of_kept {x : Port} {e : Bool} (h : (x.st != .enabled || e) = true) : x.standby e = x := by
  have hkept : decide (x.st = .enabled ∧ ¬ e = true) = false := by
    simp only [Bool.or_eq_true, bne_iff_ne] at h
    exact decide_eq_false fun ⟨hst, he⟩ => h.elim (fun hne => hne hst) he
  rw [Port.standby, hkept, Bool.false_or]

theorem Port.standby_of_suspended {x : Port} {e : Bool} (h : ¬ (x.st != .enabled || e) = true) :
    x.standby e = { x with suspendPending := true } := by
  have hsuspended : decide (x.st = .enabled ∧ ¬ e = true) = true := by simpa using h
  rw [Port.standby, hsuspended, Bool.true_or]

@[simp] theorem Port.standby_standby (x : Port) (e : Bool) : (x.standby e).standby e = x.standby e := by simp [Port.standby]

theorem State.suspendFor_port (u s : State) (q p : PortNo) :
    (u.suspendFor s q).port p = if p = q then (s.port p).standby (u.exempt p) else s.port p := by
  unfold State.suspendFor
  split
  next h =>
    split
    next hpq => exact (Port.standby_of_kept (hpq ▸ h)).symm
    · rfl
  next h =>
    rw [State.modPort_port]
    split
    next hpq => rw [hpq, Port.standby_of_suspended h]
    · rfl

theorem State.each_suspendFor_port (u : State) (l : List PortNo) (s : State) (p : PortNo) :
    (s.each l u.suspendFor).port p = if p ∈ l then (s.port p).standby (u.exempt p) else s.port p := by
  induction l generalizing s with
  | nil => simp [State.each]
  | cons q l ih =>
    have hcons : s.each (q :: l) u.suspendFor = (u.suspendFor s q).each l u.suspendFor := rfl
    rw [hcons, ih, u.suspendFor_port]
    by_cases hpq : p = q <;> simp [hpq]

/-- Suspending the ports changes the ports alone. -/
theorem State.each_suspendFor_keeps (u : State) (l : List PortNo) (s : State) :
    (s.each l u.suspendFor).pw = s.pw ∧ (s.each l u.suspendFor).insts = s.insts := by
  have hstep (t : State) (q : PortNo) : ((u.suspendFor t q).pw, (u.suspendFor t q).insts) = (t.pw, t.insts) := by
    unfold State.suspendFor
    split <;> rfl
  exact Prod.mk.inj (State.each_keeps (fun t => (t.pw, t.insts)) hstep l s)

/-! ### What the return of transactions to their ports keeps -/

/-- `t` is `s` but for trowels and for transactions that have come to the ports' queues. -/
def State.Requeued (s t : State) : Prop :=
  t.pw = s.pw ∧ t.insts = s.insts ∧
    ∀ p, (∀ x ∈ (s.port p).queue, x ∈ (t.port p).queue) ∧ t.port p = { s.port p with queue := (t.port p).queue }

theorem State.Requeued.refl (s : State) : s.Requeued s := ⟨rfl, rfl, fun _ => ⟨fun _ h => h, rfl⟩⟩

theorem State.Requeued.trans {s t u : State} (h : s.Requeued t) (h' : t.Requeued u) : s.Requeued u := by
  obtain ⟨hpw, hinsts, hports⟩ := h
  obtain ⟨hpw', hinsts', hports'⟩ := h'
  refine ⟨hpw'.trans hpw, hinsts'.trans hinsts, fun p => ?_⟩
  obtain ⟨hin, hport⟩ := hports p
  obtain ⟨hin', hport'⟩ := hports' p
  exact ⟨fun x hx => hin' x (hin x hx), by rw [hport', hport]⟩

theorem State.Requeued.each {α : Type} {f : State → α → State} (h : ∀ t a, State.Requeued t (f t a)) (l : List α) (s : State) :
    s.Requeued (s.each l f) := by
  induction l generalizing s with
  | nil => exact .refl s
  | cons a l ih => exact (h s a).trans (ih (f s a))

/-- Transactions that return stand among those that were queued. -/
theorem State.requeued_returnTxns (s : State) (k : TrowelNo) (which : Txn → Bool) : s.Requeued (s.returnTxns k which) := by
  have hstep (t : State) (y : Txn) (q : PortNo) : t.Requeued (t.modPort q fun x =>
      { x with queue := (x.queue.takeWhile fun u => u.id < y.id) ++ y :: (x.queue.dropWhile fun u => u.id < y.id) }) := by
    refine ⟨rfl, rfl, fun p => ?_⟩
    rw [State.modPort_port]
    split
    next hp =>
      subst hp
      refine ⟨fun x hx => ?_, rfl⟩
      rw [← List.takeWhile_append_dropWhile (p := fun u => decide (u.id < y.id)) (l := (t.port p).queue)] at hx
      exact (List.mem_append.1 hx).elim (fun h => List.mem_append_left _ h) fun h => List.mem_append_right _ (List.mem_cons_of_mem _ h)
    · exact ⟨fun _ h => h, rfl⟩
  have hslots : s.Requeued (s.modTrowel k fun w => { w with slots := w.slots.filter fun t => !which t }) :=
    ⟨rfl, rfl, fun p => ⟨fun _ h => h, rfl⟩⟩
  exact hslots.trans (State.Requeued.each (fun t y => hstep t _ _) _ _)

theorem State.requeued_drainFor (u s : State) (k : TrowelNo) : s.Requeued (u.drainFor s k) := by
  unfold State.drainFor
  split
  · exact .refl s
  · exact s.requeued_returnTxns k _

/-- The registers of the power island, the instances and the ports in STANDBY (R374). -/
theorem State.enterStandby_spec (hrun : s.pw.mode.isRunning = true) :
    s.enterStandby.pw = s.standing.pw ∧ s.enterStandby.insts = s.insts ∧
    ∀ p, (∀ x ∈ (s.port p).queue, x ∈ (s.enterStandby.port p).queue) ∧
      s.enterStandby.port p = { (s.port p).standby (s.exempt p) with queue := (s.enterStandby.port p).queue } := by
  rw [s.enterStandby_eq]
  obtain ⟨hpw, hinsts⟩ := s.standing.each_suspendFor_keeps allPorts s.standing
  have hport (p : PortNo) : (s.standing.each allPorts s.standing.suspendFor).port p = (s.port p).standby (s.exempt p) := by
    rw [State.each_suspendFor_port, if_pos (mem_allPorts p), State.standing_exempt hrun]
    rfl
  obtain ⟨hpw', hinsts', hports'⟩ := State.Requeued.each s.standing.requeued_drainFor allTrowels
    (s.standing.each allPorts s.standing.suspendFor)
  refine ⟨hpw'.trans hpw, hinsts'.trans hinsts, fun p => ?_⟩
  obtain ⟨hin, hp⟩ := hports' p
  rw [hport p] at hin hp
  exact ⟨hin, hp⟩

/-- A function in D3hot (R14). -/
def State.asleep (s : State) (i : InstNo) : State := s.modInst i fun n => { n with d3hot := true }

/-- A function enters D3hot with nothing waiting; the last one to do so brings STANDBY (R14). -/
theorem execFunctionD3hot_eq {i : InstNo} (ho : s.fnOpen i = true) (hd : (s.inst i).d3hot = false) (hw : (s.inst i).waiting = []) :
    execFunctionD3hot i s =
      .next (if s.pw.mode.isRunning && (s.asleep i).allAsleep then (s.asleep i).enterStandby else s.asleep i) := by
  have hpme : (s.asleep i).signalPme i = s.asleep i := by simp [State.signalPme, State.asleep, hw]
  have hclosed : (!s.fnOpen i || (s.inst i).d3hot) = false := by simp [ho, hd]
  simp only [execFunctionD3hot, hclosed]
  rw [← State.asleep, hpme]
  rfl

/-- A function's sleep alone exempts no port and no less. -/
theorem State.asleep_exempt (s : State) (i : InstNo) (p : PortNo) : (s.asleep i).exempt p = s.exempt p := by
  have hbase : ((s.asleep i).inst 0).epBase = (s.inst 0).epBase := by
    rw [State.asleep, State.modInst_inst]
    split
    next h => rw [h]
    · rfl
  have hentry : (s.asleep i).activeEntry = s.activeEntry := by
    funext x
    simp only [State.activeEntry, hbase]
    rfl
  simp only [State.exempt, State.activeOn, State.activeEntries, hentry]
  rfl

end Sys2Proof.Machine
end

section
/-! Functions (O13). -/
namespace Sys2Proof.Machine

/-- Settles O13: VF Enable is a turn of each tenant, the last D3hot is `enterStandby`, and the writes unfold. -/
theorem functions : Obligations.Functions := by
  refine ⟨fun s v ho hv hc hle => ?_, fun s ho hv hc hl => ?_, fun s ho hv hm hd => ?_, fun s i ho hd hw => ?_, fun s i ho hd hz => ?_,
    fun s i ho => ⟨?_, fun hb => ?_⟩⟩
  · have hv' : ¬ 63 < v := by omega
    simp [exec, execNumvfsWrite, ho, hv, hc, hv', State.modPw]
  · refine ⟨_, execVfEnableSet_eq ho hv hc hl, fun i => ?_, ?_⟩
    · rw [State.each_enableUpTo_inst]
      simp only [mem_allTenants]
      rfl
    · obtain ⟨x, hx⟩ := State.each_insts State.enableUpTo_eq allTenants s.sharing
      rw [hx]
      refine ⟨rfl, fun hsole => ?_, fun hsole => ?_, rfl⟩ <;> simp [State.sharing, State.modPw, hsole]
  · refine ⟨_, execVfEnableClear_of_disabled ho hv hd, ?_⟩
    obtain ⟨m, m', h⟩ := State.leaveShared_eq (s := s.modPw fun w => { w with vfEnable := false }) rfl hd
    obtain ⟨q, pme, hpw⟩ := (s.modPw fun w => { w with vfEnable := false }).leaveShared.ended_pw
    rw [State.bare_ended, hpw, h]
    simp [State.modPw, hm]
  · refine ⟨_, execFunctionD3hot_eq ho hd hw, fun ⟨j, hj, hst⟩ => ?_, fun hrun hall => ?_⟩
    · have hawake : (s.asleep i).allAsleep = false := by
        rw [← Bool.not_eq_true, State.allAsleep_iff]
        intro hall
        rcases hall j with h | ⟨hne, h⟩
        · exact Bool.false_ne_true (hj.symm.trans h)
        · exact hst.elim hne fun hst => hst h
      rw [hawake, Bool.and_false]
      rfl
    · have hlast : (s.pw.mode.isRunning && (s.asleep i).allAsleep) = true := by
        rw [hrun, (State.allAsleep_iff (s.asleep i)).2 hall]
        rfl
      rw [if_pos hlast]
      obtain ⟨hpw, hinsts, hports⟩ := State.enterStandby_spec (s := s.asleep i) hrun
      refine ⟨by rw [hpw]; rfl, ?_, hinsts, fun p => ?_⟩
      · rw [hpw]
        simp [State.standing, State.asleep, State.modPw]
      · obtain ⟨hin, hp⟩ := hports p
        rw [State.asleep_exempt] at hp
        refine ⟨hin, hp.trans ?_⟩
        simp only [Port.standby, State.exempt, Bool.and_eq_true]
        rfl
  · have hclosed : (!s.fnOpen i || !(s.inst i).d3hot) = false := by simp [ho, hd]
    have hstay : ¬ (i = 0 ∧ s.pw.mode = .standby) := fun ⟨hi, hm⟩ => hz.elim (fun h => h hi) fun h => h hm
    simp [exec, execFunctionD0, hclosed, hstay, done_eq_ended]
  · simp [exec, execBusMasterEnableWrite, ho]
  · simp [exec, execBusMasterEnableWrite, ho, hb, done_eq_ended]

end Sys2Proof.Machine
end

section
/-! Responses (O53). -/
namespace Sys2Proof.Machine

/-- A device at tier 1 of port 0. -/
def tier1Dev (st : DevState) : DevRec :=
  { port := 0, tier := 1, parent := 0, phport := 0, route := 0, hub := false, rev3 := false, speed := .express, owner := 0, hubPorts := 0
    st := st, ep0Max := 64, cls := 0, admitFrame := 0, resetGen := 0, awaiting := false, perPort := false, statusOn := false
    statusPhase := 0, statusSeq := 0, bits := 0, hports := [], work := 0 }

/-- A halted endpoint 0 of the device at `z`. -/
def haltedEp0 (z : Nat) : Ep :=
  { inst := 0, zone := z, epid := 0, kind := .control, interval := 0, phase := 0, evtRing := 0, maxBlock := 64, errThreshold := 3
    errCount := 0, retryLimit := 3, retryCount := 0, st := .halted, nextSeq := 0, expectSeq := 0, silenceRun := 0, trBase := 0
    trSize := 0, trHead := 0, trTail := 0, region := 0, heldValid := false, heldLen := 0, heldReplaced := 0, flowId := 0
    flowEn := false, egressSafe := false, svcCost := 0, commitRef := 0, blocksDone := 0, bytesDone := 0, cur := none, carry := []
    carryEot := false, backoff := false, backoffAt := 0, picked := false, delivering := false, lastSilence := false, missRun := false
    recovering := false, force := none, streamBlock := 0, newSched := none, opening := none, newlyOpen := false }

/-- A running controller in hardware error recovery whose table of contexts lists slot 0 twice: the first context, of a device that is
detached, is the one that the slot reads as; the second is of a device that can be reached. -/
def slotTwice : State :=
  { State.reset with
    pw := { State.reset.pw with mode := .sole, perst := false }
    pl := { State.reset.pl with recoverHw := true }
    ports := Vector.replicate 32 { st := .enabled, speed := .express }
    eps := [(0, haltedEp0 2), (0, haltedEp0 1)]
    devs := [(1, tier1Dev .addressed), (2, tier1Dev .detached)] }

/-- The second context of slot 0 passes for one to recover, and `unhalted 0` then clears the first. -/
theorem slotTwice_recovers : (match exec (.recoveryBackoffExpiry 0) slotTwice with
    | .next t => (t.ep 0).map (·.st)
    | _ => none) = some .running := by decide +kernel

/-- Refutes O53: nothing keeps the table of contexts from listing a slot twice, and the recovery of a shadowed context whose device can be
reached clears the halt of the one that the slot reads as, whose device is detached. -/
theorem not_responses : ¬ Obligations.Responses := by
  intro h
  obtain ⟨-, -, -, -, -, hrecovery, -⟩ := h
  obtain ⟨t, hexec, -, hstays⟩ := (hrecovery slotTwice 0 (haltedEp0 2) (tier1Dev .detached) (by decide +kernel) rfl rfl rfl rfl
    (by decide +kernel) rfl).1 rfl (by decide +kernel)
  have hep := hstays (.inl (by decide +kernel))
  have hrun := slotTwice_recovers
  rw [hexec] at hrun
  simp only [hep] at hrun
  exact absurd hrun (by decide)

end Sys2Proof.Machine
end

section
/-!
SUPPORT. What completing work leaves alone: the dispatcher's operations, transfer entries, commits and deliveries change endpoint contexts,
commits, items and gates, and report; the ports, trowels, devices and everything else stay.
-/
namespace Sys2Proof.Machine

/-! ### The state without the dispatcher -/

/-- A tenant's record, or the manager's, without what it has been told and what the dispatcher counts. -/
def Inst.undispatched (n : Inst) : Inst := { n.bare with gateStrays := 0 }

/-- The state without its reporting, the dispatcher, and what the dispatcher counts and numbers. -/
def State.undispatched (s : State) : State :=
  { s.bare with disp := {}, nextId := 0, insts := s.insts.map Inst.undispatched }

variable {s t : State}

theorem State.undispatched_of_bare (h : t.bare = s.bare) : t.undispatched = s.undispatched := by
  have hu (u : State) : u.undispatched =
      { u.bare with disp := {}, nextId := 0, insts := u.bare.insts.map fun n => { n with gateStrays := 0 } } := by
    have hi : u.bare.insts.map (fun n => { n with gateStrays := 0 }) = u.insts.map Inst.undispatched :=
      Vector.map_map ..
    rw [hi]
    rfl
  rw [hu t, h, hu s]

variable (s)

theorem State.undispatched_modInst (i : InstNo) (f : Inst → Inst)
    (h : (f (s.inst i)).undispatched = (s.inst i).undispatched) : (s.modInst i f).undispatched = s.undispatched := by
  have hi : (vset s.insts i (f (s.inst i))).map Inst.undispatched = s.insts.map Inst.undispatched := by
    rw [map_vset, h]
    exact (congrArg _ (vget_map _ s.insts i).symm).trans (vset_vget _ _)
  simp only [State.undispatched, State.bare, State.modInst, State.setInst, hi]

@[simp] theorem State.undispatched_modDisp (f : Disp → Disp) : (s.modDisp f).undispatched = s.undispatched := rfl
@[simp] theorem State.undispatched_unreserve (i : InstNo) (e : RingNo) : (s.unreserve i e).undispatched = s.undispatched :=
  State.undispatched_of_bare (s.bare_unreserve i e)
@[simp] theorem State.undispatched_postWait (i : InstNo) (w : WaitEvt) : (s.postWait i w).undispatched = s.undispatched :=
  State.undispatched_of_bare (s.bare_postWait i w)
@[simp] theorem State.undispatched_takeId : s.takeId.undispatched = s.undispatched := rfl
@[simp] theorem State.undispatched_modGroup (g : GroupNo) (f : Group → Group) : (s.modGroup g f).undispatched = s.undispatched := rfl
@[simp] theorem State.undispatched_count (o : Occ) : (s.count o).undispatched = s.undispatched :=
  State.undispatched_of_bare (s.bare_count o)

@[simp] theorem State.undispatched_traceWrite (r : TraceRec) : (s.traceWrite r).undispatched = s.undispatched := by
  unfold State.traceWrite
  rw [State.undispatched_modDisp]
  exact State.undispatched_of_bare (State.bare_hostWrite _ _ _ _)

@[simp] theorem State.undispatched_traceLost : s.traceLost.undispatched = s.undispatched := by
  unfold State.traceLost
  dsimp only
  split
  · rfl
  · rw [State.undispatched_modDisp, State.undispatched_traceWrite]

@[simp] theorem State.undispatched_trace (r : TraceRec) : (s.trace r).undispatched = s.undispatched := by
  unfold State.trace
  dsimp only
  split
  · rfl
  · split
    · rfl
    · split
      · rw [State.undispatched_traceWrite, State.undispatched_traceLost]
      · exact s.undispatched_traceLost

@[simp] theorem State.undispatched_pushItem (k : Nat) (x : Item) : (s.pushItem k x).undispatched = s.undispatched := rfl

@[simp] theorem State.undispatched_parkItem (k : Nat) (x : Item) : (s.parkItem k x).undispatched = s.undispatched := by
  simp [State.parkItem]

@[simp] theorem State.undispatched_itemReady (k : Nat) : (s.itemReady k).undispatched = s.undispatched := by
  unfold State.itemReady
  split
  · rfl
  · dsimp only
    split <;> simp

@[simp] theorem State.undispatched_dropItem (k : Nat) : (s.dropItem k).undispatched = s.undispatched := rfl

@[simp] theorem State.undispatched_gateZero (g : Nat) (x : Gate) : (s.gateZero g x).undispatched = s.undispatched := by
  unfold State.gateZero
  dsimp only
  split <;> simp

/-- A decrement that finds its gate not to be counted down counts as stray (R299). -/
theorem State.undispatched_strayDec (i : InstNo) :
    (s.modInst i fun n => { n with gateStrays := satInc n.gateStrays }).undispatched = s.undispatched :=
  s.undispatched_modInst i _ rfl

@[simp] theorem State.undispatched_gateDec (i : InstNo) (g : Nat) (c : Option Nat) : (s.gateDec i g c).undispatched = s.undispatched := by
  unfold State.gateDec
  split
  · simp
  · split
    · split
      · dsimp only
        split <;> simp
      · exact s.undispatched_strayDec i
    · exact s.undispatched_strayDec i

/-- What the write of an event brings about beyond the head that it passes is the dispatcher's alone (R92, R288, R299). -/
theorem State.undispatched_after (i : InstNo) (w : WaitEvt) : (s.after i w).undispatched = (s.passHead i w.head).undispatched := by
  unfold State.after
  dsimp only
  split <;> split <;> simp

theorem State.eps_of_undispatched {s t : State} (h : t.undispatched = s.undispatched) : t.eps = s.eps :=
  (congrArg State.eps h : t.undispatched.eps = s.undispatched.eps)
theorem State.commits_of_undispatched {s t : State} (h : t.undispatched = s.undispatched) : t.commits = s.commits :=
  (congrArg State.commits h : t.undispatched.commits = s.undispatched.commits)

/-! ### The state without its work -/

/-- The state without its reporting, the dispatcher, endpoint contexts, commits and the snag log. -/
def State.core (s : State) : State := { s.undispatched with eps := [], commits := [], snag := {} }

theorem State.core_of_undispatched {s t : State} (h : t.undispatched = s.undispatched) : t.core = s.core :=
  congrArg (fun u : State => { u with eps := [], commits := [], snag := {} }) h

theorem State.core_of_bare {s t : State} (h : t.bare = s.bare) : t.core = s.core :=
  State.core_of_undispatched (State.undispatched_of_bare h)

@[simp] theorem State.core_setEp (k : Nat) (x : Ep) : (s.setEp k x).core = s.core := rfl
@[simp] theorem State.core_modEp (k : Nat) (f : Ep → Ep) : (s.modEp k f).core = s.core := rfl
@[simp] theorem State.core_record (c : BitVec 8) (d : List Byte) : (s.record c d).core = s.core := rfl
@[simp] theorem State.core_count (o : Occ) : (s.count o).core = s.core := State.core_of_bare (s.bare_count o)
@[simp] theorem State.core_putData (i : InstNo) (a : Nat) (bs : List Byte) (k : Option Nat) : (s.putData i a bs k).core = s.core := by
  unfold State.putData
  split
  · rfl
  · split
    · exact State.core_of_bare (s.bare_hostWriteBy _ _ _ _ _)
    · split
      · rfl
      · exact State.core_of_bare (State.bare_modInst _ _ _ rfl)

theorem State.core_each {α : Type} {f : State → α → State} (h : ∀ t x, (f t x).core = t.core) (l : List α) (s : State) :
    (s.each l f).core = s.core := State.each_keeps State.core h l s

section
variable {s t : State} (h : t.core = s.core)
include h

theorem State.ports_of_core : t.ports = s.ports := (congrArg State.ports h : t.core.ports = s.core.ports)
theorem State.port_of_core (p : PortNo) : t.port p = s.port p := congrArg (vget · p) (State.ports_of_core h)
theorem State.trowels_of_core : t.trowels = s.trowels := (congrArg State.trowels h : t.core.trowels = s.core.trowels)
theorem State.devs_of_core : t.devs = s.devs := (congrArg State.devs h : t.core.devs = s.core.devs)
theorem State.deliveries_of_core : t.deliveries = s.deliveries := (congrArg State.deliveries h : t.core.deliveries = s.core.deliveries)

theorem State.canWrite_of_core (i : InstNo) : t.canWrite i = s.canWrite i := by
  have hcore (u : State) : u.core.canWrite i = u.canWrite i := by
    have hinst : u.core.inst i = (u.inst i).undispatched := vget_map ..
    simp only [State.canWrite, hinst]
    rfl
  rw [← hcore t, h, hcore s]

end

/-! ### Completion -/

/-- The context of an endpoint whose entry in progress has completed with `n` bytes; `counted` unless its owner is halted, `passed` once
the event is written (R92, R117). -/
def Ep.completed (e : Ep) (n : Nat) (counted passed : Bool) : Ep :=
  let e' : Ep := { e with cur := none, bytesDone := if counted then e.bytesDone + BitVec.ofNat 64 n else e.bytesDone }
  if passed then e'.advance else e'

/-- Instance `i` and the controller are not halted, so that a completion is reported (R117). -/
def State.reports (s : State) (i : InstNo) : Bool := !((s.inst i).halted || s.pw.halted)

theorem State.reports_of_canWrite {s : State} {i : InstNo} (h : s.canWrite i = true) : s.reports i = true := by
  simp only [State.canWrite, State.runs, Bool.and_eq_true, Bool.not_eq_true'] at h
  simp [State.reports, h]

/-- The head of a transfer ring is in the context of its endpoint. -/
theorem State.undispatched_after_transfer (s : State) (i : InstNo) (w : WaitEvt) {k : Nat} (hw : w.head = .transfer k) :
    (s.after i w).undispatched = (s.modEp k (·.advance)).undispatched := by
  rw [State.undispatched_after, hw]
  rfl

/-- A completion changes, beside the dispatcher and what is reported, the context of its endpoint alone. -/
theorem State.completeAt_eq (s : State) {k : Nat} {e : Ep} {x : Xfer} (st : Status) (stamp : Nat) (hep : s.ep k = some e)
    (hcur : e.cur = some x) :
    let passed := s.reports e.inst && (teSuppress x.entry && st == .success || s.canWrite e.inst)
    let t := s.setEp k (e.completed x.bytes (s.reports e.inst) false)
    (s.completeAt k st stamp).undispatched = (if passed then t.modEp k (·.advance) else t).undispatched := by
  intro passed t
  have hring (u : State) (i : InstNo) (r : RingNo) :
      (u.modRing i r fun r => { r with reserved := r.reserved - 1 }).undispatched = u.undispatched :=
    State.undispatched_of_bare (State.bare_modRing _ _ _ _ rfl)
  cases hr : s.reports e.inst with
  | false =>
    have hhalt : ((s.inst e.inst).halted || s.pw.halted) = true := by simpa only [State.reports, Bool.not_eq_false'] using hr
    have hpassed : passed = false := by simp [passed, hr]
    simp only [State.completeAt, hep, hcur, hhalt, hpassed, if_true, Bool.false_eq_true, if_false]
    split <;> simp [hring, t, hr, Ep.completed]
  | true =>
    have hhalt : ((s.inst e.inst).halted || s.pw.halted) = false := by simpa only [State.reports, Bool.not_eq_true'] using hr
    have hend (u : State) (w : WaitEvt) (hu : u.undispatched = t.undispatched) (hw : w.head = .transfer k) :
        (if teSuppress x.entry && st == .success then (u.unreserve e.inst e.evtRing).after e.inst w
          else if u.canWrite e.inst then (u.postWait e.inst w).after e.inst w else u.postWait e.inst w).undispatched =
        (if passed then t.modEp k (·.advance) else t).undispatched := by
      have hwrite : u.canWrite e.inst = s.canWrite e.inst :=
        State.canWrite_of_core (State.core_of_undispatched hu : u.core = t.core) e.inst
      have hpass (v : State) (hv : v.undispatched = u.undispatched) :
          (v.after e.inst w).undispatched = (t.modEp k (·.advance)).undispatched :=
        (v.undispatched_after_transfer e.inst w hw).trans (congrArg (fun v : State => v.modEp k (·.advance)) (hv.trans hu))
      simp only [passed, hr, hwrite, Bool.true_and]
      cases teSuppress x.entry && st == .success with
      | true => exact hpass _ (by simp)
      | false =>
        cases s.canWrite e.inst with
        | true => exact hpass _ (by simp)
        | false => exact (u.undispatched_postWait e.inst w).trans hu
    simp only [State.completeAt, hep, hcur, hhalt]
    cases x.item <;> exact hend _ _ (by simp [t, hr, Ep.completed]) rfl

/-- With nothing in progress nothing completes. -/
theorem State.completeAt_none (s : State) {k : Nat} (st : Status) (stamp : Nat) (h : (s.ep k).bind (·.cur) = none) :
    s.completeAt k st stamp = s := by
  unfold State.completeAt
  split
  · rfl
  · next e he =>
    rw [he] at h
    split
    · rfl
    · next x hx => exact absurd (hx.symm.trans h) (by simp)

@[simp] theorem State.core_completeAt (s : State) (k : Nat) (st : Status) (stamp : Nat) : (s.completeAt k st stamp).core = s.core := by
  cases hc : (s.ep k).bind (·.cur) with
  | none => rw [s.completeAt_none st stamp hc]
  | some x =>
    obtain ⟨e, hep, hcur⟩ := Option.bind_eq_some_iff.1 hc
    rw [State.core_of_undispatched (s.completeAt_eq st stamp hep hcur)]
    split <;> rfl

/-- The context of the endpoint whose entry completes, and those of the others. -/
theorem State.ep_completeAt (s : State) {k : Nat} {e : Ep} {x : Xfer} (st : Status) (stamp : Nat) (hep : s.ep k = some e)
    (hcur : e.cur = some x) (j : Nat) : (s.completeAt k st stamp).ep j =
      if j = k then some (e.completed x.bytes (s.reports e.inst)
        (s.reports e.inst && (teSuppress x.entry && st == .success || s.canWrite e.inst))) else s.ep j := by
  have heps := State.eps_of_undispatched (s.completeAt_eq st stamp hep hcur)
  rw [State.ep, heps, ← State.ep]
  cases s.reports e.inst && (teSuppress x.entry && st == .success || s.canWrite e.inst) with
  | true =>
    rw [if_pos rfl, State.modEp_ep, State.setEp_ep, State.setEp_ep, if_pos rfl]
    split <;> rfl
  | false => exact State.setEp_ep ..

/-- What a completion leaves of a context: all but the entry in progress, its count of bytes and the head of the ring. -/
theorem Ep.completed_eq (e : Ep) (n : Nat) (counted passed : Bool) : ∃ b h,
    e.completed n counted passed = { e with cur := none, bytesDone := b, trHead := h } := by
  cases passed <;> exact ⟨_, _, rfl⟩

/-- After a completion its endpoint has nothing in progress. -/
theorem State.ep_completeAt_self (s : State) {k : Nat} {e : Ep} (st : Status) (stamp : Nat) (hep : s.ep k = some e) : ∃ b h,
    (s.completeAt k st stamp).ep k = some { e with cur := none, bytesDone := b, trHead := h } := by
  cases hcur : e.cur with
  | none =>
    rw [s.completeAt_none st stamp (by simp [hep, hcur]), hep]
    exact ⟨e.bytesDone, e.trHead, by rw [← hcur]⟩
  | some x =>
    obtain ⟨b, h, hb⟩ := e.completed_eq x.bytes (s.reports e.inst)
      (s.reports e.inst && (teSuppress x.entry && st == .success || s.canWrite e.inst))
    exact ⟨b, h, by rw [s.ep_completeAt st stamp hep hcur, if_pos rfl, hb]⟩

/-- A completion at one endpoint leaves the others as they were. -/
theorem State.ep_completeAt_ne (s : State) {k j : Nat} (st : Status) (stamp : Nat) (hj : j ≠ k) :
    (s.completeAt k st stamp).ep j = s.ep j := by
  cases hc : (s.ep k).bind (·.cur) with
  | none => rw [s.completeAt_none st stamp hc]
  | some x =>
    obtain ⟨e, hep, hcur⟩ := Option.bind_eq_some_iff.1 hc
    rw [s.ep_completeAt st stamp hep hcur, if_neg hj]

/-! ### Commits -/

theorem State.core_commits (s : State) (l : KMap Commit) : ({ s with commits := l } : State).core = s.core := rfl

/-- The endpoints of a commit are bound to it no more (R195). -/
def State.unbind (s : State) (n : Nat) (c : Commit) : State :=
  s.each c.slots fun s x => s.modEp x.ep fun e => { e with commitRef := if fld e.commitRef 30 23 = n then 0 else e.commitRef }

/-- The end of a commit, but for its event. -/
theorem State.bare_endCommit (s : State) (n : Nat) (c : Commit) (st : Status) :
    (s.endCommit n c st).bare = State.bare { s.unbind n c with commits := kdel (s.unbind n c).commits n } := by
  unfold State.endCommit State.post
  exact State.bare_postWait ..

@[simp] theorem State.core_unbind (s : State) (n : Nat) (c : Commit) : (s.unbind n c).core = s.core := by
  unfold State.unbind
  apply State.core_each
  intro t x
  exact t.core_modEp x.ep _

@[simp] theorem State.core_endCommit (s : State) (n : Nat) (c : Commit) (st : Status) : (s.endCommit n c st).core = s.core := by
  rw [State.core_of_bare (s.bare_endCommit n c st), State.core_commits, State.core_unbind]

@[simp] theorem State.core_putCommit (s : State) (n : Nat) (c : Commit) : (s.putCommit n c).core = s.core := by
  unfold State.putCommit
  dsimp only
  split
  · rw [State.core_endCommit]
    rfl
  · rfl

@[simp] theorem State.core_endSlot (s : State) (k : Nat) (st : Status) : (s.endSlot k st).core = s.core := by
  unfold State.endSlot
  split <;> simp

@[simp] theorem State.core_markSent (s : State) (k : Nat) : (s.markSent k).core = s.core := by
  unfold State.markSent
  split <;> rfl

/-- A context but for the commit that it is bound to. -/
def Ep.unbound (e : Ep) : Ep := { e with commitRef := 0 }

/-- The contexts but for the commits that they are bound to. -/
def State.unbound (s : State) (j : Nat) : Option Ep := (s.ep j).map Ep.unbound

theorem State.unbound_of_eps {s t : State} (h : t.eps = s.eps) : t.unbound = s.unbound := by
  funext j
  simp only [State.unbound, State.ep, h]

theorem State.unbound_modEp_commitRef (s : State) (k : Nat) (f : Ep → BitVec 32) :
    (s.modEp k fun e => { e with commitRef := f e }).unbound = s.unbound := by
  funext j
  rw [State.unbound, State.modEp_ep]
  split
  · next h => rw [h, Option.map_map]; rfl
  · rfl

/-- A context that agrees but for its commit. -/
theorem State.ep_of_unbound {s t : State} (h : t.unbound = s.unbound) {k : Nat} {e : Ep} (he : s.ep k = some e) :
    ∃ c, t.ep k = some { e with commitRef := c } := by
  have hk : (t.ep k).map Ep.unbound = (s.ep k).map Ep.unbound := congrFun h k
  rw [he, Option.map_some, Option.map_eq_some_iff] at hk
  obtain ⟨e', he', hu⟩ := hk
  refine ⟨e'.commitRef, he'.trans (congrArg some ?_)⟩
  have hu' := congrArg (fun x : Ep => { x with commitRef := e'.commitRef }) hu
  exact hu'

theorem State.unbound_endCommit (s : State) (n : Nat) (c : Commit) (st : Status) : (s.endCommit n c st).unbound = s.unbound := by
  rw [State.unbound_of_eps (State.eps_of_bare (s.bare_endCommit n c st))]
  exact State.each_keeps State.unbound (fun t x => t.unbound_modEp_commitRef x.ep _) c.slots s

theorem State.unbound_putCommit (s : State) (n : Nat) (c : Commit) : (s.putCommit n c).unbound = s.unbound := by
  unfold State.putCommit
  dsimp only
  split
  · exact (State.unbound_endCommit ..).trans (State.unbound_of_eps rfl)
  · exact State.unbound_of_eps rfl

/-- The end of a commit's slot unbinds endpoints from the commit at most. -/
theorem State.unbound_endSlot (s : State) (k : Nat) (st : Status) : (s.endSlot k st).unbound = s.unbound := by
  unfold State.endSlot
  split
  · rfl
  · exact State.unbound_putCommit ..

end Sys2Proof.Machine
end

section
/-! Outcomes (O52). -/
namespace Sys2Proof.Machine

variable {s : State}

/-! ### Halts -/

/-- Deliveries of endpoint `x` are still to be made. -/
def State.delivers (s : State) (x : Nat) : Bool := s.deliveries.any (·.ep == x)

/-- An entry ends now unless deliveries of its endpoint are still to be made (R16, R44). -/
theorem State.ep_completeAfter {x : Nat} {e : Ep} (st : Status) (he : s.ep x = some e) : ∃ b h,
    (s.completeAfter x st).ep x = some { e with cur := if s.delivers x then e.cur else none, bytesDone := b, trHead := h } := by
  unfold State.completeAfter
  split
  next hstays =>
    refine ⟨e.bytesDone, e.trHead, he.trans ?_⟩
    rw [he] at hstays
    rcases Bool.or_eq_true_iff.1 hstays with hend | hnone
    · have hd : s.delivers x = true := by
        obtain ⟨d, hd, hx⟩ := List.any_eq_true.1 hend
        exact List.any_eq_true.2 ⟨d, hd, (Bool.and_eq_true_iff.1 hx).1⟩
      rw [if_pos hd]
    · have hcur : e.cur = none := Option.isNone_iff_eq_none.1 hnone
      rw [hcur, ite_self, ← hcur]
  next =>
    split
    next hd => exact ⟨e.bytesDone, e.trHead, by rw [State.delivers, if_pos hd]; exact he⟩
    next hd =>
      obtain ⟨b, h, hb⟩ := s.ep_completeAt_self st s.stamp he
      exact ⟨b, h, by rw [State.delivers, if_neg hd]; exact hb⟩

/-- A halt with its count, before its slot and its entry end. -/
def State.haltCounted (s : State) (x : Nat) (e : Ep) : State :=
  (s.modEp x fun e => { e with st := .halted }).count { cls := 0x06, inst := some e.inst, port := (s.epPort e).map (·.val) }

theorem State.haltEp_eq {x : Nat} {e : Ep} (st : Status) (he : s.ep x = some e) :
    s.haltEp x st = ((s.haltCounted x e).endSlot x st).completeAfter x st := by
  simp only [State.haltEp, he]
  rfl

theorem State.bare_haltCounted (s : State) (x : Nat) (e : Ep) :
    (s.haltCounted x e).bare = (s.modEp x fun e => { e with st := .halted }).bare := State.bare_count _ _

theorem State.core_haltCounted (s : State) (x : Nat) (e : Ep) : (s.haltCounted x e).core = s.core :=
  (State.core_of_bare (s.bare_haltCounted x e)).trans (s.core_modEp x _)

/-- What a halt leaves of a context (R44, R46, R53). -/
theorem State.ep_haltEp {x : Nat} {e : Ep} (st : Status) (he : s.ep x = some e) : ∃ b h c,
    (s.haltEp x st).ep x = some { e with
      st := .halted, cur := if s.delivers x then e.cur else none, bytesDone := b, trHead := h, commitRef := c } := by
  have hcounted : (s.haltCounted x e).ep x = some { e with st := .halted } := by
    rw [State.ep, State.eps_of_bare (s.bare_haltCounted x e), ← State.ep, State.modEp_ep, if_pos rfl, he]
    rfl
  obtain ⟨c, hc⟩ := State.ep_of_unbound ((s.haltCounted x e).unbound_endSlot x st) hcounted
  obtain ⟨b, h, hb⟩ := State.ep_completeAfter st hc
  have hd : ((s.haltCounted x e).endSlot x st).delivers x = s.delivers x := by
    rw [State.delivers, State.deliveries_of_core (State.core_endSlot _ x st), State.deliveries_of_core (s.core_haltCounted x e)]
    rfl
  rw [hd] at hb
  exact ⟨b, h, c, by rw [State.haltEp_eq st he, hb]⟩

/-- The last of the deliveries of an endpoint takes the end of its entry (R16). -/
theorem endLast_of_last {x : Nat} {d : Delivery} {l l' : List Delivery} (st : Status) (hd : d.ep = x) (hlast : ∀ y ∈ l', y.ep ≠ x)
    (hid : ∀ y ∈ l ++ l', y.id ≠ d.id) : endLast x st (l ++ d :: l') = l ++ { d with fin := some st } :: l' := by
  have hnone : l'.filter (fun y => y.ep == x) = [] := List.filter_eq_nil_iff.2 fun y hy => by simpa using hlast y hy
  have hfilter : ((l ++ d :: l').filter fun y => y.ep == x).getLast? = some d := by
    rw [List.filter_append, List.filter_cons_of_pos (by simp [hd]), hnone, List.getLast?_append]
    rfl
  have hkeep (m : List Delivery) (hm : ∀ y ∈ m, y.id ≠ d.id) :
      m.map (fun y => if y.id = d.id then { y with fin := some st } else y) = m :=
    (List.map_congr_left fun y hy => if_neg (hm y hy)).trans (List.map_id m)
  simp only [endLast, hfilter, List.map_append, List.map_cons, if_true]
  rw [hkeep l fun y hy => hid y (List.mem_append_left _ hy), hkeep l' fun y hy => hid y (List.mem_append_right _ hy)]

theorem State.endSlot_of_commitOf_none {x : Nat} (st : Status) (h : s.commitOf x = none) : s.endSlot x st = s := by
  rw [State.endSlot, h]

/-- A halt with deliveries still to be made leaves the end of its entry to the last of them (R16, R44). -/
theorem State.deliveries_haltEp {x : Nat} {e : Ep} {d : Delivery} {l l' : List Delivery} (st : Status) (he : s.ep x = some e)
    (hs : s.deliveries = l ++ d :: l') (hd : d.ep = x) (hfin : ∀ y ∈ s.deliveries, y.ep = x → y.fin = none)
    (hcur : e.cur.isSome = true) (hc : s.commitOf x = none) : (s.haltEp x st).deliveries = endLast x st s.deliveries := by
  have hcommits : (s.haltCounted x e).commitOf x = none := by
    rw [State.commitOf, State.commits_of_undispatched (State.undispatched_of_bare (s.bare_haltCounted x e))]
    exact hc
  have hdel : (s.haltCounted x e).deliveries = s.deliveries := State.deliveries_of_core (s.core_haltCounted x e)
  have hending : (s.haltCounted x e).ending x = false := by
    rw [State.ending, hdel]
    exact List.any_eq_false.2 fun y hy => by
      by_cases hx : y.ep = x <;> simp [hx, hfin y hy]
  have hany : (s.deliveries.any fun y => y.ep == x) = true := List.any_eq_true.2 ⟨d, by simp [hs], by simp [hd]⟩
  have hcur' : ((s.haltCounted x e).ep x).bind (·.cur) = e.cur := by
    rw [State.ep, State.eps_of_bare (s.bare_haltCounted x e), ← State.ep, State.modEp_ep, if_pos rfl, he]
    rfl
  have hgoes : ¬ (((s.haltCounted x e).ending x || (((s.haltCounted x e).ep x).bind (·.cur)).isNone) = true) := by
    rw [hending, hcur', Bool.false_or, Option.isNone_iff_eq_none]
    intro h
    simp [h] at hcur
  rw [State.haltEp_eq st he, State.endSlot_of_commitOf_none st hcommits, State.completeAfter, if_neg hgoes, hdel, if_pos hany]

/-! ### Counts -/

/-- Whether an endpoint serves an egress payload does not turn on counts, and is no report. -/
theorem State.egressActive_of_bare {t u : State} (h : t.bare = u.bare) (y : Nat) : t.egressActive y = u.egressActive y := by
  have hbare (v : State) : v.bare.egressActive y = v.egressActive y := by
    have hinst : v.bare.inst 0 = (v.inst 0).bare := vget_map ..
    simp only [State.egressActive, State.activeEntry, hinst]
    rfl
  rw [← hbare t, h, hbare u]

theorem State.egressActive_setTally (x y : Nat) (t : Tally) : (s.modEp x (·.setTally t)).egressActive y = s.egressActive y := by
  have hentry (z : EgrEntry) : (s.modEp x (·.setTally t)).activeEntry z = s.activeEntry z := by
    have hctx : (s.modEp x (·.setTally t)).ep (z.ep + (s.inst 0).epBase) =
        (s.ep (z.ep + (s.inst 0).epBase)).map fun e => if z.ep + (s.inst 0).epBase = x then e.setTally t else e := by
      rw [State.modEp_ep]
      split
      next hx => rw [hx]
      next => exact Option.map_id'.symm
    have hinst : (s.modEp x (·.setTally t)).inst 0 = s.inst 0 := rfl
    simp only [State.activeEntry, hinst, hctx]
    cases s.ep (z.ep + (s.inst 0).epBase) with
    | none => rfl
    | some e =>
      simp only [Option.map_some]
      split <;> rfl
  simp only [State.egressActive, funext hentry]
  rfl

/-- Endpoint `x` with an outcome counted, before what the outcome brings. -/
def State.tallied (s : State) (x : Nat) (p : PortNo) (k : TrowelNo) (o : RoundEnd) (e : Ep) : State :=
  let T := e.tally.after e.retryLimit o
  let s := s.modEp x (·.setTally T.1)
  let s := if T.2 then s.count { cls := 0x05, inst := some e.inst, port := some p.val, trowel := some k.val } else s
  if s.egressActive x && (o == .silence || o == .corrupt) then
    s.record 0x11 ([BitVec.ofNat 8 p.val, if o == .silence then 1 else 2, 0, 0] ++ leBytes 4 (s.localIx e x))
  else s

/-- What an outcome brings once it is counted as `T` (R44, R46, R53), unless the endpoint serves an egress payload. -/
def State.outcomeEnd (u : State) (x : Nat) (e : Ep) (T : Tally × Bool) (egress : Bool) (o : RoundEnd) : State :=
  match o with
  | .answered => u
  | .stall => if e.kind == .control then u.completeAfter x .stalled else u.haltEp x .stalled
  | .babble => u.haltEp x .babble
  | _ => if e.errThreshold ≤ T.1.err && !egress && (o == .silence || T.2) then u.haltEp x T.1.haltStatus else u

theorem State.epOutcome_eq (s : State) {x : Nat} {e : Ep} (p : PortNo) (k : TrowelNo) (o : RoundEnd) (he : s.ep x = some e) :
    s.epOutcome x p k o = (s.tallied x p k o e).outcomeEnd x e (e.tally.after e.retryLimit o) (s.egressActive x) o := by
  have hegress (b : Bool) (occ : Occ) : State.egressActive
      (if b then (s.modEp x (·.setTally (e.tally.after e.retryLimit o).1)).count occ
        else s.modEp x (·.setTally (e.tally.after e.retryLimit o).1)) x = s.egressActive x := by
    rw [← s.egressActive_setTally x x (e.tally.after e.retryLimit o).1]
    cases b
    · rfl
    · exact State.egressActive_of_bare (State.bare_count _ _) x
  simp only [State.epOutcome, he, hegress, State.tallied]
  cases o <;> rfl

/-- The count of an outcome changes the context of its endpoint alone, beside the snag log and what is reported. -/
theorem State.core_tallied (s : State) (x : Nat) (p : PortNo) (k : TrowelNo) (o : RoundEnd) (e : Ep) :
    (s.tallied x p k o e).core = s.core := by
  unfold State.tallied
  dsimp only
  split <;> split <;> simp

theorem State.ep_tallied (s : State) {x : Nat} {e : Ep} (p : PortNo) (k : TrowelNo) (o : RoundEnd) (he : s.ep x = some e) :
    (s.tallied x p k o e).ep x = some (e.setTally (e.tally.after e.retryLimit o).1) := by
  have heps : (s.tallied x p k o e).eps = (s.modEp x (·.setTally (e.tally.after e.retryLimit o).1)).eps := by
    have hcount (u : State) (occ : Occ) : (u.count occ).eps = u.eps := State.eps_of_bare (u.bare_count occ)
    have hrecord (u : State) (c : BitVec 8) (d : List Byte) : (u.record c d).eps = u.eps := rfl
    unfold State.tallied
    dsimp only
    split <;> split <;> simp [hcount, hrecord]
  rw [State.ep, heps, ← State.ep, State.modEp_ep, if_pos rfl, he]
  rfl

theorem State.delivers_tallied (s : State) (x : Nat) (p : PortNo) (k : TrowelNo) (o : RoundEnd) (e : Ep) :
    (s.tallied x p k o e).delivers x = s.delivers x := by
  rw [State.delivers, State.deliveries_of_core (s.core_tallied x p k o e)]
  rfl

/-- A halt that follows the count of an outcome. -/
theorem State.ep_haltEp_tallied (s : State) {x : Nat} {e : Ep} (p : PortNo) (k : TrowelNo) (o : RoundEnd) (st : Status)
    (he : s.ep x = some e) : ∃ b h c, ((s.tallied x p k o e).haltEp x st).ep x = some { e.setTally (e.tally.after e.retryLimit o).1 with
      st := .halted, cur := if s.delivers x then e.cur else none, bytesDone := b, trHead := h, commitRef := c } := by
  rw [← s.delivers_tallied x p k o e]
  exact State.ep_haltEp st (s.ep_tallied p k o he)

/-- Settles O52: each outcome is its count, then the halt or the end of the entry that the count brings. -/
theorem outcomes : Obligations.Outcomes := by
  intro s x p k o e he halted
  have hlast (d : Delivery) (l l' : List Delivery) (hs : s.deliveries = l ++ d :: l') (hd : d.ep = x) (hl' : ∀ y ∈ l', y.ep ≠ x)
      (hfin : ∀ y ∈ s.deliveries, y.ep = x → y.fin = none) (hid : ∀ y ∈ l ++ l', y.id ≠ d.id) (hcur : e.cur.isSome = true)
      (hc : s.commitOf x = none) : (s.haltEp x .stalled).deliveries = l ++ { d with fin := some .stalled } :: l' := by
    rw [State.deliveries_haltEp .stalled he hs hd hfin hcur hc, hs, endLast_of_last .stalled hd hl' hid]
  have hep := s.ep_tallied p k o he
  have hhalt := fun st => s.ep_haltEp_tallied p k o st he
  have hhalted (y : Ep) (hst : y.st = .halted) (hcur : y.cur = if s.delivers x then e.cur else none) : halted y := by
    refine ⟨hst, ?_⟩
    rw [hcur, State.delivers]
    split <;> rfl
  rw [s.epOutcome_eq p k o he]
  unfold State.outcomeEnd
  cases o with
  | answered => exact ⟨_, hep, fun _ => rfl, nofun, nofun, nofun, nofun, nofun, hlast⟩
  | silence =>
    have herr : (e.tally.after e.retryLimit .silence).1.err = min 7 (e.errCount + 1) := rfl
    simp only [herr, beq_self_eq_true, Bool.true_or, Bool.and_true]
    split
    next hdo =>
      obtain ⟨b, h, c, hb⟩ := hhalt (e.tally.after e.retryLimit .silence).1.haltStatus
      obtain ⟨hle, hact⟩ : e.errThreshold ≤ min 7 (e.errCount + 1) ∧ s.egressActive x = false := by simpa using hdo
      have hnot : ¬ (min 7 (e.errCount + 1) < e.errThreshold ∨ s.egressActive x = true) := by
        rw [hact, not_or]
        exact ⟨Nat.not_lt.2 hle, Bool.false_ne_true⟩
      exact ⟨_, hb, nofun, fun _ => ⟨rfl, rfl, rfl, fun _ _ => hhalted _ rfl rfl, fun h => absurd h hnot⟩, nofun, nofun, nofun, nofun, hlast⟩
    next hdo =>
      have hnot (hle : e.errThreshold ≤ min 7 (e.errCount + 1)) (hact : s.egressActive x = false) : False := hdo (by simp [hact]; omega)
      exact ⟨_, hep, nofun, fun _ => ⟨rfl, rfl, rfl, fun hle hact => (hnot hle hact).elim, fun _ => ⟨rfl, rfl⟩⟩, nofun, nofun, nofun, nofun,
        hlast⟩
  | corrupt =>
    by_cases hlimit : e.retryLimit < e.retryCount + 1
    · have hT : e.tally.after e.retryLimit .corrupt = (⟨min 7 (e.errCount + 1), 0, 0, false⟩, true) := if_pos hlimit
      rw [hT] at hep hhalt ⊢
      simp only [Bool.or_true, Bool.and_true]
      split
      next hdo =>
        obtain ⟨b, h, c, hb⟩ := hhalt (Tally.haltStatus ⟨min 7 (e.errCount + 1), 0, 0, false⟩)
        exact ⟨_, hb, nofun, nofun, fun _ hle => absurd hlimit (Nat.not_lt.2 hle), fun _ _ => ⟨rfl, rfl, fun _ _ => hhalted _ rfl rfl⟩, nofun,
          nofun, hlast⟩
      next hdo =>
        have hnot (hle : e.errThreshold ≤ min 7 (e.errCount + 1)) (hact : s.egressActive x = false) : False := hdo (by simp [hact]; omega)
        exact ⟨_, hep, nofun, nofun, fun _ hle => absurd hlimit (Nat.not_lt.2 hle),
          fun _ _ => ⟨rfl, rfl, fun hle hact => (hnot hle hact).elim⟩, nofun, nofun, hlast⟩
    · have hT : e.tally.after e.retryLimit .corrupt = (⟨e.errCount, e.retryCount + 1, 0, e.lastSilence⟩, false) := if_neg hlimit
      rw [hT] at hep ⊢
      have hcorrupt : (RoundEnd.corrupt == RoundEnd.silence) = false := rfl
      simp only [hcorrupt, Bool.or_false, Bool.and_false, Bool.false_eq_true, if_false]
      exact ⟨_, hep, nofun, nofun, fun _ _ => ⟨rfl, rfl, rfl, rfl⟩, fun _ h => absurd h hlimit, nofun, nofun, hlast⟩
  | stall =>
    have hcur (y : Ep) (hy : y.cur = if s.delivers x then e.cur else none) (hno : ∀ d ∈ s.deliveries, d.ep ≠ x) : y.cur = none := by
      rw [hy, if_neg]
      rw [State.delivers, List.any_eq_true]
      rintro ⟨d, hd, hx⟩
      exact hno d hd (by simpa using hx)
    dsimp only
    by_cases hk : e.kind = .control
    · rw [if_pos (by simp [hk])]
      obtain ⟨b, h, hb⟩ := State.ep_completeAfter .stalled hep
      rw [s.delivers_tallied] at hb
      exact ⟨_, hb, nofun, nofun, nofun, nofun, fun _ => ⟨hcur _ rfl, rfl, by rw [if_pos hk]; rfl⟩, nofun, hlast⟩
    · rw [if_neg (by simp [hk])]
      obtain ⟨b, h, c, hb⟩ := hhalt .stalled
      exact ⟨_, hb, nofun, nofun, nofun, nofun, fun _ => ⟨hcur _ rfl, rfl, by rw [if_neg hk]⟩, nofun, hlast⟩
  | babble =>
    obtain ⟨b, h, c, hb⟩ := hhalt .babble
    exact ⟨_, hb, nofun, nofun, nofun, nofun, nofun, fun _ => ⟨hhalted _ rfl rfl, rfl⟩, hlast⟩

end Sys2Proof.Machine
end

section
/-!
SUPPORT. What has left the block stays (log 6): reporting adds to `out` and takes nothing from it.
-/
namespace Sys2Proof.Machine

/-- All that had left the block at `s` has left it at `t`. -/
def State.Adds (s t : State) : Prop := s.out <:+ t.out

theorem State.Adds.refl (s : State) : s.Adds s := List.suffix_refl _

theorem State.Adds.of_eq {s t : State} (h : t.out = s.out) : s.Adds t := ⟨[], h.symm⟩

theorem State.Adds.trans {s t u : State} (h : s.Adds t) (h' : t.Adds u) : s.Adds u := List.IsSuffix.trans h h'

theorem State.Adds.mem {s t : State} (h : s.Adds t) {o : Out} (ho : o ∈ s.out) : o ∈ t.out := h.subset ho

theorem State.Adds.ite {c : Prop} [Decidable c] {s t u : State} (ht : s.Adds t) (hu : s.Adds u) : s.Adds (if c then t else u) := by
  split
  · exact ht
  · exact hu

theorem State.Adds.each {α : Type} {f : State → α → State} (h : ∀ t a, State.Adds t (f t a)) (l : List α) (s : State) :
    s.Adds (s.each l f) := by
  induction l generalizing s with
  | nil => exact .refl s
  | cons a l ih => exact (h s a).trans (ih (f s a))

variable (s : State)

theorem State.adds_emit (o : Out) : s.Adds (s.emit o) := List.suffix_cons _ _

theorem State.adds_modInst (i : InstNo) (f : Inst → Inst) : s.Adds (s.modInst i f) := .of_eq rfl
theorem State.adds_modRing (i : InstNo) (e : RingNo) (f : EvtRing → EvtRing) : s.Adds (s.modRing i e f) := .of_eq rfl
theorem State.adds_modPw (f : Power → Power) : s.Adds (s.modPw f) := .of_eq rfl

/-- A count is no output. -/
theorem State.out_count (o : Occ) : (s.count o).out = s.out := by
  unfold State.count State.countInst
  split
  · rfl
  · split <;> rfl

theorem State.adds_count (o : Occ) : s.Adds (s.count o) := .of_eq (s.out_count o)

theorem State.adds_lineBytes (p : PortNo) (k : TrowelNo) (i : Option InstNo) (len : Nat) (inward : Bool) :
    s.Adds (s.lineBytes p k i len inward) := by
  unfold State.lineBytes
  exact .ite (.of_eq (s.out_count _)) (s.adds_count _)

theorem State.adds_countHawk (i : InstNo) (off len : Nat) (t c : Option Nat) : s.Adds (s.countHawk i off len t c) :=
  .ite (.refl s) (.each (fun u _ => u.adds_count _) _ s)

/-! ### Host memory -/

theorem State.adds_ownWrite (addr : Nat) (bs : List Byte) : s.Adds (s.ownWrite addr bs) :=
  .ite ((s.adds_emit _).trans (State.adds_count _ _)) (.ite (.refl s) (.of_eq rfl))

theorem State.adds_logDirty (i : InstNo) (addr len : Nat) : s.Adds (s.logDirty i addr len) := by
  unfold State.logDirty
  split
  · exact .refl s
  · dsimp only
    refine (s.adds_modInst i _).trans (.each (fun t q => ?_) _ _)
    split
    · exact .refl t
    · exact .ite (.refl t) ((t.adds_modInst i _).trans (State.adds_ownWrite _ _ _))

theorem State.adds_hostWriteBy (i : InstNo) (addr : Nat) (bs : List Byte) (t c : Option Nat) : s.Adds (s.hostWriteBy i addr bs t c) :=
  (s.adds_emit _).trans ((State.adds_logDirty _ _ _ _).trans (State.adds_count _ _))

theorem State.adds_hostWrite (i : InstNo) (addr : Nat) (bs : List Byte) : s.Adds (s.hostWrite i addr bs) :=
  s.adds_hostWriteBy i addr bs none none

theorem State.adds_hostRead (i : InstNo) (addr len : Nat) (t c : Option Nat) : s.Adds (s.hostRead i addr len t c) :=
  (s.adds_emit _).trans (State.adds_count _ _)

/-! ### Messages and events -/

theorem State.adds_sendMsg (i : InstNo) (v : Nat) : s.Adds (s.sendMsg i v) := by
  unfold State.sendMsg
  refine .ite (.refl s) (.ite (.of_eq rfl) ?_)
  split
  · exact (s.adds_emit _).trans (State.adds_count _ _)
  · exact .ite (s.adds_modPw _) ((s.adds_modPw _).trans (State.adds_emit _ _))

theorem State.adds_writeMirror (i : InstNo) (e : RingNo) : s.Adds (s.writeMirror i e) :=
  (s.adds_hostWrite i _ _).trans (State.adds_modRing _ i e _)

theorem State.adds_fireRing (i : InstNo) (e : RingNo) : s.Adds (s.fireRing i e) :=
  (State.Adds.ite (s.adds_writeMirror i e) (.refl s)).trans ((State.adds_sendMsg _ _ _).trans (State.adds_modRing _ i e _))

theorem State.adds_storeEvent (i : InstNo) (e : RingNo) (ev : Event) (own : Bool) : s.Adds (s.storeEvent i e ev own) := by
  unfold State.storeEvent
  exact (s.adds_hostWrite i _ _).trans ((State.adds_modRing _ i e _).trans (State.adds_count _ _))

/-- The message of an event on a vector of its own, after the mirror if it is due (R113, R278, R298). -/
theorem State.adds_vecMsg (i : InstNo) (e : RingNo) (v : Nat) :
    s.Adds ((if (s.ring i e).mirrorDue then s.writeMirror i e else s).sendMsg i v) :=
  (State.Adds.ite (s.adds_writeMirror i e) (.refl s)).trans (State.adds_sendMsg _ _ _)

theorem State.adds_putEvent (i : InstNo) (e : RingNo) (ev : Event) (b : Bool) (v : Option Nat) : s.Adds (s.putEvent i e ev b v) := by
  have hfire (u : State) : u.Adds (if !ownMessage ev v && (u.ring i e).fires b then u.fireRing i e else u) :=
    .ite (u.adds_fireRing i e) (.refl u)
  unfold State.putEvent
  refine (s.adds_storeEvent i e ev (ownMessage ev v)).trans ?_
  cases v with
  | none => exact hfire _
  | some v => exact (State.adds_vecMsg _ i e v).trans (hfire _)

theorem adds_drainRing (n : Nat) (i : InstNo) (e : RingNo) (s : State) : s.Adds (drainRing n s i e) := by
  induction n generalizing s with
  | zero => exact .refl s
  | succ n ih =>
    unfold drainRing
    split
    · exact .refl s
    · exact .ite ((s.adds_modInst i _).trans ((State.adds_putEvent _ _ _ _ _ _).trans (ih _))) (.refl s)

theorem State.adds_settle (i : InstNo) (e : RingNo) : s.Adds (s.settle i e) := by
  unfold State.settle
  dsimp only
  refine State.Adds.trans ?_ (.ite (State.adds_modRing _ i e _) (.refl _))
  refine State.Adds.trans ?_ (adds_drainRing _ i e _)
  exact .ite ((s.adds_modInst i _).trans (State.adds_modRing _ i e _)) (.refl s)

theorem State.adds_unsolicited (i : InstNo) (e : RingNo) (src : UnsolSrc) (ev : Event) : s.Adds (s.unsolicited i e src ev) :=
  (s.adds_modInst i _).trans (State.adds_settle _ i e)

theorem State.adds_postPort (p : PortNo) : s.Adds (s.postPort p) := s.adds_unsolicited _ _ _ _

theorem State.adds_postWait (i : InstNo) (w : WaitEvt) : s.Adds (s.postWait i w) := by
  unfold State.postWait
  refine .ite ((s.adds_modRing i w.ring _).trans ((State.adds_putEvent _ _ _ _ _ _).trans (State.adds_settle _ _ _)))
    (.ite (s.adds_modRing i w.ring _) ?_)
  exact .ite ((s.adds_modInst i _).trans ((State.adds_modPw _ _).trans (State.adds_emit _ _))) (s.adds_modInst i _)

theorem State.adds_unreserve (i : InstNo) (e : RingNo) : s.Adds (s.unreserve i e) :=
  (s.adds_modRing i e _).trans (State.adds_settle _ i e)

theorem State.adds_post (i : InstNo) (e : RingNo) (ev : Event) (b : Bool) : s.Adds (s.post i e ev b) := s.adds_postWait i _

/-! ### The end of a command -/

theorem State.adds_sendInstCtr (i : InstNo) : s.Adds (s.sendInstCtr i) :=
  .ite ((s.adds_modInst i _).trans (State.adds_sendMsg _ _ _)) (.refl s)

theorem State.adds_sendDevCtr : s.Adds s.sendDevCtr := by
  have hmod (f : Cnt → Cnt) : s.Adds (s.modCnt f) := .of_eq rfl
  exact .ite ((hmod _).trans (State.adds_sendMsg _ _ _)) (.refl s)

theorem State.adds_sendCtr : s.Adds s.sendCtr := s.adds_sendDevCtr.trans (.each State.adds_sendInstCtr _ _)

theorem State.adds_writeRecord (z : Nat) : s.Adds (s.writeRecord z) := by
  unfold State.writeRecord
  dsimp only
  split <;> exact s.adds_hostWrite _ _ _

theorem State.adds_syncStore : s.Adds s.syncStore := by
  have hwrites (rs ms : List Nat) : s.Adds ((s.each rs State.writeRecord).each ms State.writeMapEntry) :=
    (State.Adds.each State.adds_writeRecord rs s).trans (.each (fun t k => t.adds_hostWrite _ _ _) ms _)
  have hmod (u : State) (f : Mems → Mems) : u.Adds (u.modMem f) := .of_eq rfl
  exact .ite (.refl s) (.ite (hwrites _ _) ((hwrites _ _).trans (hmod _ _)))

/-- A command's end takes nothing back. -/
theorem State.adds_ended : s.Adds s.ended := s.adds_syncStore.trans (State.adds_sendCtr _)

end Sys2Proof.Machine
end

section
/-!
SUPPORT. Contexts in the cache and the objects that reporting leaves alone, for the rounds on a line: the use of a context that is cached, the
count of a line's bytes, a change of a port or of a transaction.
-/
namespace Sys2Proof.Machine

section
variable {s t : State} (h : t.bare = s.bare)
include h

theorem State.ports_of_bare : t.ports = s.ports := (congrArg State.ports h : t.bare.ports = s.bare.ports)
theorem State.port_of_bare (p : PortNo) : t.port p = s.port p := congrArg (vget · p) (State.ports_of_bare h)
theorem State.trowels_of_bare : t.trowels = s.trowels := (congrArg State.trowels h : t.bare.trowels = s.bare.trowels)
theorem State.trowel_of_bare (k : TrowelNo) : t.trowel k = s.trowel k := congrArg (vget · k) (State.trowels_of_bare h)
theorem State.ep_of_bare (k : Nat) : t.ep k = s.ep k := congrArg (kget · k) (State.eps_of_bare h)
theorem State.cache_of_bare : t.mem.cache = s.mem.cache :=
  (congrArg (fun u : State => u.mem.cache) h : t.bare.mem.cache = s.bare.mem.cache)

end

variable (s : State)

/-- A change of a port to what it was is none. -/
theorem State.modPort_eq_self {p : PortNo} {f : Port → Port} (h : f (s.port p) = s.port p) : s.modPort p f = s := by
  have hports : vset s.ports p (s.port p) = s.ports := vset_vget _ _
  simp only [State.modPort, State.setPort, h, hports]

/-! ### The use of a context -/

/-- The state with the cached contexts reordered. -/
def State.withCache (s : State) (m : List Nat) : State := { s with mem := { s.mem with cache := m } }

/-- The use of a context that is cached makes it the most recently used, and nothing more (R102). -/
theorem State.touchOf_of_cached {h : Holder} (hc : s.cachedOf h = true) :
    ∃ m, s.touchOf h = s.withCache m := by
  cases h with
  | ep k =>
    have hk : (!s.mem.bsLock || s.mem.cache.contains k) = true := hc
    by_cases hlock : (!s.mem.bsLock) = true
    · exact ⟨s.mem.cache, if_pos hlock⟩
    · have hin : s.mem.cache.contains k = true := (Bool.or_eq_true_iff.1 hk).resolve_left hlock
      exact ⟨_, (if_neg hlock).trans (if_pos hin)⟩
  | own q => exact ⟨s.mem.cache, rfl⟩
  | hub z => exact ⟨s.mem.cache, rfl⟩

theorem State.withContext_of_cached {h : Holder} (f : State → Answer) (hc : s.cachedOf h = true) : s.withContext h f = f (s.touchOf h) :=
  if_pos hc

theorem State.withContext_of_not_cached {h : Holder} (f : State → Answer) (hc : s.cachedOf h = false) :
    s.withContext h f = .next (s.touchOf h).ended := if_neg (by simp [hc])

/-! ### A round on the line -/

/-- A port whose line carries round `r`. -/
def Port.carrying (x : Port) (r : Round) : Port := { x with gap := none, round := some r }

/-- A round as it begins. -/
def Round.opened (kind : RoundKind) (h : Holder) (k : TrowelNo) (txn : Option Nat) (now n : Nat) (seq : BitVec 5) (sent : Nat)
    (src : PayloadSrc) : Round :=
  { kind := kind, who := h, trowel := k, txn := txn, t0 := now, n := n, s := seq, sent := sent
    got := 0, bad := false, rx := [], eot := false, src := src }

theorem State.beginRound_eq (p : PortNo) (kind : RoundKind) (h : Holder) (k : TrowelNo) (txn : Option Nat) (now n : Nat) (seq : BitVec 5)
    (sent : Nat) (src : PayloadSrc) : s.beginRound p kind h k txn now n seq sent src =
      s.modPort p (·.carrying (.opened kind h k txn now n seq sent src)) := rfl

/-! ### The bytes of a line -/

/-- The payload of a block is counted in the meters of its port alone (R343, R352). -/
theorem State.bare_lineBytes (p : PortNo) (k : TrowelNo) (i : Option InstNo) (len : Nat) (inward : Bool) : ∃ a b,
    (s.lineBytes p k i len inward).bare = (s.modPort p fun x => { x with inAcc := a, outAcc := b }).bare := by
  have hcount (u : State) (o : Occ) (f : Port → Port) : ((u.count o).modPort p f).bare = (u.modPort p f).bare := by
    rw [State.bare_modPort, State.bare_count, ← State.bare_modPort]
  have hself (u : State) : u.bare = (u.modPort p fun x => { x with inAcc := (u.port p).inAcc, outAcc := (u.port p).outAcc }).bare := by
    rw [u.modPort_eq_self rfl]
  unfold State.lineBytes
  dsimp only
  split
  · cases inward with
    | true => exact ⟨_, _, hcount _ _ _⟩
    | false => exact ⟨_, _, hcount _ _ _⟩
  · exact ⟨_, _, (State.bare_count _ _).trans (hself s)⟩

end Sys2Proof.Machine
end

section
/-! Periodic rounds (O49). -/
namespace Sys2Proof.Machine

variable {s : State} {p : PortNo} {now k : Nat} {l : List Holder} {e : Ep} {w : Wire}

/-- A skim whose head gets a round has nothing to leave out (R178). -/
theorem State.trimSkim_of_live {h : Holder} (hskim : (s.port p).skim = h :: l) (hlive : s.listedLive h = true) : s.trimSkim p = s :=
  s.modPort_eq_self (by rw [hskim, List.dropWhile_cons_of_neg (by simp [hlive]), ← hskim])

theorem State.bare_given (s : State) (p : PortNo) (k : Nat) (w : Wire) :
    (s.given p (.ep k) w).bare = (s.modEp k fun e => { e with missRun := false }).bare := by
  simp only [State.given, State.bare_modEp, State.bare_count]

theorem State.markSent_eq (s : State) (k : Nat) : ∃ m, s.markSent k = { s with commits := m } := by
  unfold State.markSent
  split
  · exact ⟨s.commits, rfl⟩
  · exact ⟨_, rfl⟩

/-! ### IN -/

/-- The POLL to endpoint `k` has left and its round has begun (R48), in the state with the head of the skim taken. -/
def State.polled (s : State) (p : PortNo) (k now : Nat) (w : Wire) (e : Ep) : State :=
  ((s.given p (.ep k) w).send p (tokenPacket pidPoll w.addr e.epid e.expectSeq 0)).beginRound p .perIn (.ep k) (s.holderOf p) none now 1
    e.expectSeq 0 .entry

theorem execPeriodicInRound_eq (hf : s.lineFree p now = true) (hskim : (s.port p).skim = .ep k :: l)
    (hlive : s.listedLive (.ep k) = true) (he : s.ep k = some e) (hk : e.kind = .periodic) (hw : s.wire (.ep k) = some w)
    (hi : e.inward = true) (hc : s.cachedOf (.ep k) = true) : execPeriodicInRound p now s =
      let v := (s.touch k).popSkim p
      .next (if v.fitsSkim p w true now then v.polled p k now w e else (v.missed p (.ep k)).overrunAtEnd p).ended := by
  obtain ⟨m, hm⟩ : ∃ m, s.touch k = s.withCache m := s.touchOf_of_cached hc
  have hep : ((s.touch k).popSkim p).ep k = some e := by
    rw [hm]
    exact he
  have hseq : ((s.touch k).popSkim p).expectOf (.ep k) = e.expectSeq := by simp only [State.expectOf, hep, Option.map_some, Option.getD_some]
  have hepid : ((s.touch k).popSkim p).epidOf (.ep k) true = e.epid := by simp [State.epidOf, hep, hk]
  simp only [execPeriodicInRound, hf, State.trimSkim_of_live hskim hlive, hskim, List.head?_cons, he, hw, Option.map_some,
    Option.getD_some, hi, Bool.not_true, Bool.false_eq_true, if_false, State.withContext_of_cached _ _ hc, State.touchOf, hseq, hepid]
  split <;> rfl

theorem State.bare_polled (s : State) (p : PortNo) (k now : Nat) (w : Wire) (e : Ep) : (s.polled p k now w e).bare =
    ((s.modEp k fun e => { e with missRun := false }).modPort p
      (·.carrying (.opened .perIn (.ep k) (s.holderOf p) none now 1 e.expectSeq 0 .entry))).bare := by
  simp only [State.polled, State.beginRound_eq, State.send, State.bare_modPort, State.bare_emit, State.bare_given]

theorem State.polled_port (s : State) (p : PortNo) (k now : Nat) (w : Wire) (e : Ep) (q : PortNo) : (s.polled p k now w e).port q =
    if q = p then (s.port p).carrying (.opened .perIn (.ep k) (s.holderOf p) none now 1 e.expectSeq 0 .entry) else s.port q := by
  rw [State.port_of_bare (s.bare_polled p k now w e), State.modPort_port]
  rfl

theorem State.polled_ep (s : State) (p : PortNo) (k now : Nat) (w : Wire) (e : Ep) :
    (s.polled p k now w e).ep k = (s.ep k).map fun e => { e with missRun := false } := by
  rw [State.ep_of_bare (s.bare_polled p k now w e), State.modPort_ep, State.modEp_ep, if_pos rfl]

theorem State.polled_out (s : State) (p : PortNo) (k now : Nat) (w : Wire) (e : Ep) :
    .packet p (s.port p).speed (tokenPacket pidPoll w.addr e.epid e.expectSeq 0) ∈ (s.polled p k now w e).out := by
  have hport : (s.given p (.ep k) w).port p = s.port p := State.port_of_bare (s.bare_given p k w) p
  rw [← hport]
  exact List.mem_cons_self

/-- The state of the first clause: the round of an IN endpoint whose service fits. -/
theorem periodicIn_fits (hskim : (s.port p).skim = .ep k :: l) (he : s.ep k = some e) (hc : s.cachedOf (.ep k) = true) :
    let t := (((s.touch k).popSkim p).polled p k now w e).ended
    .packet p (s.port p).speed (tokenPacket pidPoll w.addr e.epid e.expectSeq 0) ∈ t.out ∧ t.ep k = some { e with missRun := false } ∧
      (t.port p).skim = l ∧ (∃ r, (t.port p).round = some r ∧ r.kind = .perIn ∧ r.who = .ep k ∧ r.t0 = now ∧ r.n = 1 ∧
        r.s = e.expectSeq ∧ r.got = 0) ∧
      (∀ q, q ≠ p → t.port q = s.port q) ∧
      t.bare = State.bare { s with ports := t.ports, eps := t.eps, mem := { s.mem with cache := t.mem.cache } } := by
  obtain ⟨m, hm⟩ : ∃ m, s.touch k = s.withCache m := s.touchOf_of_cached hc
  rw [hm]
  have hpop (q : PortNo) : ((s.withCache m).popSkim p).port q = if q = p then { s.port p with skim := l } else s.port q := by
    rw [State.popSkim, State.modPort_port]
    have hp : (s.withCache m).port p = s.port p := rfl
    rw [hp, hskim]
    rfl
  generalize hv : (s.withCache m).popSkim p = v at hpop
  have hpoll := v.polled_port p k now w e
  intro t
  have hended (q : PortNo) : t.port q = (v.polled p k now w e).port q := State.port_of_bare (State.bare_ended _) q
  have hp : t.port p = ({ s.port p with skim := l } : Port).carrying
      (.opened .perIn (.ep k) (v.holderOf p) none now 1 e.expectSeq 0 .entry) := by
    rw [hended, hpoll, if_pos rfl, hpop, if_pos rfl]
  have hep : t.ep k = some { e with missRun := false } := by
    rw [State.ep_of_bare (State.bare_ended _), v.polled_ep, ← hv]
    exact congrArg (Option.map _) he
  have hspeed : (v.port p).speed = (s.port p).speed := by rw [hpop, if_pos rfl]
  refine ⟨?_, hep, by rw [hp]; rfl, ⟨_, by rw [hp]; rfl, rfl, rfl, rfl, rfl, rfl, rfl⟩, fun q hq => ?_, ?_⟩
  · rw [← hspeed]
    exact (State.adds_ended _).mem (v.polled_out p k now w e)
  · rw [hended, hpoll, if_neg hq, hpop, if_neg hq]
  · have hbare := (State.bare_ended (v.polled p k now w e)).trans (v.bare_polled p k now w e)
    rw [State.ports_of_bare hbare, State.eps_of_bare hbare, State.cache_of_bare hbare, hbare, ← hv]
    rfl

/-! ### OUT -/

/-- The PUSH to endpoint `k` and its block have left (R50). -/
def State.pushed (s : State) (p : PortNo) (w : Wire) (e : Ep) (hk : TrowelNo) (pay : List Byte) : State :=
  (s.send p (tokenPacket pidPush w.addr e.epid e.nextSeq 0)).sendData p hk w.inst e.nextSeq true true pay

theorem State.pushed_out (s : State) (p : PortNo) (w : Wire) (e : Ep) (hk : TrowelNo) (pay : List Byte) :
    .packet p (s.port p).speed (tokenPacket pidPush w.addr e.epid e.nextSeq 0) ∈ (s.pushed p w e hk pay).out ∧
      .packet p (s.port p).speed (dataPacket e.nextSeq true true pay) ∈ (s.pushed p w e hk pay).out := by
  have hadds := State.adds_lineBytes ((s.send p (tokenPacket pidPush w.addr e.epid e.nextSeq 0)).send p
    (dataPacket e.nextSeq true true pay)) p hk w.inst pay.length false
  exact ⟨hadds.mem (List.mem_cons_of_mem _ List.mem_cons_self), hadds.mem List.mem_cons_self⟩

theorem State.bare_pushed (s : State) (p : PortNo) (w : Wire) (e : Ep) (hk : TrowelNo) (pay : List Byte) : ∃ a b,
    (s.pushed p w e hk pay).bare = (s.modPort p fun x => { x with inAcc := a, outAcc := b }).bare := by
  obtain ⟨a, b, h⟩ := State.bare_lineBytes ((s.send p (tokenPacket pidPush w.addr e.epid e.nextSeq 0)).send p
    (dataPacket e.nextSeq true true pay)) p hk w.inst pay.length false
  exact ⟨a, b, h⟩

/-- An OUT round of endpoint `k` once its block has left, whatever was counted for its payload and whether a slot was marked as sent. -/
theorem periodicOut_begun {v u x : State} {hk : TrowelNo} {pay : List Byte} (r : Round)
    (hu : u.bare = (v.given p (.ep k) w).bare) (hx : x = u.pushed p w e hk pay ∨ x = (u.pushed p w e hk pay).markSent k) :
    let t := (x.modPort p (·.carrying r)).ended
    .packet p (v.port p).speed (tokenPacket pidPush w.addr e.epid e.nextSeq 0) ∈ t.out ∧
      .packet p (v.port p).speed (dataPacket e.nextSeq true true pay) ∈ t.out ∧
      t.ep k = (v.ep k).map (fun e => { e with missRun := false }) ∧ (t.port p).skim = (v.port p).skim ∧ (t.port p).round = some r := by
  intro t
  obtain ⟨m, hx⟩ : ∃ m, x = { u.pushed p w e hk pay with commits := m } :=
    hx.elim (fun h => ⟨(u.pushed p w e hk pay).commits, h⟩) fun h => h ▸ State.markSent_eq _ k
  have hgiven := hu.trans (v.bare_given p k w)
  have hspeed : (u.port p).speed = (v.port p).speed := congrArg Port.speed (State.port_of_bare hgiven p)
  obtain ⟨hpush, hdata⟩ := u.pushed_out p w e hk pay
  obtain ⟨a, b, hbare⟩ := u.bare_pushed p w e hk pay
  have hout : (u.pushed p w e hk pay).Adds t :=
    (State.Adds.of_eq (by rw [hx]; rfl) : (u.pushed p w e hk pay).Adds (x.modPort p (·.carrying r))).trans (State.adds_ended _)
  have hep : t.ep k = (u.pushed p w e hk pay).ep k := (State.ep_of_bare (State.bare_ended _) k).trans (by rw [hx]; rfl)
  have hport : t.port p = ((u.pushed p w e hk pay).port p).carrying r := by
    rw [State.port_of_bare (State.bare_ended _), State.modPort_port, if_pos rfl, hx]
    rfl
  rw [State.ep_of_bare hbare, State.modPort_ep, State.ep_of_bare hgiven, State.modEp_ep, if_pos rfl] at hep
  rw [State.port_of_bare hbare, State.modPort_port, if_pos rfl, State.port_of_bare hgiven] at hport
  rw [← hspeed]
  exact ⟨hout.mem hpush, hout.mem hdata, hep, by rw [hport]; rfl, by rw [hport]; rfl⟩

theorem State.outPayload_popped (s : State) (p : PortNo) (k : Nat) (m : List Nat) : ((s.withCache m).popSkim p).outPayload k = s.outPayload k := rfl

/-- A service fits when it ends within the span (R177). -/
theorem State.fitsSkim_popped (s : State) (p : PortNo) (w : Wire) (inward : Bool) (now : Nat) (m : List Nat) :
    ((s.withCache m).popSkim p).fitsSkim p w inward now =
      decide (now + longestService (s.port p).speed w.tier w.mb inward ≤ spanLimit (s.port p).speed s.pl.subN) := by
  have hspeed : (((s.withCache m).popSkim p).port p).speed = (s.port p).speed := by
    rw [State.popSkim, State.modPort_port, if_pos rfl]
    rfl
  simp only [State.fitsSkim, hspeed]
  rfl

/-- The wire of an endpoint carries blocks of its block size. -/
theorem State.wire_mb (he : s.ep k = some e) (hw : s.wire (.ep k) = some w) : w.mb = e.maxBlock := by
  simp only [State.wire, he, Option.bind_some, Option.map_eq_some_iff] at hw
  obtain ⟨q, -, rfl⟩ := hw
  rfl

theorem execPeriodicOutRound_eq (hf : s.lineFree p now = true) (hskim : (s.port p).skim = .ep k :: l)
    (hlive : s.listedLive (.ep k) = true) (he : s.ep k = some e) (hw : s.wire (.ep k) = some w) (hi : e.inward = false)
    (hc : s.cachedOf (.ep k) = true) (hfit : ((s.touch k).popSkim p).fitsSkim p w false now = true) {pay : List Byte} {src : PayloadSrc}
    (hpay : ((s.touch k).popSkim p).outPayload k = some (pay, src)) :
    let v := (s.touch k).popSkim p
    ∃ u x : State, u.bare = (v.given p (.ep k) w).bare ∧
      (x = u.pushed p w e (v.holderOf p) pay ∨ x = (u.pushed p w e (v.holderOf p) pay).markSent k) ∧
      execPeriodicOutRound p now .ok s =
        .next (x.modPort p (·.carrying (.opened .perOut (.ep k) (v.holderOf p) none now 1 e.nextSeq 1 src))).ended := by
  intro v
  simp only [execPeriodicOutRound, hf, State.trimSkim_of_live hskim hlive, hskim, List.head?_cons, he, hw, hi, Bool.not_true,
    Bool.false_eq_true, if_false, State.withContext_of_cached _ _ hc, State.touchOf, hfit, hpay]
  cases src with
  | egress => exact ⟨v.given p (.ep k) w, _, rfl, .inl rfl, rfl⟩
  | entry => exact ⟨(v.given p (.ep k) w).countHawk e.inst _ _ _ _, _, State.bare_countHawk .., .inl rfl, rfl⟩
  | commit n => exact ⟨(v.given p (.ep k) w).countHawk e.inst _ _ _ _, _, State.bare_countHawk .., .inr rfl, rfl⟩

/-- Settles O49: the head of the skim that gets a round is never trimmed, and its context, where it is cached, is only reordered. -/
theorem periodicRounds : Obligations.PeriodicRounds := by
  intro s p now k l e w hf hskim hlive he hk hw
  refine ⟨fun hc => ⟨fun hi => ?_, fun hi => ?_⟩, fun hc hi => ?_, fun hc hi => ?_⟩
  · simp [exec, execPeriodicInRound, hf, State.trimSkim_of_live hskim hlive, hskim, he, hw, hi, State.withContext_of_not_cached _ _ hc,
      State.touchOf]
  · simp [exec, execPeriodicOutRound, hf, State.trimSkim_of_live hskim hlive, hskim, he, hw, hi, State.withContext_of_not_cached _ _ hc,
      State.touchOf]
  · obtain ⟨m, hm⟩ : ∃ m, s.touch k = s.withCache m := s.touchOf_of_cached hc
    have hfit : ((s.touch k).popSkim p).fitsSkim p w true now =
        decide (now + (27 + e.maxBlock + timeout (s.port p).speed w.tier) ≤ spanLimit (s.port p).speed s.pl.subN) := by
      rw [hm, State.fitsSkim_popped, State.wire_mb he hw]
      rfl
    have hexec : exec (.periodicInRound p now) s = _ := execPeriodicInRound_eq hf hskim hlive he hk hw hi hc
    dsimp only at hexec
    rw [hexec]
    refine ⟨fun h => ?_, fun h => ?_⟩
    · rw [if_pos (by rw [hfit]; exact decide_eq_true (by omega))]
      exact ⟨_, rfl, periodicIn_fits hskim he hc⟩
    · rw [if_neg (by rw [hfit, decide_eq_true_eq]; omega)]
  · obtain ⟨m, hm⟩ : ∃ m, s.touch k = s.withCache m := s.touchOf_of_cached hc
    have hfit : ((s.touch k).popSkim p).fitsSkim p w false now =
        decide (now + (38 + e.maxBlock + timeout (s.port p).speed w.tier) ≤ spanLimit (s.port p).speed s.pl.subN) := by
      rw [hm, State.fitsSkim_popped, State.wire_mb he hw]
      rfl
    have hpay : ((s.touch k).popSkim p).outPayload k = s.outPayload k := by
      rw [hm]
      exact s.outPayload_popped p k m
    refine ⟨fun hnone h => ?_, fun pay src hsome h => ?_, fun h => ?_⟩
    · have hfits := hfit.trans (decide_eq_true (by omega))
      simp [exec, execPeriodicOutRound, hf, State.trimSkim_of_live hskim hlive, hskim, he, hw, hi, State.withContext_of_cached _ _ hc,
        State.touchOf, hfits, hpay, hnone]
    · obtain ⟨u, x, hu, hx, hexec⟩ := execPeriodicOutRound_eq hf hskim hlive he hw hi hc (hfit.trans (decide_eq_true (by omega)))
        (hpay.trans hsome)
      refine ⟨_, hexec, ?_⟩
      obtain ⟨hpush, hdata, hep, hskim', hround⟩ := periodicOut_begun _ hu hx
      have hv : (((s.touch k).popSkim p).port p) = { s.port p with skim := l } := by
        rw [hm, State.popSkim, State.modPort_port, if_pos rfl]
        have hp : (s.withCache m).port p = s.port p := rfl
        rw [hp, hskim]
        rfl
      have hep' : ((s.touch k).popSkim p).ep k = some e := by
        rw [hm]
        exact he
      rw [hv] at hpush hdata hskim'
      rw [hep'] at hep
      exact ⟨hpush, hdata, hep, hskim', _, hround, rfl, rfl, rfl, rfl, rfl, rfl, rfl⟩
    · have hmiss := hfit.trans (decide_eq_false (by omega))
      simp [exec, execPeriodicOutRound, hf, State.trimSkim_of_live hskim hlive, hskim, he, hw, hi, State.withContext_of_cached _ _ hc,
        State.touchOf, hmiss, done_eq_ended]

end Sys2Proof.Machine
end

section
/-! The rounds of bulk and control transactions (O51). -/
namespace Sys2Proof.Machine

variable {s t u : State} {p : PortNo}

/-! ### What the packets of a round leave alone -/

/-- Between `s` and `t` no round has begun or ended, no transaction has moved, and of the ports only meters and times of port `p` may have
changed. -/
structure State.Lined (p : PortNo) (s t : State) : Prop where
  trowels : t.trowels = s.trowels
  others : ∀ q, q ≠ p → t.port q = s.port q
  round : (t.port p).round = (s.port p).round
  speed : (t.port p).speed = (s.port p).speed
  eps : t.eps = s.eps

theorem State.Lined.refl (p : PortNo) (s : State) : State.Lined p s s := ⟨rfl, fun _ _ => rfl, rfl, rfl, rfl⟩

theorem State.Lined.trans (h : State.Lined p s t) (h' : State.Lined p t u) : State.Lined p s u :=
  ⟨h'.trowels.trans h.trowels, fun q hq => (h'.others q hq).trans (h.others q hq), h'.round.trans h.round, h'.speed.trans h.speed,
    h'.eps.trans h.eps⟩

theorem State.Lined.of_bare (p : PortNo) (h : t.bare = s.bare) : State.Lined p s t :=
  ⟨State.trowels_of_bare h, fun q _ => State.port_of_bare h q, congrArg Port.round (State.port_of_bare h p),
    congrArg Port.speed (State.port_of_bare h p), State.eps_of_bare h⟩

theorem State.Lined.modPort (s : State) {f : Port → Port} (hround : ∀ x, (f x).round = x.round) (hspeed : ∀ x, (f x).speed = x.speed) :
    State.Lined p s (s.modPort p f) := by
  have hp : (s.modPort p f).port p = f (s.port p) := (State.modPort_port ..).trans (if_pos rfl)
  exact ⟨rfl, fun q hq => (State.modPort_port ..).trans (if_neg hq), by rw [hp, hround], by rw [hp, hspeed], rfl⟩

theorem State.Lined.each {α : Type} {f : State → α → State} (h : ∀ v a, State.Lined p v (f v a)) (l : List α) (s : State) :
    State.Lined p s (s.each l f) := by
  induction l generalizing s with
  | nil => exact .refl p s
  | cons a l ih => exact (h s a).trans (ih (f s a))

theorem State.lined_sendData (s : State) (p : PortNo) (k : TrowelNo) (i : Option InstNo) (seq : BitVec 5) (last eot : Bool)
    (pay : List Byte) : State.Lined p s (s.sendData p k i seq last eot pay) := by
  obtain ⟨a, b, h⟩ := (s.send p (dataPacket seq last eot pay)).bare_lineBytes p k i pay.length false
  exact (State.Lined.of_bare p (s.bare_emit _)).trans ((State.Lined.modPort _ (f := fun x => { x with inAcc := a, outAcc := b })
    (fun _ => rfl) fun _ => rfl).trans (.of_bare p h))

theorem State.adds_sendData (s : State) (p : PortNo) (k : TrowelNo) (i : Option InstNo) (seq : BitVec 5) (last eot : Bool)
    (pay : List Byte) : s.Adds (s.sendData p k i seq last eot pay) := (s.adds_emit _).trans (State.adds_lineBytes _ _ _ _ _ _)

theorem State.sendData_out (s : State) (p : PortNo) (k : TrowelNo) (i : Option InstNo) (seq : BitVec 5) (last eot : Bool)
    (pay : List Byte) : .packet p (s.port p).speed (dataPacket seq last eot pay) ∈ (s.sendData p k i seq last eot pay).out :=
  (State.adds_lineBytes _ _ _ _ _ _).mem List.mem_cons_self

/-- The read of a block for sending is a count or a host read (R229, R343). -/
theorem State.readBlock_spec (s : State) (x : Txn) (k : TrowelNo) (j len : Nat) :
    (s.readBlock x k j len).bare = s.bare ∧ s.Adds (s.readBlock x k j len) := by
  unfold State.readBlock
  split
  · split
    · dsimp only
      split
      · exact ⟨State.bare_hostRead .., State.adds_hostRead ..⟩
      · split
        · exact ⟨rfl, .refl s⟩
        · exact ⟨State.bare_countHawk .., State.adds_countHawk ..⟩
    · exact ⟨rfl, .refl s⟩
  · exact ⟨rfl, .refl s⟩

/-- The PUSH of an OUT burst has left after its blocks (R41), and no round has begun. -/
theorem State.sendBlocks_spec (s : State) (p : PortNo) (k : TrowelNo) (x : Txn) (w : Wire) (m : Nat) :
    State.Lined p s (s.sendBlocks p k x w m) ∧
      .packet p (s.port p).speed (tokenPacket pidPush w.addr (s.epidOf x.who false) (x.s + BitVec.ofNat 5 x.sent) (x.n - x.sent - 1)) ∈
        (s.sendBlocks p k x w m).out := by
  unfold State.sendBlocks
  dsimp only
  refine ⟨(State.Lined.of_bare p (s.bare_emit _)).trans (State.Lined.each (fun v j => ?_) _ _),
    (State.Adds.each (fun v j => ?_) _ _).mem List.mem_cons_self⟩
  · exact (State.Lined.of_bare p (v.readBlock_spec x k j _).1).trans (State.lined_sendData ..)
  · exact (v.readBlock_spec x k j _).2.trans (State.adds_sendData ..)

theorem State.lined_chargeSegment (s : State) (p : PortNo) (x : Txn) (len : Nat) : State.Lined p s (s.chargeSegment p x len) := by
  unfold State.chargeSegment
  split
  · exact ⟨rfl, fun _ _ => rfl, rfl, rfl, rfl⟩
  · exact State.Lined.modPort _ (fun _ => rfl) fun _ => rfl

/-- A segment that leaves its burst open is charged, and the line is free again at `free` (R187, R41). -/
def State.segmentOver (s : State) (p : PortNo) (x : Txn) (len free : Nat) : State :=
  (s.chargeSegment p x len).modPort p fun y => { y with gap := none, lineAt := free }

theorem State.segmentOver_spec (s : State) (p : PortNo) (x : Txn) (len free : Nat) :
    State.Lined p s (s.segmentOver p x len free).ended ∧ s.Adds (s.segmentOver p x len free).ended := by
  have hout : (s.segmentOver p x len free).out = s.out := by
    unfold State.segmentOver State.chargeSegment
    split <;> rfl
  have hport : State.Lined p (s.chargeSegment p x len) (s.segmentOver p x len free) := State.Lined.modPort _ (fun _ => rfl) fun _ => rfl
  exact ⟨(s.lined_chargeSegment p x len).trans (hport.trans (.of_bare p (State.bare_ended _))),
    (State.Adds.of_eq hout).trans (State.adds_ended _)⟩

/-! ### A round begins -/

/-- The round of transaction `x` in trowel `k` has begun on port `p` at `now`, and the transaction is on the line. -/
def State.Begun (s : State) (p : PortNo) (now : Nat) (k : TrowelNo) (x : Txn) (t : State) (n seq sent : Nat) : Prop :=
  (∃ r, (t.port p).round = some r ∧ r.kind = x.kind ∧ r.who = x.who ∧ r.trowel = k ∧ r.txn = some x.id ∧ r.t0 = now ∧ r.n = n ∧
    r.s.toNat = seq ∧ r.sent = sent ∧ r.got = 0) ∧
  (∀ q, q ≠ p → t.port q = s.port q) ∧ ∀ y ∈ (t.trowel k).slots, y.id = x.id → y.phase = .line

theorem State.modTxn_slots (s : State) (k : TrowelNo) (id : Nat) (f : Txn → Txn) :
    ((s.modTxn k id f).trowel k).slots = (s.trowel k).slots.map fun y => if y.id = id then f y else y := by
  rw [State.modTxn, State.modTrowel_trowel, if_pos rfl]

/-- The round of a transaction put on the line. -/
def State.lineUp (s : State) (p : PortNo) (kind : RoundKind) (now : Nat) (k : TrowelNo) (x : Txn) (n : Nat) (seq : BitVec 5) (sent : Nat)
    (f : Txn → Txn) : State :=
  (s.beginRound p kind x.who k (some x.id) now n seq sent .entry).modTxn k x.id f

section
variable (s) (p) (kind : RoundKind) (now : Nat) (k : TrowelNo) (x : Txn) (n : Nat) (seq : BitVec 5) (sent : Nat) (f : Txn → Txn)

theorem State.lineUp_port (q : PortNo) : (s.lineUp p kind now k x n seq sent f).ended.port q =
    if q = p then (s.port p).carrying (.opened kind x.who k (some x.id) now n seq sent .entry) else s.port q := by
  have hline : (s.lineUp p kind now k x n seq sent f).port q =
      (s.modPort p (·.carrying (.opened kind x.who k (some x.id) now n seq sent .entry))).port q := rfl
  rw [State.port_of_bare (State.bare_ended _), hline, State.modPort_port]

theorem State.lineUp_round : ((s.lineUp p kind now k x n seq sent f).ended.port p).round =
    some (.opened kind x.who k (some x.id) now n seq sent .entry) := by
  rw [State.lineUp_port, if_pos rfl]
  rfl

theorem State.lineUp_ep (z : Nat) : (s.lineUp p kind now k x n seq sent f).ended.ep z = s.ep z :=
  State.ep_of_bare (State.bare_ended _) z

theorem State.lineUp_out {o : Out} (ho : o ∈ s.out) : o ∈ (s.lineUp p kind now k x n seq sent f).ended.out :=
  (State.adds_ended (s.lineUp p kind now k x n seq sent f)).mem ho

end

theorem State.begun_lineUp {now : Nat} {k : TrowelNo} {x : Txn} {kind : RoundKind} {f : Txn → Txn} (h : State.Lined p s u)
    (hkind : x.kind = kind) (hf : ∀ y, (f y).phase = .line) (n : Nat) (seq : BitVec 5) (sent : Nat) :
    s.Begun p now k x (u.lineUp p kind now k x n seq sent f).ended n seq.toNat sent := by
  refine ⟨⟨_, State.lineUp_round .., hkind.symm, rfl, rfl, rfl, rfl, rfl, rfl, rfl, rfl⟩, fun q hq => ?_, fun y hy hid => ?_⟩
  · rw [State.lineUp_port, if_neg hq, h.others q hq]
  · rw [State.trowel_of_bare (State.bare_ended _), State.lineUp, State.modTxn_slots] at hy
    obtain ⟨z, -, rfl⟩ := List.mem_map.1 hy
    by_cases hz : z.id = x.id
    · rw [if_pos hz]
      exact hf z
    · rw [if_neg hz] at hid
      exact absurd hid hz

/-! ### IN and OUT -/

variable {now : Nat} {k : TrowelNo} {x : Txn} {w : Wire}

/-- An IN round starts with its POLL (R40). -/
theorem State.startIn_spec (h : State.Lined p s u) (hn : fitBlocks (u.port p).speed x.kind w.tier w.mb now (u.workLimit p) x.n ≠ 0) :
    let n := fitBlocks (u.port p).speed x.kind w.tier w.mb now (u.workLimit p) x.n
    .packet p (u.port p).speed (tokenPacket pidPoll w.addr (u.epidOf x.who true) (u.expectOf x.who) (n - 1)) ∈
        (u.startIn p k x w now).ended.out ∧
      s.Begun p now k x (u.startIn p k x w now).ended n (u.expectOf x.who).toNat 0 := by
  intro n
  have hstart : u.startIn p k x w now = (u.send p (tokenPacket pidPoll w.addr (u.epidOf x.who true) (u.expectOf x.who) (n - 1))).lineUp p x.kind
      now k x n (u.expectOf x.who) 0 fun y => { y with phase := .line, n := n, s := u.expectOf x.who, started := true } := if_neg hn
  rw [hstart]
  exact ⟨State.lineUp_out _ _ _ _ _ _ _ _ _ _ List.mem_cons_self,
    State.begun_lineUp (h.trans (State.Lined.of_bare p (u.bare_emit _))) rfl (fun _ => rfl) n _ 0⟩

/-- An OUT burst starts or goes on with its PUSH (R41): with its last block the wait for the ACK begins, and a segment that leaves it open
is noted with the transaction. -/
theorem State.startOut_spec (h : State.Lined p s u) (hm : segmentFit (u.port p).speed w.tier w.mb now (u.workLimit p) (x.n - x.sent) ≠ 0) :
    let m := segmentFit (u.port p).speed w.tier w.mb now (u.workLimit p) (x.n - x.sent)
    let t := (u.startOut p k x w now).ended
    .packet p (u.port p).speed (tokenPacket pidPush w.addr (u.epidOf x.who false) (x.s + BitVec.ofNat 5 x.sent) (x.n - x.sent - 1)) ∈ t.out ∧
      (x.sent + m = x.n → s.Begun p now k x t x.n x.s.toNat x.n) ∧
      (x.sent + m ≠ x.n → (t.port p).round = (s.port p).round ∧ ∀ y ∈ (t.trowel k).slots, y.id = x.id → ∃ z ∈ (s.trowel k).slots,
        y = { z with sent := z.sent + m, started := true }) := by
  intro m
  obtain ⟨hlined, hpush⟩ := u.sendBlocks_spec p k x w m
  have hs := h.trans hlined
  by_cases hall : x.sent + m = x.n
  · have hstart : u.startOut p k x w now = (u.sendBlocks p k x w m).lineUp p x.kind now k x x.n x.s x.n fun y =>
        { y with phase := .line, started := true } := (if_neg hm).trans (if_pos hall)
    rw [hstart]
    exact ⟨State.lineUp_out _ _ _ _ _ _ _ _ _ _ hpush, fun _ => State.begun_lineUp hs rfl (fun _ => rfl) x.n x.s x.n, fun h => absurd hall h⟩
  · have hstart : u.startOut p k x w now = ((u.sendBlocks p k x w m).modTxn k x.id fun y => { y with sent := y.sent + m, started := true
        }).segmentOver p x (segmentTime w.mb m + gapTime) (now + segmentTime w.mb m + gapTime) := (if_neg hm).trans (if_neg hall)
    obtain ⟨hover, hadds⟩ := State.segmentOver_spec ((u.sendBlocks p k x w m).modTxn k x.id fun y =>
      { y with sent := y.sent + m, started := true }) p x (segmentTime w.mb m + gapTime) (now + segmentTime w.mb m + gapTime)
    rw [hstart]
    refine ⟨hadds.mem hpush, fun h => absurd h hall, fun _ => ⟨hover.round.trans hs.round, fun y hy hid => ?_⟩⟩
    rw [State.trowel, hover.trowels, ← State.trowel, State.modTxn_slots] at hy
    obtain ⟨z, hz, rfl⟩ := List.mem_map.1 hy
    rw [State.trowel, hs.trowels, ← State.trowel] at hz
    refine ⟨z, hz, ?_⟩
    by_cases hzid : z.id = x.id
    · rw [if_pos hzid]
    · rw [if_neg hzid] at hid
      exact absurd hid hzid

/-! ### The commands -/

theorem execBulkInRound_eq (hst : s.startable p [.bulkIn] false now = some (k, x, w)) (hc : s.cachedOf x.who = true) :
    execBulkInRound p now s = .next ((s.touchOf x.who).startIn p k x w now).ended := by
  simp only [execBulkInRound, hst, State.withContext_of_cached _ _ hc, done_eq_ended]

theorem execBulkOutBurst_eq (hst : s.startable p [.bulkOut] false now = some (k, x, w)) (hc : s.cachedOf x.who = true) :
    execBulkOutBurst p now s = .next ((s.touchOf x.who).startOut p k x w now).ended := by
  simp only [execBulkOutBurst, hst, State.withContext_of_cached _ _ hc, done_eq_ended]

theorem execOutSegmentContinue_eq (hst : s.startable p [.bulkOut, .ctlOut] true now = some (k, x, w)) (hc : s.cachedOf x.who = true) :
    execOutSegmentContinue p now s = .next ((s.touchOf x.who).startOut p k x w now).ended := by
  simp only [execOutSegmentContinue, hst, State.withContext_of_cached _ _ hc, done_eq_ended]

theorem execControlDataStage_in (hst : s.startable p [.ctlIn, .ctlOut] false now = some (k, x, w)) (hc : s.cachedOf x.who = true)
    (hk : x.kind = .ctlIn) : execControlDataStage p now s = .next ((s.touchOf x.who).startIn p k x w now).ended := by
  simp only [execControlDataStage, hst, State.withContext_of_cached _ _ hc, done_eq_ended, hk, beq_self_eq_true, if_true]

/-- The setup round of a transaction: SETUP and the setup block, both directions of the endpoint from 0 (R36, R52). -/
def State.setUp (s : State) (p : PortNo) (k : TrowelNo) (x : Txn) (w : Wire) : State :=
  ((s.setupSeq x.who).send p (tokenPacket pidSetup w.addr 0 0 0)).sendData p k w.inst 0 true true (s.setupOf x.who)

theorem State.setupSeq_ports (s : State) (h : Holder) : (s.setupSeq h).ports = s.ports := by cases h <;> rfl

theorem State.setUp_push (s : State) (p : PortNo) (k : TrowelNo) (x : Txn) (w : Wire) :
    .packet p (s.port p).speed (tokenPacket pidSetup w.addr 0 0 0) ∈ (s.setUp p k x w).out := by
  have hport : (s.setupSeq x.who).port p = s.port p := congrArg (vget · p) (s.setupSeq_ports x.who)
  rw [← hport]
  exact (State.adds_sendData ..).mem List.mem_cons_self

theorem State.setUp_data (s : State) (p : PortNo) (k : TrowelNo) (x : Txn) (w : Wire) :
    .packet p (s.port p).speed (dataPacket 0 true true (s.setupOf x.who)) ∈ (s.setUp p k x w).out := by
  have hport : (s.setupSeq x.who).port p = s.port p := congrArg (vget · p) (s.setupSeq_ports x.who)
  rw [← hport]
  exact State.sendData_out ((s.setupSeq x.who).send p _) p k w.inst 0 true true _

theorem State.setUp_ep {z : Nat} {e : Ep} (hz : x.who = .ep z) (he : s.ep z = some e) :
    (s.setUp p k x w).ep z = some { e with nextSeq := 0, expectSeq := 0 } := by
  have heps : (s.setUp p k x w).eps = (s.setupSeq x.who).eps := (State.lined_sendData ..).eps
  rw [State.ep, heps, ← State.ep, hz]
  refine (State.modEp_ep s z z _).trans ?_
  rw [if_pos rfl, he]
  rfl

theorem execControlSetupStage_eq (hst : s.startable p [.setup] false now = some (k, x, w)) (hc : s.cachedOf x.who = true)
    (hfit : now + longestSetup ((s.touchOf x.who).port p).speed w.tier ≤ (s.touchOf x.who).workLimit p) : execControlSetupStage p now s =
      .next (((s.touchOf x.who).setUp p k x w).lineUp p .setup now k x 1 0 1 fun t => { t with phase := .line, s := 0, started := true }).ended := by
  simp only [execControlSetupStage, hst, State.withContext_of_cached _ _ hc, done_eq_ended, hfit, if_true]
  rfl

theorem execControlStatusStage_in (hst : s.startable p [.stIn, .stOut] false now = some (k, x, w)) (hc : s.cachedOf x.who = true)
    (hfit : now + longestRound ((s.touchOf x.who).port p).speed x.kind w.tier 0 1 ≤ (s.touchOf x.who).workLimit p) (hk : x.kind = .stIn) :
    let u := s.touchOf x.who
    execControlStatusStage p now s = .next ((u.send p (tokenPacket pidPoll w.addr 0x10 (u.expectOf x.who) 0)).lineUp p .stIn now k x 1
      (u.expectOf x.who) 0 fun t => { t with phase := .line, s := u.expectOf x.who, started := true }).ended := by
  rw [hk] at hfit
  simp only [execControlStatusStage, hst, State.withContext_of_cached _ _ hc, done_eq_ended, hfit, hk, if_true, beq_self_eq_true]
  rfl

theorem execControlStatusStage_out (hst : s.startable p [.stIn, .stOut] false now = some (k, x, w)) (hc : s.cachedOf x.who = true)
    (hfit : now + longestRound ((s.touchOf x.who).port p).speed x.kind w.tier 0 1 ≤ (s.touchOf x.who).workLimit p) (hk : x.kind = .stOut) :
    let u := s.touchOf x.who
    execControlStatusStage p now s = .next (((u.send p (tokenPacket pidPush w.addr 0 x.s 0)).sendData p k w.inst x.s true true []).lineUp p
      .stOut now k x 1 x.s 1 fun t => { t with phase := .line, started := true }).ended := by
  have hout : (RoundKind.stOut == RoundKind.stIn) = false := rfl
  rw [hk] at hfit
  simp only [execControlStatusStage, hst, State.withContext_of_cached _ _ hc, done_eq_ended, hfit, hk, if_true, hout, Bool.false_eq_true,
    if_false]
  rfl

/-- Settles O51: a context that is cached is only reordered, and each command then starts its round as the transaction asks. -/
theorem workRounds : Obligations.WorkRounds := by
  intro s p now k x w limit begun inRound outRound started n m
  have htouch (hc : s.cachedOf x.who = true) : ∃ c, s.touchOf x.who = s.withCache c := s.touchOf_of_cached hc
  have hline (c : List Nat) : State.Lined p s (s.withCache c) := ⟨rfl, fun _ _ => rfl, rfl, rfl, rfl⟩
  refine ⟨fun ⟨hst, hc⟩ hn => ?_, fun ⟨hst, hc⟩ hk hn => ?_, fun ⟨hst, hc⟩ hm => ?_, fun ⟨hst, hc⟩ hm => ?_, fun ⟨hst, hc⟩ hfit => ?_,
    fun ⟨hst, hc⟩ hfit => ⟨fun hk => ?_, fun hk => ?_⟩⟩
  all_goals obtain ⟨c, hu⟩ := htouch hc
  · exact ⟨_, execBulkInRound_eq hst hc, hu ▸ State.startIn_spec (hline c) hn⟩
  · exact ⟨_, execControlDataStage_in hst hc hk, hu ▸ State.startIn_spec (hline c) hn⟩
  · exact ⟨_, execBulkOutBurst_eq hst hc, hu ▸ State.startOut_spec (hline c) hm⟩
  · obtain ⟨hpush, hlast, -⟩ := State.startOut_spec (u := s.withCache c) (hline c) hm
    exact ⟨_, execOutSegmentContinue_eq hst hc, hu ▸ ⟨hpush, hlast⟩⟩
  · have hexec := execControlSetupStage_eq hst hc (by rw [hu]; exact hfit)
    rw [hu] at hexec
    refine ⟨_, hexec, State.lineUp_out _ _ _ _ _ _ _ _ _ _ ?_, State.lineUp_out _ _ _ _ _ _ _ _ _ _ ?_, fun z e hz he => ?_, _,
      State.lineUp_round .., rfl, rfl, rfl, rfl, rfl⟩
    · exact (s.withCache c).setUp_push p k x w
    · exact (s.withCache c).setUp_data p k x w
    · rw [State.lineUp_ep]
      exact State.setUp_ep hz he
  · have hexec := execControlStatusStage_in hst hc (by rw [hu]; exact hfit) hk
    dsimp only at hexec
    rw [hu] at hexec
    exact ⟨_, hexec, State.lineUp_out _ _ _ _ _ _ _ _ _ _ List.mem_cons_self,
      State.begun_lineUp ((hline c).trans (.of_bare p (State.bare_emit _ _))) hk (fun _ => rfl) 1 _ 0⟩
  · have hexec := execControlStatusStage_out hst hc (by rw [hu]; exact hfit) hk
    dsimp only at hexec
    rw [hu] at hexec
    exact ⟨_, hexec, State.lineUp_out _ _ _ _ _ _ _ _ _ _ ((State.adds_sendData ..).mem List.mem_cons_self),
      State.lineUp_out _ _ _ _ _ _ _ _ _ _ (State.sendData_out ..),
      State.begun_lineUp ((hline c).trans ((State.Lined.of_bare p (State.bare_emit _ _)).trans (State.lined_sendData ..))) hk
        (fun _ => rfl) 1 _ 1⟩

end Sys2Proof.Machine
end

section
/-!
SUPPORT. Commands on endpoints: how a command of any issuer ends or waits, the clear-halt exchange (R54), and the stop of an endpoint's work
(R207).
-/
namespace Sys2Proof.Machine

variable {s : State} {i : InstNo} {slot : BitVec 16} {op : Nat} {form : CEntry → Bool} {c : CEntry} {body : CEntry → Reply}

/-! ### How a command is answered -/

theorem State.seqServed_of_not_seq (t : State) (i : InstNo) (h : seqOpcode op = false) : t.seqServed i op = t := by
  simp [State.seqServed, h]

/-- A command outside the sequencer that ends at once ends with its status and result. -/
theorem carryOut_ends_of_not_seq {t : State} {st : Status} {r : Nat} (h : s.Ordered i slot op form c) (hseq : seqOpcode op = false)
    (hb : body c = .ends t st r) : carryOut i slot op form s body = .next (t.replied i slot st r) := by
  obtain ⟨hs, hp⟩ := h
  simp only [carryOut, hs, hp, hb, t.seqServed_of_not_seq i hseq]
  rfl

/-- A command outside the sequencer that waits has started. -/
theorem carryOut_waits_of_not_seq {t : State} (h : s.Ordered i slot op form c) (hseq : seqOpcode op = false) (hb : body c = .waits t) :
    carryOut i slot op form s body = .next (t.setPhase i slot .waiting).ended := by
  obtain ⟨hs, hp⟩ := h
  simp only [carryOut, hs, hp, hb, t.seqServed_of_not_seq i hseq]
  rfl

/-! ### The clear-halt exchange -/

theorem DevRec.pos_port (d : DevRec) : d.pos.port = d.port := by
  unfold DevRec.pos
  split <;> rfl

/-- Where software drives tree power, the exchange begins with no branch to wake (R54, R255). -/
theorem State.startUnhalt_eq {e : Ep} {d : DevRec} (pu : Purpose) (hd : s.epDev e = some d) (hsw : (s.port d.port).treeHw = false) :
    s.startUnhalt pu e = s.asking pu d.pos 0 0 [] d.port e.zone d.tier d.ep0Max 0x5C 0x20 e.epid.toNat 0 0 := by
  have hwake : s.wakeBranch d.pos = s := by simp [State.wakeBranch, d.pos_port, hsw]
  have hdev : s.dev e.zone = some d := hd
  have hnew (pu : Purpose) (q : Pos) : (s.newProc pu q 0 0 []).1.dev e.zone = some d := hdev
  simp only [State.startUnhalt, hd, hwake, State.ask, hnew]
  rfl

theorem State.unhaltConflict_eq {e : Ep} {d : DevRec} (hd : s.epDev e = some d) (hk : e.kind ≠ .control)
    (hsw : (s.port d.port).treeHw = false) : s.unhaltConflict e = s.branchDown d.pos := by
  simp [State.unhaltConflict, hd, State.stepConflict, d.pos_port, hsw, hk]

theorem State.epOf_spec {n k : Nat} {e : Ep} (h : s.epOf i n = some (k, e)) : s.ep k = some e ∧ e.inst = i := by
  unfold State.epOf at h
  split at h
  · obtain ⟨e', he', h'⟩ := Option.bind_eq_some_iff.1 h
    split at h'
    · next hi =>
      obtain ⟨rfl, rfl⟩ := Prod.mk.inj (Option.some.inj h')
      exact ⟨he', hi⟩
    · exact absurd h' (by simp)
  · exact absurd h (by simp)

/-- The use of a context, cached or not, is the memories' and a report (R102). -/
theorem State.bare_touch (s : State) (k : Nat) : ∃ m, (s.touch k).bare = ({ s with mem := m } : State).bare := by
  unfold State.touch
  split
  · exact ⟨s.mem, rfl⟩
  · split
    · exact ⟨_, rfl⟩
    · split
      · exact ⟨s.mem, rfl⟩
      · exact ⟨_, (State.bare_hostRead ..).trans (State.bare_count _ _)⟩

/-! ### The stop of an endpoint's work -/

theorem State.bare_putData (s : State) (i : InstNo) (a : Nat) (bs : List Byte) (k : Option Nat) : (s.putData i a bs k).bare = s.bare := by
  unfold State.putData
  split
  · rfl
  · split
    · exact s.bare_hostWriteBy _ _ _ _ _
    · split
      · rfl
      · exact State.bare_modInst _ _ _ rfl

theorem State.bare_writeDeliveries (l : List Delivery) (s : State) : (l.foldl State.writeDelivery s).bare = s.bare := by
  refine State.bare_each s l State.writeDelivery fun t d => ?_
  unfold State.writeDelivery
  split
  · exact State.bare_putData ..
  · rfl

/-- A port without its queue and what is on its line. -/
def Port.unlined (x : Port) : Port := { x with queue := [], round := none, gap := none }

/-- The state without transactions in hand and rounds on a line. -/
def State.unlined (s : State) : State :=
  { s with ports := s.ports.map Port.unlined, trowels := s.trowels.map fun w => { w with slots := [] } }

theorem State.unlined_modPort (s : State) (p : PortNo) (f : Port → Port) (h : (f (s.port p)).unlined = (s.port p).unlined) :
    (s.modPort p f).unlined = s.unlined := by
  have hports : (vset s.ports p (f (s.port p))).map Port.unlined = s.ports.map Port.unlined := by
    rw [map_vset, h]
    exact (congrArg _ (vget_map Port.unlined s.ports p).symm).trans (vset_vget _ _)
  simp only [State.unlined, State.modPort, State.setPort, hports]

theorem State.unlined_modTrowel_slots (s : State) (k : TrowelNo) (f : Trowel → List Txn) :
    (s.modTrowel k fun w => { w with slots := f w }).unlined = s.unlined := by
  have htrowels : (vset s.trowels k { s.trowel k with slots := f (s.trowel k) }).map (fun w : Trowel => { w with slots := [] }) =
      s.trowels.map fun w => { w with slots := [] } := by
    rw [map_vset]
    exact (congrArg _ (vget_map (fun w : Trowel => { w with slots := [] }) s.trowels k).symm).trans (vset_vget _ _)
  simp only [State.unlined, State.modTrowel, State.setTrowel, htrowels]

theorem State.unlined_dropTxns (s : State) (h : Holder) : (s.dropTxns h).unlined = s.unlined := by
  unfold State.dropTxns
  refine (State.each_keeps State.unlined (fun t k => ?_) _ _).trans (State.each_keeps State.unlined (fun t p => ?_) _ s)
  · split
    · exact t.unlined_modTrowel_slots k _
    · rfl
  · split
    · exact t.unlined_modPort p _ rfl
    · rfl

theorem State.unlined_dropRound (s : State) (h : Holder) : (s.dropRound h).unlined = s.unlined := by
  unfold State.dropRound
  refine State.each_keeps State.unlined (fun t p => ?_) _ s
  split
  · split
    · exact t.unlined_modPort p _ rfl
    · rfl
  · rfl

/-- The context of an endpoint that has nothing in hand any more. -/
def Ep.idle (e : Ep) : Ep := { e with picked := false, delivering := false, backoff := false, carry := [], carryEot := false }

/-- The work of endpoint `k` taken out of hand, before its entry completes (R207). -/
def State.unhanded (s : State) (k : Nat) : State :=
  (((({ s with deliveries := s.deliveries.filter fun d => d.ep != k } : State).dropTxns (.ep k)).dropRound (.ep k)).modEp k Ep.idle)

theorem State.unlined_unhanded (s : State) (k : Nat) : (s.unhanded k).unlined =
    (({ s with deliveries := s.deliveries.filter fun d => d.ep != k } : State).modEp k Ep.idle).unlined := by
  have hdrop := (State.unlined_dropRound _ (.ep k)).trans (State.unlined_dropTxns
    ({ s with deliveries := s.deliveries.filter fun d => d.ep != k } : State) (.ep k))
  have hmod (u : State) : (u.modEp k Ep.idle).unlined = u.unlined.modEp k Ep.idle := rfl
  unfold State.unhanded
  rw [hmod, hdrop, hmod]

/-- The entry in progress of endpoint `k` with what a round cut short has accepted for it. -/
def State.accepting (s : State) (k : Nat) (e : Ep) : State :=
  match e.cur with
  | some x => s.modEp k fun e => { e with cur := some (x.take (s.roundData k)) }
  | none => s

/-- A stop writes what has been accepted, takes the work out of hand and completes the entry. -/
theorem State.stopEp_eq (s : State) {k : Nat} {e : Ep} (st : Status) (he : s.ep k = some e) :
    ∃ v : State, s.stopEp k st = (v.unhanded k).complete k st ∧ v.bare = (s.accepting k e).bare := by
  have hdel := State.bare_writeDeliveries (s.deliveries.filter fun d => d.ep == k) s
  have hep : ((s.deliveries.filter fun d => d.ep == k).foldl State.writeDelivery s).ep k = some e := (State.ep_of_bare hdel k).trans he
  unfold State.stopEp State.accepting
  dsimp only
  generalize (s.deliveries.filter fun d => d.ep == k).foldl State.writeDelivery s = u at hdel hep
  rw [hep]
  cases hcur : e.cur with
  | none =>
    refine ⟨u, ?_, hdel⟩
    simp only [Option.bind_some, hcur, Option.map_none]
    rfl
  | some x =>
    refine ⟨(u.putData e.inst (teBuf x.entry + x.bytes)
      ((s.roundData k).take (min (s.roundData k).length (teLength x.entry - x.bytes))) none).modEp k fun e => { e with cur := some (x.take (s.roundData k)) }, ?_, ?_⟩
    · simp only [Option.bind_some, hcur, Option.map_some]
      rfl
    · rw [State.bare_modEp, State.bare_putData, hdel, ← State.bare_modEp]

/-- What the stop of endpoint `k`'s work leaves (R207): nothing in progress, its head past the entry that ended, and no delivery of it; the
other contexts, the devices, and what the writes to host memory turn on stay. -/
structure State.Stopped (s t : State) (k : Nat) (e : Ep) : Prop where
  self : ∃ x, t.ep k = some x ∧ x.cur = none ∧ (e.cur = none ∨ s.canWrite e.inst = true →
    x.trHead = if e.cur.isSome then e.advance.trHead else e.trHead)
  others : ∀ j, j ≠ k → t.ep j = s.ep j
  devs : t.devs = s.devs
  deliveries : ∀ y ∈ t.deliveries, y.ep ≠ k
  treeHw : ∀ p, (t.port p).treeHw = (s.port p).treeHw

theorem Ep.completed_cur (e : Ep) (n : Nat) (counted passed : Bool) : (e.completed n counted passed).cur = none := by
  cases passed <;> rfl

theorem Ep.completed_trHead (e : Ep) (n : Nat) (counted passed : Bool) :
    (e.completed n counted passed).trHead = if passed then e.advance.trHead else e.trHead := by cases passed <;> rfl

theorem State.ep_accepting (s : State) {k : Nat} {e : Ep} (he : s.ep k = some e) (j : Nat) : (s.accepting k e).ep j =
    if j = k then some { e with cur := e.cur.map (·.take (s.roundData k)) } else s.ep j := by
  unfold State.accepting
  cases hcur : e.cur with
  | none =>
    dsimp only
    split
    next h => rw [h, he, Option.map_none, ← hcur]
    · rfl
  | some x =>
    refine (State.modEp_ep s k j _).trans ?_
    rw [he]
    rfl

theorem State.core_accepting (s : State) (k : Nat) (e : Ep) : (s.accepting k e).core = s.core := by
  unfold State.accepting
  split <;> rfl

section
variable {s t : State} (h : t.unlined = s.unlined)
include h

theorem State.eps_of_unlined : t.eps = s.eps := (congrArg State.eps h : t.unlined.eps = s.unlined.eps)
theorem State.devs_of_unlined : t.devs = s.devs := (congrArg State.devs h : t.unlined.devs = s.unlined.devs)
theorem State.deliveries_of_unlined : t.deliveries = s.deliveries := (congrArg State.deliveries h : t.unlined.deliveries = s.unlined.deliveries)

theorem State.canWrite_of_unlined (i : InstNo) : t.canWrite i = s.canWrite i :=
  (congrArg (fun u : State => u.canWrite i) h : t.unlined.canWrite i = s.unlined.canWrite i)

theorem State.treeHw_of_unlined (p : PortNo) : (t.port p).treeHw = (s.port p).treeHw := by
  have hp (u : State) : (u.unlined.port p).treeHw = (u.port p).treeHw := by
    have hport : u.unlined.port p = (u.port p).unlined := vget_map ..
    rw [hport]
    rfl
  rw [← hp t, h, hp s]

end

/-- The work of `k` out of hand: what is left is the entry in progress to complete. -/
theorem State.unhanded_spec (s : State) {v : State} {k : Nat} {e : Ep} (he : s.ep k = some e) (hv : v.bare = (s.accepting k e).bare) :
    (v.unhanded k).ep k = some (Ep.idle { e with cur := e.cur.map (·.take (s.roundData k)) }) ∧ (∀ j, j ≠ k → (v.unhanded k).ep j = s.ep j) ∧
      (v.unhanded k).devs = s.devs ∧ (∀ y ∈ (v.unhanded k).deliveries, y.ep ≠ k) ∧
      (∀ i, (v.unhanded k).canWrite i = s.canWrite i) ∧ ∀ p, ((v.unhanded k).port p).treeHw = (s.port p).treeHw := by
  have hlined := v.unlined_unhanded k
  have hcore := (State.core_of_bare hv).trans (s.core_accepting k e)
  have heps := State.eps_of_unlined hlined
  have hep (j : Nat) : (v.unhanded k).ep j = (v.modEp k Ep.idle).ep j := congrArg (kget · j) heps
  have hdel : (v.unhanded k).deliveries = v.deliveries.filter fun d => d.ep != k := State.deliveries_of_unlined hlined
  have hdevs := State.devs_of_unlined hlined
  refine ⟨?_, fun j hj => ?_, hdevs.trans ?_, fun y hy => ?_, fun i => ?_, fun p => ?_⟩
  · rw [hep, State.modEp_ep, if_pos rfl, State.ep_of_bare hv, s.ep_accepting he, if_pos rfl]
    rfl
  · rw [hep, State.modEp_ep, if_neg hj, State.ep_of_bare hv, s.ep_accepting he, if_neg hj]
  · exact (State.devs_of_core hcore :)
  · rw [hdel] at hy
    simpa using (List.mem_filter.1 hy).2
  · exact (State.canWrite_of_unlined hlined i :).trans (State.canWrite_of_core hcore i)
  · exact (State.treeHw_of_unlined hlined p :).trans (congrArg Port.treeHw (State.port_of_core hcore p))

theorem State.stopped_stopEp (s : State) {k : Nat} {e : Ep} (st : Status) (he : s.ep k = some e) :
    s.Stopped (s.stopEp k st) k e := by
  obtain ⟨v, hstop, hv⟩ := s.stopEp_eq st he
  obtain ⟨hself, hothers, hdevs, hdel, hwrite, htree⟩ := s.unhanded_spec he hv
  generalize v.unhanded k = w at hstop hself hothers hdevs hdel hwrite htree
  have hcore : (s.stopEp k st).core = w.core := by rw [hstop, State.complete, State.core_completeAt]
  have hne (j : Nat) (hj : j ≠ k) : (s.stopEp k st).ep j = s.ep j := by
    rw [hstop, State.complete, State.ep_completeAt_ne _ _ _ hj, hothers j hj]
  refine ⟨?_, hne, (State.devs_of_core hcore).trans hdevs, by rwa [State.deliveries_of_core hcore],
    fun p => (congrArg Port.treeHw (State.port_of_core hcore p)).trans (htree p)⟩
  rw [hstop, State.complete]
  cases hcur : e.cur with
  | none =>
    rw [w.completeAt_none st _ (by rw [hself, hcur]; rfl), hself]
    exact ⟨_, rfl, by rw [hcur]; rfl, fun _ => rfl⟩
  | some x =>
    rw [w.ep_completeAt st _ hself (by rw [hcur]; rfl), if_pos rfl]
    refine ⟨_, rfl, Ep.completed_cur .., fun h => ?_⟩
    have hcan : w.canWrite e.inst = true := (hwrite e.inst).trans (h.resolve_left (by simp))
    rw [Ep.completed_trHead]
    simp [State.reports_of_canWrite hcan, hcan, Ep.idle, Ep.advance, Ep.ringSize]

end Sys2Proof.Machine
end

section
/-! Endpoint commands (O37). -/
namespace Sys2Proof.Machine

variable {s : State} {i : InstNo} {slot : BitVec 16} {c : CEntry} {k : Nat} {e : Ep} {d : DevRec}

/-! ### MODIFY_ENDPOINT -/

/-- The context with the fields of MODIFY_ENDPOINT's mask changed, but for block size, event ring, flow and schedule (R139). -/
def Ep.modified (e : Ep) (c : CEntry) : Ep :=
  { e with
    errThreshold := masked c 83 (fld c 109 107) e.errThreshold, retryLimit := masked c 84 (fld c 113 110) e.retryLimit
    egressSafe := if bitOf c 88 then bitOf c 239 else e.egressSafe }

theorem execModifyEndpoint_kept (ho : s.Ordered i slot 0x13 anyForm c) (he : s.epOf i (fld c 80 64) = some (k, e)) (hd : s.epDev e = some d)
    (hring : (s.ring i e.evtRing).enable = true) (hblock : blockOk e.kind.ctorIdx d.ep0Max e.maxBlock = true) (h85 : bitOf c 85 = false)
    (h86 : bitOf c 86 = false) (h87 : bitOf c 87 = false) (herr : masked c 83 (fld c 109 107) e.errThreshold ≠ 0)
    (hat : s.atBoundary k = true) (h81 : bitOf c 81 = false) (h82 : bitOf c 82 = false) :
    execModifyEndpoint i slot s = .next (((s.touch k).setEp k (e.modified c)).replied i slot .cmdOk 0) := by
  refine carryOut_ends_of_not_seq ho rfl ?_
  have hmb : masked c 85 (fld c 123 114) e.maxBlock = e.maxBlock := if_neg (by simp [h85])
  simp [he, hd, h81, h82, h85, h86, h87, hmb, hring, hblock, herr, hat, Ep.modified]

theorem execModifyEndpoint_booked (ho : s.Ordered i slot 0x13 anyForm c) (he : s.epOf i (fld c 80 64) = some (k, e))
    (hd : s.epDev e = some d) (hring : (s.ring i e.evtRing).enable = true) (hblock : blockOk e.kind.ctorIdx d.ep0Max e.maxBlock = true)
    (h85 : bitOf c 85 = false) (h86 : bitOf c 86 = false) (h87 : bitOf c 87 = false)
    (herr : masked c 83 (fld c 109 107) e.errThreshold ≠ 0) (hat : s.atBoundary k = true) (h81 : bitOf c 81 = true)
    (h82 : bitOf c 82 = true) (hk : e.kind = .periodic) (hconv : (s.port d.port).converting = false)
    (hsched : schedOk 1 (fld c 106 103) (fld c 217 202) ((s.port d.port).reckon == .reach) = true) {q : Nat}
    (hbook : s.book k i d.port (svcCost (s.port d.port).reckon d.tier e.maxBlock e.inward) (fld c 106 103) (fld c 217 202) = some q) :
    execModifyEndpoint i slot s = .next (((s.touch k).setEp k { e.modified c with
      svcCost := svcCost (s.port d.port).reckon d.tier e.maxBlock e.inward
      newSched := some (fld c 106 103, q) }).replied i slot .cmdOk 0) := by
  refine carryOut_ends_of_not_seq ho rfl ?_
  have hmb : masked c 85 (fld c 123 114) e.maxBlock = e.maxBlock := if_neg (by simp [h85])
  have hn (n : Nat) : masked c 81 (fld c 106 103) n = fld c 106 103 := if_pos h81
  have hq (n : Nat) : masked c 82 (fld c 217 202) n = fld c 217 202 := if_pos h82
  have hkind : EpKind.periodic.ctorIdx = 1 := rfl
  rw [hk, hkind] at hblock
  simp [he, hd, h81, h82, h85, h86, h87, hmb, hn, hq, hring, hblock, herr, hat, hk, hkind, hconv, hsched, hbook, Ep.modified]

/-! ### CLOSE_ENDPOINT -/

theorem execCloseEndpoint_of_armed (ho : s.Ordered i slot 0x14 anyForm c) (he : s.epOf i (fld c 80 64) = some (k, e))
    (harmed : s.armedOn k = true) : execCloseEndpoint i slot s = .next (s.replied i slot .conflict 0) :=
  carryOut_ends_of_not_seq ho rfl (by simp [he, harmed])

/-- The work of endpoint `k` stopped by CLOSE_ENDPOINT. -/
def State.closeWork (s : State) (k : Nat) : State :=
  ((s.stopEp k .stopped).endSlot k .stopped).modEp k fun e => { e with st := .closed, heldValid := false, heldLen := 0, commitRef := 0 }

/-- The context of endpoint `k` written back and closed (R99, R150). -/
def State.closed (s : State) (k : Nat) : State := (((s.closeWork k).writeBack k).dropEp k).forgetRecovery k

theorem execCloseEndpoint_eq (ho : s.Ordered i slot 0x14 anyForm c) (he : s.epOf i (fld c 80 64) = some (k, e))
    (harmed : s.armedOn k = false) (hwait : s.midWait (.ep k) = false) : execCloseEndpoint i slot s =
      .next ((s.closed k).replied i slot .cmdOk ((((s.closeWork k).ep k).map (·.trHead.toNat)).getD 0)) :=
  carryOut_ends_of_not_seq ho rfl (by simp [he, harmed, hwait, State.closed, State.closeWork])

theorem State.closeWork_spec (he : s.ep k = some e) :
    (∃ x, (s.closeWork k).ep k = some x ∧
      (e.cur = none ∨ s.canWrite e.inst = true → x.trHead = if e.cur.isSome then e.advance.trHead else e.trHead)) ∧
    (∀ j, j ≠ k → ((s.closeWork k).ep j).isSome = (s.ep j).isSome) ∧ ∀ y ∈ (s.closeWork k).deliveries, y.ep ≠ k := by
  have hstop := s.stopped_stopEp .stopped he
  have hunbound := (s.stopEp k .stopped).unbound_endSlot k .stopped
  obtain ⟨x, hx, -, hhead⟩ := hstop.self
  obtain ⟨r, hr⟩ := State.ep_of_unbound hunbound hx
  have hself : (s.closeWork k).ep k = some { x with commitRef := 0, st := .closed, heldValid := false, heldLen := 0 } := by
    rw [State.closeWork, State.modEp_ep, if_pos rfl, hr]
    rfl
  refine ⟨⟨_, hself, hhead⟩, fun j hj => ?_, fun y hy => ?_⟩
  · have hj' := congrArg Option.isSome (congrFun hunbound j)
    simp only [State.unbound, Option.isSome_map, hstop.others j hj] at hj'
    rw [State.closeWork, State.modEp_ep, if_neg hj, hj']
  · have hcore : (s.closeWork k).core = (s.stopEp k .stopped).core := (State.core_modEp _ k _).trans (State.core_endSlot ..)
    rw [State.deliveries_of_core hcore] at hy
    exact hstop.deliveries y hy

theorem State.bare_writeBack (s : State) (k : Nat) : (s.writeBack k).bare = s.bare := by
  unfold State.writeBack
  split
  · rfl
  · rw [State.bare_takeFrees, State.bare_putData]

/-- The lists of the ports alone lose the holders. -/
theorem State.unlist_keeps (s : State) (gone : Holder → Bool) :
    ((s.unlist gone).eps, (s.unlist gone).mem, (s.unlist gone).deliveries) = (s.eps, s.mem, s.deliveries) := by
  refine State.each_keeps (fun t : State => (t.eps, t.mem, t.deliveries)) (fun t p => ?_) _ s
  dsimp only
  split <;> rfl

theorem State.dropEp_spec (s : State) (k : Nat) : (s.dropEp k).eps = kdel s.eps k ∧ (s.dropEp k).mem.cache = s.mem.cache.filter (· != k) ∧
    (s.dropEp k).deliveries = s.deliveries := by
  unfold State.dropEp
  have h := State.unlist_keeps (({ s with eps := kdel s.eps k } : State).modMem fun m =>
    { m with cache := m.cache.filter (· != k), reading := m.reading.filter (· != k) }) fun h => h == Holder.ep k
  rw [Prod.mk.injEq, Prod.mk.injEq] at h
  obtain ⟨heps, hmem, hdel⟩ := h
  rw [heps, hmem, hdel]
  exact ⟨rfl, rfl, rfl⟩

theorem State.forgetRecovery_keeps (s : State) (k : Nat) :
    (s.forgetRecovery k).eps = s.eps ∧ (s.forgetRecovery k).mem = s.mem ∧ (s.forgetRecovery k).deliveries = s.deliveries := ⟨rfl, rfl, rfl⟩

/-- A closed slot is free, out of the cache, with nothing to deliver; no other slot opens or closes. -/
theorem State.closed_spec (he : s.ep k = some e) : (s.closed k).ep k = none ∧
    (∀ j, j ≠ k → ((s.closed k).ep j).isSome = (s.ep j).isSome) ∧ k ∉ (s.closed k).mem.cache ∧ ∀ y ∈ (s.closed k).deliveries, y.ep ≠ k := by
  obtain ⟨-, hothers, hdel⟩ := State.closeWork_spec he
  obtain ⟨heps, hcache, hdeliveries⟩ := ((s.closeWork k).writeBack k).dropEp_spec k
  have hbare := (s.closeWork k).bare_writeBack k
  obtain ⟨heps', hmem', hdel'⟩ := (((s.closeWork k).writeBack k).dropEp k).forgetRecovery_keeps k
  have hep (j : Nat) : (s.closed k).ep j = if j = k then none else (s.closeWork k).ep j := by
    rw [State.ep, State.closed, heps', heps, kget_kdel, ← State.ep, State.ep_of_bare hbare]
  refine ⟨by rw [hep, if_pos rfl], fun j hj => by rw [hep, if_neg hj, hothers j hj], ?_, ?_⟩
  · rw [State.closed, hmem', hcache]
    simp
  · rw [State.closed, hdel', hdeliveries, State.deliveries_of_core (State.core_of_bare hbare)]
    exact hdel

/-! ### HALT_CLEAR -/

theorem State.shedCmd_eq_false (h : s.pw.acted < 6) : s.shedCmd = false := by simpa [State.shedCmd] using h

theorem execHaltClear_of_running (ho : s.Ordered i slot 0x16 anyForm c) (he : s.epOf i (fld c 80 64) = some (k, e))
    (hshed : s.pw.acted < 6) (hst : e.st = .running) : execHaltClear i slot s = .next (s.replied i slot .cmdOk 0) :=
  carryOut_ends_of_not_seq ho rfl (by simp [he, Ep.away, hst, State.shedCmd_eq_false hshed])

theorem execHaltClear_of_away (ho : s.Ordered i slot 0x16 anyForm c) (he : s.epOf i (fld c 80 64) = some (k, e))
    (hst : e.st = .detached ∨ e.st = .stopped) : execHaltClear i slot s = .next (s.replied i slot .conflict 0) := by
  have haway : e.away = true := by rcases hst with h | h <;> simp [Ep.away, h]
  exact carryOut_ends_of_not_seq ho rfl (by simp [he, haway])

theorem execHaltClear_of_control (ho : s.Ordered i slot 0x16 anyForm c) (he : s.epOf i (fld c 80 64) = some (k, e))
    (hshed : s.pw.acted < 6) (hst : e.st = .halted) (hk : e.kind = .control) :
    execHaltClear i slot s = .next (((s.touch k).unhalted k).replied i slot .cmdOk 0) :=
  carryOut_ends_of_not_seq ho rfl (by simp [he, Ep.away, hst, State.shedCmd_eq_false hshed, State.unhaltConflict, hk])

theorem execHaltClear_of_exchange (ho : s.Ordered i slot 0x16 anyForm c) (he : s.epOf i (fld c 80 64) = some (k, e))
    (hd : s.epDev e = some d) (hshed : s.pw.acted < 6) (hst : e.st = .halted) (hk : e.kind ≠ .control)
    (hsw : (s.port d.port).treeHw = false) (hup : s.branchDown d.pos = false) : execHaltClear i slot s =
      .next (((s.touch k).asking (.unhaltCmd i slot k) d.pos 0 0 [] d.port e.zone d.tier d.ep0Max 0x5C 0x20
        e.epid.toNat 0 0).setPhase i slot .waiting).ended := by
  obtain ⟨m, hm⟩ := s.bare_touch k
  have hdev : (s.touch k).epDev e = some d := (congrArg (fun u : State => u.epDev e) hm :).trans hd
  have htree : ((s.touch k).port d.port).treeHw = false := (congrArg Port.treeHw (State.port_of_bare hm d.port)).trans hsw
  refine carryOut_waits_of_not_seq ho rfl ?_
  simp [he, Ep.away, hst, State.shedCmd_eq_false hshed, State.unhaltConflict_eq hd hk hsw, hup, hk, State.startUnhalt_eq _ hdev htree]

/-! ### SET_DEQUEUE -/

/-- Slots of endpoint `e`'s ring from its head to index `x` (R139). -/
def Ep.ahead (e : Ep) (x : Nat) : Nat := (x + e.ringSize - e.trHead.toNat) % e.ringSize

section
variable (ho : s.Ordered i slot 0x17 anyForm c) (he : s.epOf i (fld c 80 64) = some (k, e)) (hhead : e.trHead.toNat < e.ringSize)
include ho he hhead

theorem execSetDequeue_of_halted (hnew : fld c 111 96 < e.ringSize) (hst : e.st = .halted) (hcur : e.cur = none)
    (hle : e.ahead (fld c 111 96) ≤ e.ahead e.trTail.toNat) : execSetDequeue i slot s =
      .next (((s.touch k).modEp k fun e => { e with trHead := BitVec.ofNat 16 (fld c 111 96) }).replied i slot .cmdOk 0) := by
  refine carryOut_ends_of_not_seq ho rfl ?_
  have hgo : ¬ (e.ringSize ≤ fld c 111 96 ∨ e.ahead e.trTail.toNat < e.ahead (fld c 111 96)) := by omega
  simp only [Ep.ahead] at hgo
  simp [he, Nat.mod_eq_of_lt hhead, hgo, hst, hcur]

theorem execSetDequeue_of_beyond (hlt : e.ahead e.trTail.toNat < e.ahead (fld c 111 96)) :
    execSetDequeue i slot s = .next (s.replied i slot .paramInvalid 0) := by
  refine carryOut_ends_of_not_seq ho rfl ?_
  simp only [Ep.ahead] at hlt
  simp [he, Nat.mod_eq_of_lt hhead, hlt]

theorem execSetDequeue_of_not_halted (hnew : fld c 111 96 < e.ringSize) (hst : e.st ≠ .halted)
    (hle : e.ahead (fld c 111 96) ≤ e.ahead e.trTail.toNat) : execSetDequeue i slot s = .next (s.replied i slot .conflict 0) := by
  refine carryOut_ends_of_not_seq ho rfl ?_
  have hgo : ¬ (e.ringSize ≤ fld c 111 96 ∨ e.ahead e.trTail.toNat < e.ahead (fld c 111 96)) := by omega
  simp only [Ep.ahead] at hgo
  simp [he, Nat.mod_eq_of_lt hhead, hgo, hst]

end

/-! ### RESET_ENDPOINT -/

theorem Ep.away_eq_false (hst : e.st = .running ∨ e.st = .halted) : e.away = false := by
  rcases hst with h | h <;> simp [Ep.away, h]

theorem execResetEndpoint_of_control (ho : s.Ordered i slot 0x15 anyForm c) (he : s.epOf i (fld c 80 64) = some (k, e))
    (hshed : s.pw.acted < 6) (hst : e.st = .running ∨ e.st = .halted) (hk : e.kind = .control) (hwait : s.midWait (.ep k) = false) :
    execResetEndpoint i slot s =
      .next (((((s.touch k).stopEp k .stopped).endSlot k .stopped).unhalted k).replied i slot .cmdOk 0) :=
  carryOut_ends_of_not_seq ho rfl
    (by simp [he, Ep.away_eq_false hst, State.shedCmd_eq_false hshed, State.unhaltConflict, hk, hwait])

theorem execResetEndpoint_of_down (ho : s.Ordered i slot 0x15 anyForm c) (he : s.epOf i (fld c 80 64) = some (k, e))
    (hd : s.epDev e = some d) (hk : e.kind ≠ .control) (hsw : (s.port d.port).treeHw = false) (hdown : s.branchDown d.pos = true) :
    execResetEndpoint i slot s = .next (s.replied i slot .conflict 0) :=
  carryOut_ends_of_not_seq ho rfl (by simp [he, State.unhaltConflict_eq hd hk hsw, hdown])

/-- The work of endpoint `k` stopped by RESET_ENDPOINT, its context used first (R102). -/
def State.resetWork (s : State) (k : Nat) : State := ((s.touch k).stopEp k .stopped).endSlot k .stopped

/-- The stop of a reset leaves devices and ports' tree power, and of the endpoint a context with nothing in progress. -/
theorem State.resetWork_spec (hep : s.ep k = some e) :
    (s.resetWork k).devs = s.devs ∧ (∀ p, ((s.resetWork k).port p).treeHw = (s.port p).treeHw) ∧
      ∃ x, (s.resetWork k).ep k = some x ∧ x.cur = none ∧
        (e.cur = none ∨ s.canWrite e.inst = true → x.trHead = if e.cur.isSome then e.advance.trHead else e.trHead) := by
  obtain ⟨m, hm⟩ := s.bare_touch k
  have hstop := (s.touch k).stopped_stopEp .stopped ((State.ep_of_bare hm k).trans hep)
  have hslot : (s.resetWork k).core = ((s.touch k).stopEp k .stopped).core := State.core_endSlot ..
  obtain ⟨x, hx, hcur, hhead⟩ := hstop.self
  obtain ⟨r, hr⟩ := State.ep_of_unbound (((s.touch k).stopEp k .stopped).unbound_endSlot k .stopped) hx
  have hwrite : (s.touch k).canWrite e.inst = s.canWrite e.inst := (State.canWrite_of_core (State.core_of_bare hm) e.inst :)
  refine ⟨?_, fun p => ?_, _, hr, hcur, fun h => hhead (by rwa [hwrite])⟩
  · exact (State.devs_of_core hslot).trans (hstop.devs.trans (State.devs_of_core (State.core_of_bare hm) :))
  · exact (congrArg Port.treeHw (State.port_of_core hslot p)).trans
      ((hstop.treeHw p).trans (congrArg Port.treeHw (State.port_of_bare hm p)))

theorem execResetEndpoint_of_exchange (ho : s.Ordered i slot 0x15 anyForm c) (he : s.epOf i (fld c 80 64) = some (k, e))
    (hd : s.epDev e = some d) (hshed : s.pw.acted < 6) (hst : e.st = .running ∨ e.st = .halted) (hk : e.kind ≠ .control)
    (hsw : (s.port d.port).treeHw = false) (hup : s.branchDown d.pos = false) (hwait : s.midWait (.ep k) = false) :
    execResetEndpoint i slot s = .next (((s.resetWork k).asking (.unhaltCmd i slot k) d.pos 0 0 [] d.port e.zone d.tier d.ep0Max 0x5C 0x20
      e.epid.toNat 0 0).setPhase i slot .waiting).ended := by
  obtain ⟨hdevs, htree, -⟩ := State.resetWork_spec (State.epOf_spec he).1
  have hdev : (s.resetWork k).epDev e = some d := (congrArg (kget · e.zone) hdevs).trans hd
  have hstart := State.startUnhalt_eq (.unhaltCmd i slot k) hdev ((htree d.port).trans hsw)
  refine carryOut_waits_of_not_seq ho rfl ?_
  rw [← hstart]
  simp [he, Ep.away_eq_false hst, State.shedCmd_eq_false hshed, State.unhaltConflict_eq hd hk hsw, hup, hwait, hk, State.resetWork]

/-- Settles O37: each command outside the sequencer is answered with its body's reply. -/
theorem endpointCommands : Obligations.EndpointCommands := by
  intro s i slot c k e d hshed he hd
  obtain ⟨hep, hinst⟩ := State.epOf_spec he
  refine ⟨fun ho hring hblock h85 h86 h87 herr hat => ?_,
    fun ho => ⟨fun harmed => ?_, fun harmed hwait hcan => ?_⟩, fun ho hst => ⟨fun hk hwait => ?_, fun hk hsw => ⟨fun hup hwait => ?_, fun hdown => ?_⟩⟩,
    fun ho => ⟨fun hst => ?_, fun hst hk => ?_, fun hst hk hsw hup => ?_, fun hst => ?_⟩,
    fun ho hhead htail hnew => ⟨fun hst hcur hle => ?_, fun hlt => ?_, fun hst hle => ?_⟩⟩
  · exact ⟨fun h81 h82 => execModifyEndpoint_kept ho he hd hring hblock h85 h86 h87 herr hat h81 h82,
      fun h81 h82 hk hconv hsched q hbook =>
        execModifyEndpoint_booked ho he hd hring hblock h85 h86 h87 herr hat h81 h82 hk hconv hsched hbook⟩
  · exact execCloseEndpoint_of_armed ho he harmed
  · obtain ⟨⟨x, hx, hhead⟩, -⟩ := State.closeWork_spec hep
    refine ⟨s.closed k, ?_, State.closed_spec hep⟩
    have hexec : exec (.closeEndpoint i slot) s = _ := execCloseEndpoint_eq ho he harmed hwait
    rw [hexec, hx, Option.map_some, Option.getD_some, hhead (by rwa [hinst])]
    split <;> rfl
  · obtain ⟨-, -, hself⟩ := State.resetWork_spec hep
    rw [hinst] at hself
    exact ⟨execResetEndpoint_of_control ho he hshed hst hk hwait, hself⟩
  · exact execResetEndpoint_of_exchange ho he hd hshed hst hk hsw hup hwait
  · exact execResetEndpoint_of_down ho he hd hk hsw hdown
  · exact execHaltClear_of_running ho he hshed hst
  · exact execHaltClear_of_control ho he hshed hst hk
  · exact execHaltClear_of_exchange ho he hd hshed hst hk hsw hup
  · exact execHaltClear_of_away ho he hst
  · exact execSetDequeue_of_halted ho he hhead hnew hst hcur hle
  · exact execSetDequeue_of_beyond ho he hhead hlt
  · exact execSetDequeue_of_not_halted ho he hhead hnew hst hle

end Sys2Proof.Machine
end

section
/-!
SUPPORT. Operations that report: they change endpoint contexts, commits, items, gates and the snag log at most, and take back nothing that
has left the block.
-/
namespace Sys2Proof.Machine

/-- `t` differs from `s` in contexts, commits, the dispatcher, the snag log and what has been reported at most, and all that had left the
block at `s` has left it at `t`. -/
def State.Reports (s t : State) : Prop := t.core = s.core ∧ s.Adds t

theorem State.Reports.refl (s : State) : s.Reports s := ⟨rfl, .refl s⟩

theorem State.Reports.of_core {s t : State} (h : t.core = s.core) (hout : t.out = s.out) : s.Reports t := ⟨h, .of_eq hout⟩

theorem State.Reports.of_bare {s t : State} (h : t.bare = s.bare) (hout : s.Adds t) : s.Reports t := ⟨State.core_of_bare h, hout⟩

theorem State.Reports.trans {s t u : State} (h : s.Reports t) (h' : t.Reports u) : s.Reports u := ⟨h'.1.trans h.1, h.2.trans h'.2⟩

theorem State.Reports.ite {c : Prop} [Decidable c] {s t u : State} (ht : s.Reports t) (hu : s.Reports u) : s.Reports (if c then t else u) := by
  split
  · exact ht
  · exact hu

theorem State.Reports.each {α : Type} {f : State → α → State} (h : ∀ t a, State.Reports t (f t a)) (l : List α) (s : State) :
    s.Reports (s.each l f) := by
  induction l generalizing s with
  | nil => exact .refl s
  | cons a l ih => exact (h s a).trans (ih (f s a))

variable (s : State)

theorem State.reports_count (o : Occ) : s.Reports (s.count o) := .of_bare (s.bare_count o) (s.adds_count o)
theorem State.reports_postWait (i : InstNo) (w : WaitEvt) : s.Reports (s.postWait i w) := .of_bare (s.bare_postWait i w) (s.adds_postWait i w)
theorem State.reports_hostWrite (i : InstNo) (a : Nat) (bs : List Byte) : s.Reports (s.hostWrite i a bs) :=
  .of_bare (State.bare_hostWrite _ _ _ _) (s.adds_hostWrite i a bs)
theorem State.reports_modEp (k : Nat) (f : Ep → Ep) : s.Reports (s.modEp k f) := .of_core rfl rfl
theorem State.reports_modDisp (f : Disp → Disp) : s.Reports (s.modDisp f) := .of_core rfl rfl
theorem State.reports_takeId : s.Reports s.takeId := .of_core rfl rfl

/-! ### The dispatcher -/

theorem State.reports_traceWrite (r : TraceRec) : s.Reports (s.traceWrite r) :=
  (s.reports_hostWrite 0 _ _).trans (State.reports_modDisp _ _)

theorem State.reports_traceLost : s.Reports s.traceLost :=
  .ite (.refl s) ((s.reports_traceWrite _).trans (State.reports_modDisp _ _))

theorem State.reports_trace (r : TraceRec) : s.Reports (s.trace r) :=
  .ite (.refl s) (.ite (.refl s) (s.reports_traceLost.trans (.ite (State.reports_traceWrite _ r) (State.reports_modDisp _ _))))

theorem State.reports_pushItem (k : Nat) (x : Item) : s.Reports (s.pushItem k x) := .of_core rfl rfl

theorem State.reports_parkItem (k : Nat) (x : Item) : s.Reports (s.parkItem k x) := (s.reports_modDisp _).trans (State.reports_trace _ _)

theorem State.reports_itemReady (k : Nat) : s.Reports (s.itemReady k) := by
  unfold State.itemReady
  split
  · exact .refl s
  · exact s.reports_takeId.trans ((State.reports_trace _ _).trans (.ite (State.reports_parkItem _ _ _) (State.reports_pushItem _ _ _)))

theorem State.reports_gateZero (g : Nat) (x : Gate) : s.Reports (s.gateZero g x) := by
  unfold State.gateZero
  dsimp only
  split
  · exact (s.reports_trace _).trans (State.reports_itemReady _ _)
  · exact s.reports_trace _

theorem State.reports_gateDec (i : InstNo) (g : Nat) (c : Option Nat) : s.Reports (s.gateDec i g c) := by
  have hstray : s.Reports (s.modInst i fun n => { n with gateStrays := satInc n.gateStrays }) :=
    .of_core (State.core_of_undispatched (s.undispatched_strayDec i)) rfl
  unfold State.gateDec
  split
  · exact (s.reports_modDisp _).trans (State.reports_count _ _)
  · split
    · refine .ite ?_ hstray
      exact ((s.reports_modDisp _).trans (State.reports_count _ _)).trans (.ite (State.reports_gateZero _ _ _) (.refl _))
    · exact hstray

theorem State.reports_passHead (i : InstNo) (h : HeadOf) : s.Reports (s.passHead i h) := by
  cases h with
  | none => exact .refl s
  | transfer k => exact s.reports_modEp k _
  | command slot =>
    have hretire : s.Reports (s.modInst i (·.retire slot)) := .of_bare (State.bare_modInst _ _ _ rfl) (s.adds_modInst i _)
    exact hretire.trans (.ite (.of_core rfl rfl) (.refl _))

theorem State.reports_after (i : InstNo) (w : WaitEvt) : s.Reports (s.after i w) := by
  have hitem (u : State) (k : Option Nat) : u.Reports (match k with
      | some k => u.itemReady k
      | none => u) := by
    cases k with
    | none => exact .refl u
    | some k => exact u.reports_itemReady k
  unfold State.after
  refine (s.reports_passHead i w.head).trans ?_
  cases w.gate with
  | none => exact hitem _ _
  | some g => exact (State.reports_gateDec _ i g none).trans (hitem _ _)

/-- A completion's event, and what its write brings about, or the wait of it (R92, R125). -/
theorem State.reports_write (i : InstNo) (w : WaitEvt) :
    s.Reports (if s.canWrite i then (s.postWait i w).after i w else s.postWait i w) :=
  .ite ((s.reports_postWait i w).trans (State.reports_after _ i w)) (s.reports_postWait i w)

/-! ### Transfer entries, commits and commands -/

theorem State.reports_completeAt (k : Nat) (st : Status) (stamp : Nat) : s.Reports (s.completeAt k st stamp) := by
  refine ⟨s.core_completeAt k st stamp, ?_⟩
  have hring (u : State) (i : InstNo) (e : RingNo) (f : EvtRing → EvtRing) : u.Adds (u.modRing i e f) := .of_eq rfl
  have hset (x : Ep) : s.Adds (s.setEp k x) := .of_eq rfl
  have hitem (u : State) (f : Disp → Disp) : u.Adds (u.modDisp f) := .of_eq rfl
  have hdrop (u : State) (a : Nat) : u.Adds (u.dropItem a) := .of_eq rfl
  have hend (u : State) (i : InstNo) (e : RingNo) (w : WaitEvt) (c : Bool) : u.Adds (if c then (u.unreserve i e).after i w
      else if u.canWrite i then (u.postWait i w).after i w else u.postWait i w) :=
    .ite ((u.adds_unreserve i e).trans (State.reports_after _ i w).2) (u.reports_write i w).2
  unfold State.completeAt
  split
  · exact .refl s
  · next e he =>
    split
    · exact .refl s
    · next x hx =>
      dsimp only
      cases x.item with
      | none => exact .ite ((hset _).trans (hring _ _ _ _)) ((hset _).trans (hend _ _ _ _ _))
      | some a =>
        exact .ite ((hset _).trans ((hring _ _ _ _).trans (hdrop _ _))) ((hset _).trans ((hitem _ _).trans (hend _ _ _ _ _)))

theorem State.reports_complete (k : Nat) (st : Status) : s.Reports (s.complete k st) := s.reports_completeAt k st s.stamp

theorem State.reports_endCommit (n : Nat) (c : Commit) (st : Status) : s.Reports (s.endCommit n c st) := by
  refine ⟨s.core_endCommit n c st, ?_⟩
  have hmod (t : State) (x : CSlot) (f : Ep → Ep) : t.Adds (t.modEp x.ep f) := .of_eq rfl
  have hunbind : s.Adds (s.unbind n c) := State.Adds.each (fun t x => hmod t x _) c.slots s
  have hdel (u : State) : u.Adds ({ u with commits := kdel u.commits n } : State) := .of_eq rfl
  unfold State.endCommit
  exact hunbind.trans ((hdel _).trans (State.adds_post _ _ _ _ _))

theorem State.reports_putCommit (n : Nat) (c : Commit) : s.Reports (s.putCommit n c) := by
  have hset : s.Reports ({ s with commits := kset s.commits n c } : State) := .of_core rfl rfl
  exact hset.trans (.ite (State.reports_endCommit _ _ _ _) (.refl _))

theorem State.reports_endSlot (k : Nat) (st : Status) : s.Reports (s.endSlot k st) := by
  unfold State.endSlot
  split
  · exact .refl s
  · exact s.reports_putCommit _ _

theorem State.reports_finish (i : InstNo) (slot : BitVec 16) (st : Status) (r : Nat) : s.Reports (s.finish i slot st r) := by
  unfold State.finish
  split
  · exact .refl s
  · next c hc =>
    have hcmds : s.Reports (s.modInst i fun n => { n with cmds := n.cmds.filter fun c => c.slot != slot }) :=
      .of_bare (State.bare_modInst _ _ _ rfl) (s.adds_modInst i _)
    exact hcmds.trans (.trans (.ite (.refl _) (State.reports_count _ _)) (State.reports_write _ i _))

theorem State.reports_settlePort (p : PortNo) : s.Reports (s.settlePort p) := by
  refine .each (fun t i => .each (fun u c => ?_) _ t) _ s
  split
  · split
    · exact u.reports_finish _ _ _ _
    · exact .refl u
  · exact .refl u

end Sys2Proof.Machine
end

section
/-!
SUPPORT. The steps of a subframe tick as one port sees them (R26, R162): on a port that stays in service none of them moves the clock or
takes back what has been sent, and each keeps what is told of the port.
-/
namespace Sys2Proof.Machine

/-- The timer's clock, and what tells whether the controller keeps time. -/
def State.beat (s : State) : Nat × BitVec 64 × Bool × Mode × Bool := (s.pl.subN, s.pl.cycle, s.pl.cutDone, s.pw.mode, s.pw.halted)

/-- An ENABLED port with neither a suspend nor a downshift before it. -/
def Port.Steady (x : Port) : Prop := x.st = .enabled ∧ x.suspendPending = false ∧ x.downshift = false

/-- From `s` to `t` nothing that was sent is taken back, the clock and the mode stand, and if port `p` is steady, it stays so and `g` tells
the same of it. -/
def State.InStep {α : Type} (g : Port → α) (p : PortNo) (s t : State) : Prop :=
  s.Adds t ∧ t.beat = s.beat ∧ ((s.port p).Steady → g (t.port p) = g (s.port p) ∧ (t.port p).Steady)

section
variable {α : Type} {g : Port → α} {p : PortNo} {s t u : State}

theorem State.InStep.refl (s : State) : State.InStep g p s s := ⟨.refl s, rfl, fun hs => ⟨rfl, hs⟩⟩

theorem State.InStep.trans (h : State.InStep g p s t) (h' : State.InStep g p t u) : State.InStep g p s u := by
  obtain ⟨hout, hbeat, hport⟩ := h
  obtain ⟨hout', hbeat', hport'⟩ := h'
  refine ⟨hout.trans hout', hbeat'.trans hbeat, fun hs => ?_⟩
  obtain ⟨hg, ht⟩ := hport hs
  obtain ⟨hg', hu⟩ := hport' ht
  exact ⟨hg'.trans hg, hu⟩

theorem State.InStep.ite {c : Prop} [Decidable c] (ht : State.InStep g p s t) (hu : State.InStep g p s u) :
    State.InStep g p s (if c then t else u) := by
  split
  · exact ht
  · exact hu

theorem State.InStep.each {β : Type} {f : State → β → State} (h : ∀ t b, State.InStep g p t (f t b)) (l : List β) (s : State) :
    State.InStep g p s (s.each l f) := by
  induction l generalizing s with
  | nil => exact .refl s
  | cons b l ih => exact (h s b).trans (ih (f s b))

/-- The same for a loop over some of the values. -/
theorem State.InStep.each_mem {β : Type} {f : State → β → State} {l : List β} (h : ∀ t, ∀ b ∈ l, State.InStep g p t (f t b)) (s : State) :
    State.InStep g p s (s.each l f) := by
  induction l generalizing s with
  | nil => exact .refl s
  | cons b l ih =>
    exact (h s b List.mem_cons_self).trans (ih (fun t b' hb' => h t b' (List.mem_cons_of_mem _ hb')) (f s b))

theorem State.InStep.of_port (hout : s.Adds t) (hbeat : t.beat = s.beat) (hport : t.port p = s.port p) : State.InStep g p s t :=
  ⟨hout, hbeat, fun hs => ⟨by rw [hport], by rwa [hport]⟩⟩

/-- What a step that serves port `q` does may turn on that port being steady. -/
theorem State.InStep.of_steady {q : PortNo} (h : ∀ p, (q = p → (s.port p).Steady) → State.InStep g p s t) (p : PortNo) :
    State.InStep g p s t := by
  obtain ⟨p', hp'⟩ := exists_ne q
  obtain ⟨hout, hbeat, -⟩ := h p' fun hq => absurd hq.symm hp'
  refine ⟨hout, hbeat, fun hs => ?_⟩
  obtain ⟨-, -, hport⟩ := h p fun _ => hs
  exact hport hs

theorem State.beat_of_core (h : t.core = s.core) : t.beat = s.beat := by
  have hbeat (v : State) : v.core.beat = v.beat := rfl
  rw [← hbeat t, h, hbeat s]

theorem State.InStep.of_reports (h : s.Reports t) : State.InStep g p s t :=
  .of_port h.2 (State.beat_of_core h.1) (State.port_of_core h.1 p)

theorem State.InStep.of_bare (h : t.bare = s.bare) (hout : s.Adds t) : State.InStep g p s t := .of_reports (.of_bare h hout)

/-- Another port changes. -/
theorem State.InStep.modPort_ne (s : State) {q : PortNo} (hq : q ≠ p) (f : Port → Port) : State.InStep g p s (s.modPort q f) :=
  .of_port (.of_eq rfl) rfl ((State.modPort_port ..).trans (if_neg (Ne.symm hq)))

/-- Any port changes in what neither `g` nor its steadiness tells. -/
theorem State.InStep.modPort (s : State) (q : PortNo) {f : Port → Port} (hg : ∀ x, g (f x) = g x) (hst : ∀ x : Port, x.Steady → (f x).Steady) :
    State.InStep g p s (s.modPort q f) := by
  by_cases hq : q = p
  · subst hq
    have hp : (s.modPort q f).port q = f (s.port q) := (State.modPort_port ..).trans (if_pos rfl)
    exact ⟨.of_eq rfl, rfl, fun hs => ⟨by rw [hp, hg], by rw [hp]; exact hst _ hs⟩⟩
  · exact State.InStep.modPort_ne s hq f

/-- What the clock, the mode, the ports and the outputs do not turn on changes. -/
theorem State.InStep.of_fields (hout : t.out = s.out) (hpl : t.pl = s.pl) (hpw : t.pw = s.pw) (hports : t.ports = s.ports) :
    State.InStep g p s t :=
  .of_port (.of_eq hout) (by simp only [State.beat, hpl, hpw]) (by simp only [State.port, hports])

end

section
variable {α : Type} (g : Port → α) (p : PortNo) (s : State)

theorem State.inStep_modEp (k : Nat) (f : Ep → Ep) : State.InStep g p s (s.modEp k f) := .of_fields rfl rfl rfl rfl
theorem State.inStep_modTrowel (k : TrowelNo) (f : Trowel → Trowel) : State.InStep g p s (s.modTrowel k f) := .of_fields rfl rfl rfl rfl
theorem State.inStep_modInst (i : InstNo) (f : Inst → Inst) : State.InStep g p s (s.modInst i f) := .of_fields rfl rfl rfl rfl
theorem State.inStep_modTree (f : Tree → Tree) : State.InStep g p s (s.modTree f) := .of_fields rfl rfl rfl rfl
theorem State.inStep_modDisp (f : Disp → Disp) : State.InStep g p s (s.modDisp f) := .of_fields rfl rfl rfl rfl
theorem State.inStep_modCnt (f : Cnt → Cnt) : State.InStep g p s (s.modCnt f) := .of_fields rfl rfl rfl rfl
theorem State.inStep_modChan (c : ChanNo) (f : Chan → Chan) : State.InStep g p s (s.modChan c f) := .of_fields rfl rfl rfl rfl
theorem State.inStep_modMem (f : Mems → Mems) : State.InStep g p s (s.modMem f) := .of_fields rfl rfl rfl rfl
theorem State.inStep_emit (o : Out) : State.InStep g p s (s.emit o) := .of_port (s.adds_emit o) rfl rfl
theorem State.inStep_ended : State.InStep g p s s.ended := .of_bare s.bare_ended s.adds_ended
theorem State.inStep_endSlot (k : Nat) (st : Status) : State.InStep g p s (s.endSlot k st) := .of_reports (s.reports_endSlot k st)

/-! ### Ports other than `p` -/

theorem State.inStep_unpick (h : Holder) : State.InStep g p s (s.unpick h) := by
  cases h with
  | ep x => exact s.inStep_modEp g p _ _
  | own q => exact s.inStep_modTree g p _
  | hub z => exact .refl s

theorem State.inStep_withdraw {q : PortNo} (hq : q ≠ p) : State.InStep g p s (s.withdraw q) := by
  have hback (l : List Txn) (u : State) : State.InStep g p u (u.each l fun s t => s.unpick t.who) :=
    .each (fun v t => v.inStep_unpick g p t.who) l u
  refine (State.InStep.modPort_ne s hq _).trans ((hback _ _).trans (.each (fun t k => ?_) _ _))
  exact .ite (.refl t) ((t.inStep_modTrowel g p k _).trans (hback _ _))

theorem State.inStep_flag {q : PortNo} (hq : q ≠ p) (bit : Nat) : State.InStep g p s (s.flag q bit) :=
  .ite (.refl s) ((State.InStep.modPort_ne s hq _).trans (.of_bare (State.bare_postPort _ q) (State.adds_postPort _ q)))

theorem State.inStep_setPortSt {q : PortNo} (hq : q ≠ p) (st : PortState) (sr : Bool) : State.InStep g p s (s.setPortSt q st sr) := by
  have hflag (c : Bool) (u : State) (bit : Nat) : State.InStep g p u (if c then u.flag q bit else u) :=
    .ite (u.inStep_flag g p hq bit) (.refl u)
  have hleave (c : Bool) (u : State) (f : Port → Port) : State.InStep g p u (if c then (u.withdraw q).modPort q f else u) :=
    .ite ((u.inStep_withdraw g p hq).trans (State.InStep.modPort_ne _ hq f)) (.refl u)
  unfold State.setPortSt
  exact (State.InStep.modPort_ne s hq _).trans ((hleave _ _ _).trans ((hflag _ _ _).trans ((hflag _ _ _).trans
    (.of_reports (State.reports_settlePort _ q)))))

theorem State.inStep_backEnabled {q : PortNo} (hq : q ≠ p) : State.InStep g p s (s.backEnabled q) := by
  have hzero (u : State) : State.InStep g p u (u.zeroDeficits q) := .each (fun t i => .ite (.refl t) (t.inStep_modInst g p i _)) _ u
  unfold State.backEnabled
  exact (s.inStep_setPortSt g p hq _ _).trans ((hzero _).trans (State.InStep.modPort_ne _ hq _))

theorem State.inStep_resumeEarly {q : PortNo} (hq : q ≠ p) : State.InStep g p s (s.resumeEarly q) :=
  .ite (s.inStep_backEnabled g p hq) (State.InStep.modPort_ne s hq _)

theorem State.inStep_startResume {q : PortNo} (hq : q ≠ p) : State.InStep g p s (s.startResume q) :=
  (s.inStep_setPortSt g p hq _ _).trans (State.inStep_emit g p _ _)

/-! ### The tree and the work that waits for it -/

theorem State.inStep_treeAct (cmd : Option (InstNo × BitVec 16)) (hub hport action : Nat) :
    State.InStep g p s (s.treeAct cmd hub hport action) := by
  have hask (u : State) (proc z req tgt sel arg xlen : Nat) : State.InStep g p u (u.ask proc z req tgt sel arg xlen) := by
    unfold State.ask
    split
    · exact .of_fields rfl rfl rfl rfl
    · exact .refl u
  have hnew (u : State) (pu : Purpose) (q : Pos) (todo : List (Nat × Nat)) : State.InStep g p u (u.newProc pu q 1 0 todo).1 :=
    .of_fields rfl rfl rfl rfl
  have hport' (u : State) (x : Nat) (f : HPort → HPort) : State.InStep g p u (u.modHPort hub x f) := .of_fields rfl rfl rfl rfl
  have hmove (u : State) (l : List Nat) : State.InStep g p u
      (u.each l fun s x => s.modHPort hub x fun y => { y with moving := true }) :=
    .each (fun t x => hport' t x _) l u
  unfold State.treeAct
  split
  · exact .refl s
  · exact (hnew s _ _ _).trans ((hmove _ _).trans (hask _ _ _ _ _ _ _ _))

/-- On a steady port the wake of a branch is a hub's affair (R255). -/
theorem State.inStep_wakeBranch (q : Pos) : State.InStep g p s (s.wakeBranch q) := by
  refine State.InStep.of_steady (q := q.port) (fun p hp => ?_) p
  have hother (h : ¬ (s.port q.port).Steady) : q.port ≠ p := fun hq => h (hq ▸ hp hq)
  unfold State.wakeBranch
  refine .ite (.refl s) ?_
  dsimp only
  split
  · split
    · next hpending =>
      have hq := hother fun h => by simp [h.2.1] at hpending
      exact (State.InStep.modPort_ne s hq _).trans (.of_reports (State.reports_settlePort _ _))
    · split
      · exact .ite (.refl s) (s.inStep_treeAct g p _ _ _ _)
      · exact .refl s
  · next hst => exact s.inStep_resumeEarly g p (hother fun h => by simp [h.1] at hst)
  · next hst => exact s.inStep_startResume g p (hother fun h => by simp [h.1] at hst)
  · exact .refl s

theorem State.inStep_wakeWork (q : PortNo) : State.InStep g p s (s.wakeWork q) :=
  .ite (.refl s) (.each (fun t x => .ite (t.inStep_wakeBranch g p x) (.refl t)) _ s)

theorem State.inStep_recoverWhenUp : State.InStep g p s s.recoverWhenUp := .each (fun t k => t.inStep_modEp g p k _) _ s

theorem State.inStep_cycleEnds : State.InStep g p s s.cycleEnds := by
  have hinst (u : State) (i : InstNo) (c : Bool) (f : Inst → Inst) : State.InStep g p u (if c then u else u.modInst i f) :=
    .ite (.refl u) (u.inStep_modInst g p i f)
  have hsettle : State.InStep g p s s.settleCtrs := (s.inStep_modCnt g p _).trans (.each (fun t i => hinst t i _ _) _ _)
  exact hsettle.trans ((State.inStep_modDisp g p _ _).trans (.each (fun t c => .ite (.refl t) (t.inStep_modChan g p c _)) _ _))

/-! ### What a port does at the tick -/

theorem State.inStep_suspendEnter (q : PortNo) : State.InStep g p s (s.suspendEnter q) := by
  refine State.InStep.of_steady (q := q) (fun p hp => ?_) p
  unfold State.suspendEnter
  split
  · next hpending =>
    have hq : q ≠ p := fun hq => by simp [hq, (hp hq).2.1] at hpending
    exact (s.inStep_modTree g p _).trans (State.inStep_setPortSt g p _ hq _ _)
  · exact .refl s

theorem State.inStep_shiftDown (q : PortNo) : State.InStep g p s (s.shiftDown q) := by
  refine State.InStep.of_steady (q := q) (fun p hp => ?_) p
  unfold State.shiftDown
  split
  · next hdown =>
    have hq : q ≠ p := fun hq => by simp [hq, (hp hq).2.2] at hdown
    exact (State.InStep.modPort_ne s hq _).trans (State.inStep_flag g p _ hq _)
  · exact .refl s

theorem State.inStep_handOver (q : PortNo) (n : Nat) : State.InStep g p s (s.handOver q n) := by
  have hpass (k j : TrowelNo) : State.InStep g p s (s.passPort q k j) := (s.inStep_modTrowel g p k _).trans (State.inStep_modTrowel g p _ j _)
  have htake : State.InStep g p s (s.takeHolder q) := by
    unfold State.takeHolder
    refine .ite (.refl s) (.ite (s.inStep_modTrowel g p _ _) ?_)
    split
    · exact s.inStep_modTrowel g p _ _
    · exact .refl s
  unfold State.handOver
  refine .ite (.refl s) ?_
  dsimp only
  split
  · exact htake
  · refine .ite (hpass _ _) (.ite (.refl s) ?_)
    split
    · exact hpass _ _
    · exact .refl s

theorem State.inStep_beginSpan {q : PortNo} (hq : q ≠ p) (n : Nat) : State.InStep g p s (s.beginSpan q n) := by
  have hsend (u : State) (bs : List Byte) (f : Port → Port) : State.InStep g p u ((u.send q bs).modPort q f) :=
    (u.inStep_emit g p _).trans (State.InStep.modPort_ne _ hq f)
  unfold State.beginSpan
  refine .ite (.refl s) (.ite (State.InStep.modPort_ne s hq _) (.ite (.refl s) ?_))
  exact (State.InStep.ite (s.inStep_emit g p _) (.refl s)).trans (hsend _ _ _)

theorem State.inStep_unserve (n : Nat) : State.InStep g p s (s.unserve n) :=
  .each (fun t _ => .each (fun u _ => u.inStep_endSlot g p _ _) _ t) _ s

theorem State.inStep_rotatePins (n : Nat) : State.InStep g p s (s.rotatePins n) := s.inStep_modMem g p _

theorem State.inStep_openTick : State.InStep g p s s.openTick := .ite (.of_fields rfl rfl rfl rfl) (.refl s)

theorem State.inStep_countTick : State.InStep g p s s.countTick := by
  have hinst (u : State) (i : InstNo) (c : Bool) (f : Inst → Inst) : State.InStep g p u (if c then u.modInst i f else u) :=
    .ite (u.inStep_modInst g p i f) (.refl u)
  unfold State.countTick
  exact (State.InStep.each (fun t i => hinst t i _ _) allInsts s).trans (State.inStep_modDisp g p _ _)

theorem State.inStep_tickWaits : State.InStep g p s s.tickWaits := by
  refine .each (fun t c => ?_) _ s
  split
  · exact .ite (t.inStep_modChan g p c _) (.refl t)
  · exact .refl t

end

/-! ### Before a port's span begins -/

/-- What the beginning of a port's span turns on. -/
def Port.due (x : Port) : Speed × Speed × SosfHold × List Holder := (x.speed, x.spanSpeed, x.sosfHold, x.list)

section
variable (p : PortNo) (s : State)

theorem State.inStep_noteMiss (q : PortNo) (h : Holder) : State.InStep Port.due p s (s.noteMiss q h) := by
  have hcount (u : State) (o : Occ) : State.InStep Port.due p u (u.count o) := .of_reports (u.reports_count o)
  have hmiss : State.InStep Port.due p s (s.modPort q fun x => { x with svcMissed := satInc x.svcMissed }) :=
    State.InStep.modPort s q (fun _ => rfl) fun _ h => h
  have hcounted (o : Occ) := hmiss.trans (hcount _ o)
  unfold State.noteMiss
  cases h with
  | own z => exact hcounted _
  | hub z => exact hcounted _
  | ep k =>
    dsimp only
    split
    · exact hcounted _
    · have hrun (o : Occ) (f : Ep → Ep) := (hcounted o).trans (State.inStep_modEp _ p _ k f)
      refine .ite (hcounted _) (.ite (.ite (hrun _ _) ((hrun _ _).trans (.of_reports (State.reports_complete _ _ _)))) ?_)
      exact .ite ((hrun _ _).trans (State.inStep_modEp _ p _ _ _)) (hrun _ _)

theorem State.inStep_missed (q : PortNo) (h : Holder) : State.InStep Port.due p s (s.missed q h) := by
  unfold State.missed
  refine State.InStep.trans ?_ (State.inStep_noteMiss p _ q h)
  split
  · split
    · exact .ite (.refl s) (s.inStep_endSlot _ p _ _)
    · exact .refl s
  · exact .refl s

theorem State.inStep_endSpan (q : PortNo) (n : Nat) : State.InStep Port.due p s (s.endSpan q n) := by
  have hover : State.InStep Port.due p s (s.noteOverrun q) := State.InStep.modPort s q (fun _ => rfl) fun _ h => h
  have hskim (u : State) : State.InStep Port.due p u (u.modPort q fun x => { x with skim := [] }) :=
    State.InStep.modPort u q (fun _ => rfl) fun _ h => h
  exact .ite (.refl s) ((hover.trans (hskim _)).trans (.each (fun t h => t.inStep_missed p q h) _ _))

end

/-! ### After a port's span has begun -/

/-- What the beginning of a port's span settles. -/
def Port.begun (x : Port) : List Holder × List Holder × SosfHold × Nat × Int × Nat :=
  (x.list, x.skim, x.sosfHold, x.ctrlUsed, x.excess, x.lineAt)

section
variable (p : PortNo) (s : State)

theorem State.inStep_returnTxns (k : TrowelNo) (which : Txn → Bool) : State.InStep Port.begun p s (s.returnTxns k which) := by
  unfold State.returnTxns
  refine (s.inStep_modTrowel _ p k _).trans (.each (fun t y => ?_) _ _)
  exact State.InStep.modPort t _ (fun _ => rfl) fun _ h => h

theorem State.inStep_gateIdle : State.InStep Port.begun p s s.gateIdle := by
  have hdrain (u : State) (k : TrowelNo) : State.InStep Port.begun p u (u.drainTrowel k) :=
    (u.inStep_modTrowel _ p k _).trans (State.inStep_returnTxns p _ _ _)
  exact .ite (.refl s) (.each (fun t k => .ite (hdrain t k) (.refl t)) _ s)

theorem State.inStep_workTick : State.InStep Port.begun p s s.workTick := by
  unfold State.workTick
  exact (State.InStep.each (fun t q => t.inStep_wakeWork _ p q) allPorts s).trans ((State.inStep_recoverWhenUp _ p _).trans
    ((State.inStep_cycleEnds _ p _).trans (State.inStep_gateIdle p _)))

theorem State.inStep_modPl (f : Planner → Planner) (h : ((f s.pl).subN, (f s.pl).cycle, (f s.pl).cutDone) = (s.pl.subN, s.pl.cycle, s.pl.cutDone)) :
    State.InStep Port.begun p s (s.modPl f) := by
  simp only [Prod.mk.injEq] at h
  obtain ⟨hsub, hcycle, hcut⟩ := h
  exact .of_port (.of_eq rfl) (by simp only [State.beat, State.modPl, hsub, hcycle, hcut]) rfl

/-- What falls due at a frame boundary: changed schedules and changes of split (R20, R139, R178). -/
def State.changesDue (s : State) : State :=
  let s : State := { s with eps := s.eps.map fun (k, e) => (k, match e.newSched with
    | some (v, q) => if (s.inst e.inst).waiting.any (·.isCommand) then e else { e with interval := v, phase := q, newSched := none }
    | none => e) }
  s.modPl fun l => { l with splits := l.splits.map fun (x : Split) => { x with due := true } }

theorem State.frameBegins_eq : s.frameBegins = if s.cnt.mtrEnable && !s.cnt.mtrRunning then
    s.changesDue.zeroMeters.modCnt fun c => { c with mtrRunning := true, mtrFrom := s.pl.subN } else s.changesDue := rfl

theorem State.inStep_frameBegins : State.InStep Port.begun p s s.frameBegins := by
  have hdue : State.InStep Port.begun p s s.changesDue := .of_port (.of_eq rfl) rfl rfl
  have hmeters (u : State) : State.InStep Port.begun p u u.zeroMeters := by
    refine .each (fun t q => ?_) _ u
    exact State.InStep.modPort t q (fun _ => rfl) fun _ h => h
  rw [State.frameBegins_eq]
  exact .ite (hdue.trans ((hmeters _).trans (State.inStep_modCnt _ p _ _))) hdue

theorem State.inStep_loseSkim (q : PortNo) : State.InStep Port.begun p s (s.loseSkim q) := by
  refine State.InStep.modPort s q (fun x => ?_) fun x hx => ?_
  · cases x.spanLost <;> rfl
  · cases x.spanLost
    · exact hx
    · exact hx

theorem State.inStep_buildPort (q : PortNo) (n : Nat) (hw : Bool) : State.InStep Port.begun p s (s.buildPort q n hw) := by
  have hbuild : State.InStep Port.begun p s (s.modPort q fun x => { x with building := s.carries q, spanLost := false }) :=
    State.InStep.modPort s q (fun _ => rfl) fun _ hx => hx
  unfold State.buildPort
  dsimp only
  split
  · exact .ite hbuild (hbuild.trans (State.inStep_loseSkim p _ q))
  · refine hbuild.trans (State.InStep.modPort _ q (fun x => ?_) fun x hx => ?_)
    · rfl
    · exact hx

theorem State.inStep_beginBuild (n : Nat) (hw : Bool) : State.InStep Port.begun p s (s.beginBuild n hw) := by
  have hwalk (u : State) (i : InstNo) : State.InStep Port.begun p u (u.beginWalk i n) :=
    .ite ((u.inStep_modInst _ p i _).trans (.of_bare (State.bare_hostRead ..) (State.adds_hostRead ..))) (u.inStep_modInst _ p i _)
  unfold State.beginBuild
  exact (s.inStep_modPl p _ rfl).trans ((State.InStep.each (fun t q => .ite (t.inStep_buildPort p q n hw) (.refl t)) _ _).trans
    (.ite (.refl _) (.each (fun t i => hwalk t i) _ _)))

end

end Sys2Proof.Machine
end

section
/-!
PROOFS. Frames: the tick, a missed commit and the frame-list walk (R25, R26, R162, R180 to R182, R192).
-/
namespace Sys2Proof.Machine

/-! ### The tick as a port sees it -/

/-- A running controller's own count (R25). -/
theorem State.advance_of_isRunning {s : State} (h : s.pw.mode.isRunning = true) (n : Nat) :
    s.advance n = { s with pl := { s.pl with subN := n, cycle := s.pl.cycle + 150000, cutDone := false } } := by
  have hruns : s.lathRuns = true := by rw [State.lathRuns, h, Bool.true_or]
  simp only [State.advance, hruns, if_true, State.modPl]

theorem State.beat_advance {s : State} (h : s.pw.mode.isRunning = true) (n : Nat) :
    (s.advance n).beat = (n, s.pl.cycle + 150000, false, s.pw.mode, s.pw.halted) := by
  rw [State.advance_of_isRunning h]
  rfl

/-- The spans that begin at tick `n`, and what follows from them. -/
def State.opens (s : State) (n : Nat) : State := (s.each allPorts fun t q => t.beginSpan q n).unserve n |>.rotatePins n

/-- All that follows the ports' part of tick `n`. -/
def State.tickEnds (s : State) (n : Nat) : State :=
  let s := (if n % 8 = 0 then s.frameBegins else s).openTick.workTick
  (s.beginBuild (n + 1) s.buildMode).countTick.tickWaits.ended

/-- What goes before the count. -/
def State.spansEnd (s : State) (n : Nat) : State := s.each allPorts fun t q => t.endSpan q n

/-- What goes before the spans that begin. -/
def State.portsReady (s : State) (n : Nat) : State :=
  (s.each allPorts fun t q => (t.suspendEnter q).shiftDown q).each allPorts fun t q => t.handOver q n

theorem State.exec_subframeTick {s : State} (hmode : s.pw.mode.isRunning = true) (hhalt : s.pw.halted = false) :
    exec .subframeTick s = .next (((((s.spansEnd (s.pl.subN + 1)).advance (s.pl.subN + 1)).portsReady (s.pl.subN + 1)).opens
      (s.pl.subN + 1)).tickEnds (s.pl.subN + 1)) := by
  have hcond : (!s.pw.mode.isRunning && s.pw.mode != .standby) = false := by rw [hmode]; rfl
  show execSubframeTick s = _
  rw [execSubframeTick, hcond, hhalt]
  rfl

section
variable (p : PortNo) (s : State) (n : Nat)

theorem State.inStep_spansEnd : State.InStep Port.due p s (s.spansEnd n) := .each (fun t q => t.inStep_endSpan p q n) _ s

theorem State.inStep_portsReady : State.InStep Port.due p s (s.portsReady n) :=
  (State.InStep.each (fun t q => (t.inStep_suspendEnter _ p q).trans (State.inStep_shiftDown _ p _ q)) _ s).trans
    (.each (fun t q => t.inStep_handOver _ p q n) _ _)

theorem State.inStep_tickEnds : State.InStep Port.begun p s (s.tickEnds n) := by
  have hopen (u : State) : State.InStep Port.begun p u u.openTick.workTick :=
    (u.inStep_openTick _ p).trans (State.inStep_workTick p _)
  have hbuild (u : State) (hw : Bool) : State.InStep Port.begun p u (u.beginBuild (n + 1) hw).countTick.tickWaits.ended :=
    (u.inStep_beginBuild p _ hw).trans ((State.inStep_countTick _ p _).trans
      ((State.inStep_tickWaits _ p _).trans (State.inStep_ended _ p _)))
  have hframe : State.InStep Port.begun p s (if n % 8 = 0 then s.frameBegins else s) := .ite (s.inStep_frameBegins p) (.refl s)
  exact hframe.trans ((hopen _).trans (hbuild _ _))

/-- The spans of the ports before `p` leave what is due at `p`, and those after it what has begun there. -/
theorem State.opens_split : ∃ u, State.InStep Port.due p s u ∧ State.InStep Port.begun p (u.beginSpan p n) (s.opens n) := by
  have hnodup : allPorts.Nodup := List.nodup_finRange 32
  have hmem : p ∈ allPorts := List.mem_finRange p
  obtain ⟨l, l', hl⟩ := List.append_of_mem hmem
  rw [hl, List.nodup_middle, List.nodup_cons, List.mem_append, not_or] at hnodup
  obtain ⟨⟨hp, hp'⟩, -⟩ := hnodup
  have hrest {α : Type} (g : Port → α) (u : State) (m : List PortNo) (hm : p ∉ m) :
      State.InStep g p u (u.each m fun t q => t.beginSpan q n) :=
    .each_mem (fun t q hq => t.inStep_beginSpan g p (fun h => hm (h ▸ hq)) n) u
  have hsplit : (s.each allPorts fun t q => t.beginSpan q n) =
      ((s.each l fun t q => t.beginSpan q n).beginSpan p n).each l' fun t q => t.beginSpan q n := by
    rw [hl]
    exact List.foldl_append ..
  refine ⟨s.each l fun t q => t.beginSpan q n, hrest _ s l hp, ?_⟩
  rw [State.opens, hsplit]
  exact (hrest _ _ l' hp').trans ((State.inStep_unserve _ p _ n).trans (State.inStep_rotatePins _ p _ n))

end

/-- The beginning of a span changes neither the clock nor the mode. -/
theorem State.beat_beginSpan (s : State) (q : PortNo) (n : Nat) : (s.beginSpan q n).beat = s.beat := by
  obtain ⟨p, hp⟩ := exists_ne q
  obtain ⟨-, hbeat, -⟩ := s.inStep_beginSpan Port.due p hp.symm n
  exact hbeat

/-- The tick of a running controller: its clock, and what each port meets at the beginning of its span and keeps after it. -/
theorem State.subframeTick_at {s : State} (hmode : s.pw.mode.isRunning = true) (hhalt : s.pw.halted = false) :
    ∃ t, exec .subframeTick s = .next t ∧ ∀ p, ∃ u : State, u.beat = (s.pl.subN + 1, s.pl.cycle + 150000, false, s.pw.mode, s.pw.halted) ∧
      ((s.port p).Steady → (u.port p).due = (s.port p).due ∧ (u.port p).Steady) ∧
      State.InStep Port.begun p (u.beginSpan p (s.pl.subN + 1)) t := by
  refine ⟨_, s.exec_subframeTick hmode hhalt, fun p => ?_⟩
  obtain ⟨-, hends, hdue⟩ := s.inStep_spansEnd p (s.pl.subN + 1)
  generalize s.spansEnd (s.pl.subN + 1) = v at hends hdue
  simp only [State.beat, Prod.mk.injEq] at hends
  obtain ⟨-, hcycle, -, hvmode, hvhalt⟩ := hends
  have hadvance := State.beat_advance (s := v) (by rw [hvmode, hmode]) (s.pl.subN + 1)
  rw [hcycle, hvmode, hvhalt] at hadvance
  obtain ⟨u, hbefore, hafter⟩ := State.opens_split p ((v.advance (s.pl.subN + 1)).portsReady (s.pl.subN + 1)) (s.pl.subN + 1)
  obtain ⟨-, hbeat, hport⟩ := (State.inStep_portsReady p _ (s.pl.subN + 1)).trans hbefore
  refine ⟨u, hbeat.trans hadvance, fun hs => ?_, hafter.trans (State.inStep_tickEnds p _ _)⟩
  obtain ⟨hv, hsteady⟩ := hdue hs
  obtain ⟨hu, husteady⟩ := hport hsteady
  exact ⟨hu.trans hv, husteady⟩

/-! ### A span begins -/

section
variable {s : State} {p : PortNo} (hserv : s.inService p = true)
include hserv

/-- The first SOSF after a resume passes over a tick (R71). -/
theorem State.beginSpan_late (n : Nat) (h : (s.port p).sosfHold = .late) : s.beginSpan p n =
    s.modPort p fun x => { x with sosfHold := if x.speed == .express then .train else .plain, list := [] } := by
  simp [State.beginSpan, hserv, h]

/-- SOSF is sent and the fixed list becomes the skim (R26, R162). -/
theorem State.beginSpan_sosf (n : Nat) (h : (s.port p).sosfHold ≠ .late) (hspan : s.spanAt p n = true) :
    (s.beginSpan p n).out = .packet p (s.port p).speed (sosfPacket (n / 8 % 2048) (n % 8)) ::
        (if (s.port p).sosfHold = .train then .drive p .training :: s.out else s.out) ∧
      (s.beginSpan p n).port p = { s.port p with skim := (s.port p).list, list := [], excess := 0, ctrlUsed := 0, gap := none
                                                 sosfHold := .none, lineAt := sosfTime + gapTime } := by
  simp only [State.beginSpan, hserv, beq_eq_false_iff_ne.2 h, hspan, Bool.not_true, Bool.false_eq_true, if_false, State.modPort_port, if_true]
  cases hhold : (s.port p).sosfHold with
  | late => exact absurd hhold h
  | train => exact ⟨rfl, rfl⟩
  | plain => exact ⟨rfl, rfl⟩
  | none => exact ⟨rfl, rfl⟩

end

/-! ### The clauses of the obligation -/

/-- On a steady port whose first SOSF is late, the span passes over. -/
theorem State.beginSpan_passes {s u t : State} {p : PortNo} {n : Nat} (hserv : u.inService p = true) (hdue : (u.port p).due = (s.port p).due)
    (hsteady : (u.port p).Steady) (hbegun : State.InStep Port.begun p (u.beginSpan p n) t) (h : (s.port p).sosfHold = .late) :
    (t.port p).list = [] ∧ (t.port p).sosfHold = if (s.port p).speed = .express then .train else .plain := by
  simp only [Port.due, Prod.mk.injEq] at hdue
  obtain ⟨hspeed, -, hhold, -⟩ := hdue
  rw [State.beginSpan_late hserv n (hhold.trans h)] at hbegun
  obtain ⟨-, -, hport⟩ := hbegun
  rw [State.modPort_port, if_pos rfl] at hport
  obtain ⟨hb, -⟩ := hport hsteady
  simp only [Port.begun, Prod.mk.injEq] at hb
  obtain ⟨hlist, -, hnext, -⟩ := hb
  exact ⟨hlist, by simpa [hspeed] using hnext⟩

/-- On a steady port whose span begins, SOSF goes, the list becomes the skim, and the line is free after the gap. -/
theorem State.beginSpan_begins {s u t : State} {p : PortNo} {n : Nat} (hserv : u.inService p = true) (hdue : (u.port p).due = (s.port p).due)
    (hsteady : (u.port p).Steady) (hbegun : State.InStep Port.begun p (u.beginSpan p n) t) (h : (s.port p).sosfHold ≠ .late)
    (hspan : s.spanAt p n = true) :
    .packet p (s.port p).speed (sosfPacket (n / 8 % 2048) (n % 8)) ∈ t.out ∧
      (t.port p).skim = (s.port p).list ∧ (t.port p).list = [] ∧ (t.port p).ctrlUsed = 0 ∧ (t.port p).excess = 0 ∧
      (t.port p).sosfHold = .none ∧ (t.port p).lineAt = 12 ∧
      ((s.port p).sosfHold = .train → .drive p .training ∈ t.out) := by
  simp only [Port.due, Prod.mk.injEq] at hdue
  obtain ⟨hspeed, hreach, hhold, hlist⟩ := hdue
  have hspan' : u.spanAt p n = true := by rw [State.spanAt, hreach]; exact hspan
  have hnow : (u.port p).sosfHold ≠ .late := by rwa [hhold]
  obtain ⟨hpacket, hopened⟩ := State.beginSpan_sosf hserv n hnow hspan'
  obtain ⟨hout, -, hport⟩ := hbegun
  rw [hopened] at hport
  obtain ⟨hb, -⟩ := hport hsteady
  simp only [Port.begun, Prod.mk.injEq] at hb
  obtain ⟨hlist', hskim, hhold', hctrl, hexcess, hline⟩ := hb
  refine ⟨hout.mem ?_, hskim.trans hlist, hlist', hctrl, hexcess, hhold', hline, fun htrain => hout.mem ?_⟩
  · simp [hpacket, hspeed]
  · simp [hpacket, hhold, htrain]

theorem frames_tick {s : State} (hmode : s.pw.mode.isRunning = true) (hhalt : s.pw.halted = false) :
    ∃ t, exec .subframeTick s = .next t ∧ t.pl.subN = s.pl.subN + 1 ∧ t.pl.cycle = s.pl.cycle + 150000 ∧ t.pl.cutDone = false ∧
      ∀ p, (s.port p).st = .enabled → (s.port p).suspendPending = false → (s.port p).downshift = false →
        ((s.port p).sosfHold = .late → (t.port p).list = [] ∧
          (t.port p).sosfHold = if (s.port p).speed = .express then .train else .plain) ∧
        ((s.port p).sosfHold ≠ .late → s.spanAt p (s.pl.subN + 1) = true →
        .packet p (s.port p).speed (sosfPacket ((s.pl.subN + 1) / 8 % 2048) ((s.pl.subN + 1) % 8)) ∈ t.out ∧
        (t.port p).skim = (s.port p).list ∧ (t.port p).list = [] ∧ (t.port p).ctrlUsed = 0 ∧ (t.port p).excess = 0 ∧
        (t.port p).sosfHold = .none ∧ (t.port p).lineAt = 12 ∧
        ((s.port p).sosfHold = .train → .drive p .training ∈ t.out)) := by
  obtain ⟨t, ht, hports⟩ := State.subframeTick_at hmode hhalt
  obtain ⟨u, hu, -, -, hbeat, -⟩ := hports 0
  rw [State.beat_beginSpan, hu] at hbeat
  simp only [State.beat, Prod.mk.injEq] at hbeat
  obtain ⟨hsub, hcycle, hcut, -, -⟩ := hbeat
  refine ⟨t, ht, hsub, hcycle, hcut, fun p hst hsuspend hdown => ?_⟩
  obtain ⟨u, hu, hport, hbegun⟩ := hports p
  obtain ⟨hdue, hsteady⟩ := hport ⟨hst, hsuspend, hdown⟩
  simp only [State.beat, Prod.mk.injEq] at hu
  obtain ⟨-, -, -, humode, huhalt⟩ := hu
  have hserv : u.inService p = true := by simp [State.inService, State.alive, hsteady.1, humode, huhalt, hmode, hhalt]
  exact ⟨State.beginSpan_passes hserv hdue hsteady hbegun, State.beginSpan_begins hserv hdue hsteady hbegun⟩

theorem frames_halted {s : State} (hmode : s.pw.mode.isRunning = true) (hhalt : s.pw.halted = true) :
    exec .subframeTick s = .next { s with pl := { s.pl with subN := s.pl.subN + 1, cycle := s.pl.cycle + 150000, cutDone := false } } := by
  show execSubframeTick s = _
  simp [execSubframeTick, hmode, hhalt, State.advance_of_isRunning hmode]

theorem frames_stopped {s : State} (hmode : s.pw.mode.isRunning = false) (hstandby : s.pw.mode ≠ .standby) :
    exec .subframeTick s = .next s := by
  show execSubframeTick s = _
  simp [execSubframeTick, hmode, hstandby]

/-! ### A missed commit -/

theorem State.unbind_eq (s : State) (n : Nat) (c : Commit) : ∃ l, s.unbind n c = { s with eps := l } := by
  have hstep : ({ s.unbind n c with eps := [] } : State) = { s with eps := [] } := by
    refine State.each_keeps (fun u : State => { u with eps := [] }) (fun t x => ?_) c.slots s
    rfl
  refine ⟨(s.unbind n c).eps, ?_⟩
  have heps := congrArg (fun u : State => { u with eps := (s.unbind n c).eps }) hstep
  exact heps

theorem frames_commitMissed {s : State} {c : Fin 256} {x : Commit} (hc : kget s.commits c = some x) (hphase : x.phase = .missed)
    (hsub : x.subN ≤ s.pl.subN) :
    ∃ t, exec (.commitMissed c) s = .next t ∧ kget t.commits c = none ∧ (∀ m, m ≠ c.val → kget t.commits m = kget s.commits m) ∧
      t.bare = State.bare { s with commits := t.commits, eps := t.eps } := by
  obtain ⟨l, hl⟩ := s.unbind_eq c x
  have hbare := (s.missCommit c x).bare_ended.trans (s.bare_endCommit c x .missedService)
  rw [hl] at hbare
  have hcommits : (s.missCommit c x).ended.commits = kdel s.commits c := by rw [← State.bare_commits, hbare, State.bare_commits]
  have heps : (s.missCommit c x).ended.eps = l := State.eps_of_bare hbare
  refine ⟨(s.missCommit c x).ended, ?_, ?_, fun m hm => ?_, ?_⟩
  · show execCommitMissed c s = _
    rw [execCommitMissed, hc]
    exact if_pos (by simp [hphase, hsub])
  · rw [hcommits, kget_kdel, if_pos rfl]
  · rw [hcommits, kget_kdel, if_neg hm]
  · rw [hcommits, heps]
    exact hbare

/-! ### The walk of a frame list -/

/-- The lowest bit of a link is its `term` (R180, R181). -/
theorem fld_odd_iff {n : Nat} (x : BitVec n) (hi : Nat) : fld x hi 0 % 2 = 1 ↔ bitOf x 0 = true := by
  rw [bitOf_eq_fld, decide_eq_true_iff]
  have hdvd : 2 ∣ 2 ^ (hi + 1) := ⟨2 ^ hi, Nat.pow_succ'⟩
  simp [fld, Nat.mod_mod_of_dvd _ hdvd]

theorem toNat_odd_iff {n : Nat} (x : BitVec n) : x.toNat % 2 = 1 ↔ bitOf x 0 = true := by
  rw [bitOf_eq_fld, decide_eq_true_iff]
  simp [fld]

theorem frames_link {s : State} {i : InstNo} {w : Walk} (l : Word) (hrun : s.runs = true) (hcut : s.pl.cutDone = false)
    (hw : (s.inst i).walk = some w) (hnext : w.next.isSome = true) (hlink : w.atLink = true) :
    exec (.frameListReadComplete i (.link l)) s = .next (s.modInst i fun x => { x with walk := some { w with
      atLink := false, next := if bitOf l 0 then none else some (l.toNat / 32 * 32) } }) := by
  show execFrameListReadComplete i (.link l) s = _
  obtain ⟨next, atLink, count, listed, seen⟩ := w
  obtain ⟨a, rfl⟩ := Option.isSome_iff_exists.1 hnext
  subst hlink
  simp [execFrameListReadComplete, hrun, hcut, hw, State.modInst, Walk.follow, toNat_odd_iff]

/-- Where a walk stands. -/
def Walk.place (w : Walk) : Option Nat × Bool × Nat := (w.next, w.atLink, w.count)

/-- Where the walk of the list of `i` stands, the chains that it has cut, and the planner. -/
def State.walkAt (i : InstNo) (s : State) : Option (Option Nat × Bool × Nat) × BitVec 16 × Planner :=
  ((s.inst i).walk.map Walk.place, (s.inst i).overlong, s.pl)

/-- Reporting leaves the walks and the planner as they stand. -/
theorem State.walk_of_bare {s t : State} (h : t.bare = s.bare) (i : InstNo) :
    (t.inst i).walk = (s.inst i).walk ∧ (t.inst i).overlong = (s.inst i).overlong ∧ t.pl = s.pl := by
  have hi : (t.inst i).bare = (s.inst i).bare := by rw [← State.bare_inst, h, State.bare_inst]
  have hwalk : (t.inst i).bare.walk = (s.inst i).bare.walk := congrArg Inst.walk hi
  have hover : (t.inst i).bare.overlong = (s.inst i).bare.overlong := congrArg Inst.overlong hi
  exact ⟨hwalk, hover, State.pl_of_modes (State.modes_of_bare h)⟩

theorem State.walkAt_modInst (s : State) (i : InstNo) {f : Inst → Inst} (hw : (f (s.inst i)).walk.map Walk.place = (s.inst i).walk.map Walk.place)
    (ho : (f (s.inst i)).overlong = (s.inst i).overlong) : (s.modInst i f).walkAt i = s.walkAt i := by
  simp only [State.walkAt, State.modInst_inst, if_true, hw, ho]
  rfl

theorem State.walkAt_ite {s t u : State} {i : InstNo} {c : Prop} [Decidable c] (ht : t.walkAt i = s.walkAt i) (hu : u.walkAt i = s.walkAt i) :
    (if c then t else u).walkAt i = s.walkAt i := by
  split
  · exact ht
  · exact hu

/-- A descriptor is listed or not; the walk stays where it stands. -/
theorem State.walkAt_visit (s : State) (i : InstNo) (n : Nat) (d : BitVec 256) : (s.visit i n d).walkAt i = s.walkAt i := by
  have hbad : (s.modInst i fun x => { x with badDesc := satInc x.badDesc }).walkAt i = s.walkAt i := s.walkAt_modInst i rfl rfl
  have hlose (p : PortNo) : (s.loseSkim p).walkAt i = s.walkAt i := rfl
  unfold State.visit
  split
  · rfl
  · next w hw =>
    have hlist (u : State) (hu : u.walkAt i = s.walkAt i) (seen listed : List Nat) :
        (u.modInst i fun x => { x with walk := some { w with seen := seen, listed := listed } }).walkAt i = s.walkAt i := by
      have hplace : (u.inst i).walk.map Walk.place = some w.place := by
        have hfst : (u.inst i).walk.map Walk.place = (s.inst i).walk.map Walk.place := congrArg Prod.fst hu
        rw [hfst, hw, Option.map_some]
      refine (u.walkAt_modInst i ?_ rfl).trans hu
      exact hplace.symm
    refine State.walkAt_ite rfl ?_
    dsimp only
    split
    · exact State.walkAt_ite hbad (hlist _ (State.walkAt_ite rfl (hlose _)) _ _)
    · exact hbad

/-- A run of descriptors: those within the limit count, a chain that goes on past it is cut and counted, another is followed (R181, R182). -/
theorem State.walk_visitRun (s : State) {i : InstNo} (n : Nat) (ds : List (BitVec 256)) {w : Walk} (hw : (s.inst i).walk = some w) :
    (s.visitRun i n ds).pl = s.pl ∧ ∃ v, ((s.visitRun i n ds).inst i).walk = some v ∧ v.count = w.count + min (4096 - w.count) ds.length ∧
      (4096 - w.count < ds.length → v.next = none ∧ ((s.visitRun i n ds).inst i).overlong = satInc (s.inst i).overlong) ∧
      (ds.length < 4096 - w.count → ((s.visitRun i n ds).inst i).overlong = (s.inst i).overlong ∧ v.atLink = false ∧
        v.next = if bitOf (ds.getLast?.getD 0) 0 then none else some (fld (ds.getLast?.getD 0) 63 0 / 32 * 32)) := by
  have hvisits : (s.each (ds.take (4096 - w.count)) fun t d => t.visit i n d).walkAt i = s.walkAt i :=
    State.each_keeps (State.walkAt i) (fun t d => t.walkAt_visit i n d) _ s
  simp only [State.visitRun, hw]
  generalize s.each (ds.take (4096 - w.count)) (fun t d => t.visit i n d) = u at hvisits
  simp only [State.walkAt, Prod.mk.injEq, hw, Option.map_some, Option.map_eq_some_iff, Walk.place] at hvisits
  obtain ⟨⟨v, hv, -, -, hcount⟩, hover, hpl⟩ := hvisits
  generalize hcut : (decide (4096 - w.count < ds.length) ||
    4096 - w.count == ds.length && fld (ds.getLast?.getD 0) 63 0 % 2 == 0) = cut
  cases cut with
  | true =>
    have hroom : 4096 - w.count ≤ ds.length := by
      simp only [Bool.or_eq_true, decide_eq_true_iff, Bool.and_eq_true, beq_iff_eq] at hcut
      omega
    refine ⟨hpl, { v with count := v.count + min (4096 - w.count) ds.length, next := none }, ?_, ?_, fun _ => ⟨rfl, ?_⟩, fun h => ?_⟩
    · simp [hv]
    · exact congrArg (· + _) hcount
    · simp [hover]
    · exact absurd hroom (by omega)
  | false =>
    have hroom : ds.length ≤ 4096 - w.count := by
      simp only [Bool.or_eq_false_iff, decide_eq_false_iff_not] at hcut
      omega
    refine ⟨hpl, { v with count := v.count + min (4096 - w.count) ds.length }.follow (fld (ds.getLast?.getD 0) 63 0), ?_, ?_, fun h => ?_,
      fun _ => ⟨?_, rfl, ?_⟩⟩
    · simp [hv]
    · exact congrArg (· + _) hcount
    · exact absurd hroom (by omega)
    · simp [hover]
    · simp only [Walk.follow, fld_odd_iff]

theorem frames_run {s : State} {i : InstNo} {w : Walk} {ds : List (BitVec 256)} {d : BitVec 256} (hrun : s.runs = true)
    (hcut : s.pl.cutDone = false) (hw : (s.inst i).walk = some w) (hnext : w.next.isSome = true) (hlink : w.atLink = false)
    (hd : ds.head? = some d) (hlen : ds.length = fld d 95 88 + 1) :
    ∃ t, exec (.frameListReadComplete i (.run ds)) s = .next t ∧ t.pl = s.pl ∧
      ∃ v, (t.inst i).walk = some v ∧ v.count = w.count + min (4096 - w.count) ds.length ∧
        (4096 - w.count < ds.length → v.next = none ∧ (t.inst i).overlong = satInc (s.inst i).overlong) ∧
        (ds.length < 4096 - w.count → (t.inst i).overlong = (s.inst i).overlong ∧ v.atLink = false ∧
          v.next = if bitOf (ds.getLast?.getD 0) 0 then none else some (fld (ds.getLast?.getD 0) 63 0 / 32 * 32)) := by
  obtain ⟨a, ha⟩ := Option.isSome_iff_exists.1 hnext
  obtain ⟨hwalk, hover, hpl⟩ := State.walk_of_bare (State.bare_hostRead s i a (32 * ds.length) none none) i
  obtain ⟨hrunpl, v, hv, hcount, hcuts, hgoes⟩ := State.walk_visitRun _ (s.pl.subN + 1) ds (hwalk.trans hw)
  obtain ⟨hwalk', hover', hpl'⟩ := State.walk_of_bare
    ((s.hostRead i a (32 * ds.length) none none).visitRun i (s.pl.subN + 1) ds).bare_ended i
  refine ⟨_, ?_, hpl'.trans (hrunpl.trans hpl), v, hwalk'.trans hv, hcount, ?_, ?_⟩
  · show execFrameListReadComplete i (.run ds) s = _
    obtain ⟨next, atLink, count, listed, seen⟩ := w
    subst ha hlink
    simp only [execFrameListReadComplete, hrun, hcut, hw, hd, hlen, Bool.not_true, Bool.or_self, Bool.false_eq_true, if_false, bne_self_eq_false]
    rfl
  · rwa [hover', ← hover]
  · rwa [hover', ← hover]

/-- Settles O46: what a tick does to a port follows from what the steps before the port's span leave of it, and those after; the rest is a
case of the command each. -/
theorem frames : Obligations.Frames := by
  unfold Obligations.Frames
  exact ⟨fun s hmode hhalt => frames_tick hmode hhalt, fun s hmode hhalt => frames_halted hmode hhalt,
    fun s hmode hstandby => frames_stopped hmode hstandby, fun s c x hc hphase hsub => frames_commitMissed hc hphase hsub,
    fun s i w l hrun hcut hw hnext hlink => frames_link l hrun hcut hw hnext hlink,
    fun s i w ds d hrun hcut hw hnext hlink hd hlen => frames_run hrun hcut hw hnext hlink hd hlen⟩

end Sys2Proof.Machine
end

section
/-!
PROOFS. Root ports (O27 to O32). A port that changes its state completes the PORT_CONTROLs that wait for it (R141), and the write of a COMMAND
event marks open the endpoint whose OPEN_ENDPOINT stands in the slot of the event (R152, R178). Nothing in the statements keeps the slot
of a waiting PORT_CONTROL apart from the slot of an OPEN_ENDPOINT whose event is still to be written. Where the two are one, a change of the
port's state changes an endpoint context too, which `bare` keeps.
-/
namespace Sys2Proof.Machine

/-- PORT_CONTROL of root port 0 with an action (R140). -/
def portZeroOrder (action : Nat) : CEntry := BitVec.ofNat 512 (0x20 + action * 2 ^ 64)

/-- A running controller whose ports stand as `x`. The manager has an order to root port 0 waiting in slot 7, behind the commands `first`,
and the endpoint of context 0 was opened from slot 7, its COMMAND event not yet written. -/
def slotShared (x : Port) (action : Nat) (first : List Cmd) : State :=
  { State.reset with
    pw := { State.reset.pw with mode := .sole, perst := false }
    ports := Vector.replicate 32 x
    insts := vset State.reset.insts 0
      { st := .running, busMaster := true, cmds := first ++ [⟨7, portZeroOrder action, .waiting⟩] }
    eps := [(0, { haltedEp0 1 with st := .running, opening := some 7 })] }

/-- A command leaves other endpoint contexts than it finds. -/
def changesEps (c : Instr) (s : State) : Bool :=
  match exec c s with
  | .next t => decide (t.eps ≠ s.eps)
  | _ => false

/-- What a command makes of a state that it changes the endpoint contexts of is not, reporting aside, a state with the contexts from
before. -/
theorem false_of_changesEps {c : Instr} {s t u : State} (hc : changesEps c s = true) (hexec : exec c s = .next t)
    (hbare : t.bare = u.bare) (hu : u.eps = s.eps) : False := by
  have hne : t.eps ≠ s.eps := by simpa [changesEps, hexec] using hc
  exact hne ((State.eps_of_bare hbare).trans hu)

/-- Refutes O27: as an EMPTY port becomes ATTACHING it completes a PORT_CONTROL that waits for it, and the endpoint opened from that
command's slot is marked open; the clause has only the ports change. -/
theorem not_attachDetach : ¬ Obligations.AttachDetach := by
  intro h
  obtain ⟨hattaching, -⟩ := h
  obtain ⟨t, hexec, -, -, -, -, -, hbare⟩ :=
    hattaching (slotShared { st := .empty } 1 []) 0 (by decide +kernel) (by decide +kernel)
  exact false_of_changesEps (by decide +kernel) hexec hbare rfl

/-- Refutes O28: as the port becomes ENABLED at the echo it completes a PORT_CONTROL that waits for it, and the endpoint opened from that
command's slot is marked open; the clause has only the ports, the marks and the deficits change. -/
theorem not_resetNegotiation : ¬ Obligations.ResetNegotiation := by
  intro h
  obtain ⟨-, -, -, -, -, -, -, -, -, hecho, -, -⟩ :=
    h (slotShared { st := .resetting, phase := .echo } 3 []) 0 (by decide +kernel) (by decide +kernel)
  obtain ⟨t, hexec, -, -, -, -, -, -, -, -, hbare⟩ := hecho (by decide +kernel)
  exact false_of_changesEps (by decide +kernel) hexec hbare rfl

/-- Refutes O29: the end of recovery completes the reset that waits for it, and the endpoint opened from that command's slot is marked
open; the clause has only the ports and the deficits change. -/
theorem not_afterReset : ¬ Obligations.AfterReset := by
  intro h
  obtain ⟨hrecovery, -⟩ := h
  obtain ⟨t, hexec, -, -, -, -, -, hbare⟩ :=
    hrecovery (slotShared { st := .enabled, recovering := true } 3 []) 0 (by decide +kernel) (by decide +kernel) (by decide +kernel)
      (by decide +kernel) (by decide +kernel)
  exact false_of_changesEps (by decide +kernel) hexec hbare rfl

/-- Refutes O30: SUSPENDED completes the suspend that waits for it, and the endpoint opened from that command's slot is marked open; the
clause has only the ports change. -/
theorem not_suspendResume : ¬ Obligations.SuspendResume := by
  intro h
  obtain ⟨-, hidle, -⟩ := h (slotShared { st := .suspending } 4 []) 0 (by decide +kernel)
  obtain ⟨t, hexec, -, -, -, -, hbare⟩ := hidle (by decide +kernel) (by decide +kernel)
  exact false_of_changesEps (by decide +kernel) hexec hbare rfl

/-- Refutes O31: the end of blanking completes the POWER_ON that waits for it, and the endpoint opened from that command's slot is marked
open; the clause has only the ports change. -/
theorem not_portPower : ¬ Obligations.PortPower := by
  intro h
  obtain ⟨hblanking, -⟩ := h
  obtain ⟨t, hexec, -, -, -, hbare⟩ := hblanking (slotShared { st := .powering } 1 []) 0 (by decide +kernel) (by decide +kernel)
  exact false_of_changesEps (by decide +kernel) hexec hbare rfl

/-- A SUSPENDED root port whose resume is ordered from slot 0 while a suspend of it waits in slot 7. -/
def resumeOverSuspend : State := slotShared { st := .suspended } 4 [⟨0, portZeroOrder 5, .fetched⟩]

theorem resumeOverSuspend_ordered : resumeOverSuspend.Ordered 0 0 0x20 (portForm 5) (portZeroOrder 5) :=
  ⟨by decide +kernel, by decide +kernel⟩

/-- Refutes O32: the resume ordered completes the suspend that waits for the port, and the endpoint opened from that command's slot is
marked open; the clause has only the ports change. -/
theorem not_portOrders : ¬ Obligations.PortOrders := by
  intro h
  obtain ⟨-, -, -, -, hresume, -, -⟩ := h resumeOverSuspend 0 0 (portZeroOrder 5) 0 (by decide +kernel) (by decide +kernel)
  obtain ⟨hsuspended, -, -⟩ := hresume resumeOverSuspend_ordered 0
  obtain ⟨-, -, -, hbare⟩ := hsuspended (by decide +kernel)
  have hopens : (resumeOverSuspend.startResume 0).eps ≠ resumeOverSuspend.eps := by decide +kernel
  have hkept := State.eps_of_bare hbare
  exact hopens hkept

end Sys2Proof.Machine
end

section
/-!
SUPPORT. The ring registers (R128) and doorbells (R93 to R95): what an event ring is enabled to, and what a doorbell of each target does.
-/
namespace Sys2Proof.Machine

variable {s : State}

/-- What a function may write does not hang on its rings. -/
@[simp] theorem State.canWrite_modRing (i j : InstNo) (e : RingNo) (f : EvtRing → EvtRing) :
    (s.modRing i e f).canWrite j = s.canWrite j := by
  simp only [State.canWrite, State.modRing_inst]
  split
  · next h => rw [h]; rfl
  · rfl

/-- An event ring is enabled with its indices at 0 and its mirror due, which is written where its function may write, and settled. -/
theorem execEventRingEnable_eq {i : InstNo} {e : RingNo} (hopen : s.regsOpen i = true) (hfresh : (s.inst i).fresh = false)
    (hr : s.ringReached e = true) (hoff : (s.ring i e).enable = false) :
    let t := s.modRing i e fun r =>
      { r with enable := true, head := 0, tail := 0, blocked := false, blockedTicks := 0, counted := 0, mirrorDue := true }
    execEventRingEnable i e s = .next ((if s.canWrite i then t.writeMirror i e else t).settle i e).ended := by
  simp [execEventRingEnable, hopen, hr, State.written_of_not_fresh hfresh, State.startEvtRing, hoff, done_eq_ended]

/-- A doorbell for the command ring wakes no branch. -/
theorem State.wakeFor_of_cmd {i : InstNo} {w : Word} (h : fld w 32 16 = 0) : s.wakeFor i w = s := by
  unfold State.wakeFor
  split
  · split
    · simp [h]
    · rfl
  · rfl

/-- A doorbell for an endpoint that is not yet open wakes no branch. -/
theorem State.wakeFor_of_opening {i : InstNo} {w : Word} {k : Nat} {e : Ep} (he : s.epOf i (fld w 32 16 - 1) = some (k, e))
    (ho : e.opening.isSome = true) : s.wakeFor i w = s := by
  have hnot : e.opening.isNone = false := by simpa using ho
  simp only [State.wakeFor, he, hnot]
  split
  · simp
  · rfl

/-- The endpoints that a function names do not hang on its count of stray writes. -/
theorem State.epOf_stray (i : InstNo) (n : Nat) : (s.stray i).epOf i n = s.epOf i n := by
  have hi : (s.stray i).inst i = { s.inst i with strayWrites := satInc (s.inst i).strayWrites } := by simp [State.stray]
  unfold State.epOf
  rw [hi]
  rfl

/-- An endpoint that an index names is below the function's limit. -/
theorem State.epOf_lt {i : InstNo} {n k : Nat} {e : Ep} (h : s.epOf i n = some (k, e)) : n < (s.inst i).epLimit := by
  by_contra hn
  simp [State.epOf, hn] at h

/-- A doorbell for an enabled command ring, with a good tail, sets its `tail` (R94). -/
theorem State.ring'_cmd {i : InstNo} {w : Word} (hrun : (s.inst i).halted = false) (hres : fld w 63 33 = 0) (ht : fld w 32 16 = 0)
    (hen : (s.inst i).cmdEn = true)
    (hok : tailOk (s.inst i).cmdEntries (s.inst i).cmdHead (s.inst i).cmdTail (BitVec.ofNat 16 (fld w 15 0)) = true) :
    s.ring' i w = (s.rung i).modInst i fun n => { n with cmdTail := BitVec.ofNat 16 (fld w 15 0) } := by
  simp [State.ring', hrun, hres, ht, hen, hok]

/-- A change of a function that passes `bare` by, applied to two states that are equal but for reporting. -/
theorem State.bare_modInst_congr {t : State} (h : t.bare = s.bare) (i : InstNo) {f : Inst → Inst} (hf : ∀ n : Inst, (f n).bare = f n.bare) :
    (t.modInst i f).bare = (s.modInst i f).bare := by
  have hmod (u : State) : (u.modInst i f).bare = u.bare.modInst i f := by
    have hi : (vset u.insts i (f (u.inst i))).map Inst.bare = vset u.bare.insts i (f (u.bare.inst i)) := by
      rw [map_vset, hf, State.bare_inst]
      rfl
    simp only [State.bare, State.modInst, State.setInst, hi]
  rw [hmod, hmod, h]

/-- One for a command ring that is not enabled is stray (R95). -/
theorem State.ring'_disabled {i : InstNo} {w : Word} (hrun : (s.inst i).halted = false) (hres : fld w 63 33 = 0) (ht : fld w 32 16 = 0)
    (hoff : (s.inst i).cmdEn = false) : s.ring' i w = s.stray i := by
  simp [State.ring', hrun, hres, ht, hoff]

/-- So is one for an endpoint that is still to open (R152). -/
theorem State.ring'_opening {i : InstNo} {w : Word} {k : Nat} {e : Ep} (hrun : (s.inst i).halted = false) (hres : fld w 63 33 = 0)
    (ht : fld w 32 16 ≠ 0) (he : s.epOf i (fld w 32 16 - 1) = some (k, e)) (ho : e.opening.isSome = true) : s.ring' i w = s.stray i := by
  simp [State.ring', hrun, hres, ht, Nat.not_le.2 (State.epOf_lt he), he, ho]

/-- A doorbell for an open endpoint, with a good tail, sets that of its ring and uses its context (R129). -/
theorem State.ring'_ep {i : InstNo} {w : Word} {k : Nat} {e : Ep} (hrun : (s.inst i).halted = false) (hres : fld w 63 33 = 0)
    (ht : fld w 32 16 ≠ 0) (he : s.epOf i (fld w 32 16 - 1) = some (k, e)) (ho : e.opening = none)
    (hok : tailOk e.ringSize e.trHead e.trTail (BitVec.ofNat 16 (fld w 15 0)) = true) :
    s.ring' i w = ((s.rung i).touch k).modEp k fun e => { e with trTail := BitVec.ofNat 16 (fld w 15 0) } := by
  simp [State.ring', hrun, hres, ht, Nat.not_le.2 (State.epOf_lt he), he, ho, hok]

/-- A doorbell for the command ring sets its `tail`, and is counted. -/
theorem State.rings_cmd {i : InstNo} {w : Word} (hrun : (s.inst i).halted = false) (hres : fld w 63 33 = 0) (ht : fld w 32 16 = 0)
    (hen : (s.inst i).cmdEn = true)
    (hok : tailOk (s.inst i).cmdEntries (s.inst i).cmdHead (s.inst i).cmdTail (BitVec.ofNat 16 (fld w 15 0)) = true) :
    ((s.ring' i w).wakeFor i w).ended.bare =
      State.bare (s.modInst i fun n => { n with cmdTail := BitVec.ofNat 16 (fld w 15 0) }) := by
  rw [State.wakeFor_of_cmd ht, State.bare_ended, State.ring'_cmd hrun hres ht hen hok]
  exact State.bare_modInst_congr (s.bare_count _) i fun _ => rfl

/-- The word that the register file's doorbell makes of 32 bits: nothing above the target, the target and the tail as written. -/
theorem fld_doorbell (w : BitVec 32) : fld (w.setWidth 64) 63 33 = 0 ∧ fld (w.setWidth 64) 32 16 = fld w 31 16 ∧
    fld (w.setWidth 64) 15 0 = fld w 15 0 := by
  have hw : (w.setWidth 64).toNat = w.toNat := by
    rw [BitVec.toNat_setWidth]; omega
  norm_num [fld, hw, Nat.shiftRight_eq_div_pow]
  omega

end Sys2Proof.Machine
end

section
/-! The ring registers and the backing store (O17). -/
namespace Sys2Proof.Machine

/-- Settles O17: each register's command is its effect, with the hypotheses of a clause as its guards. -/
theorem ringRegisters : Obligations.RingRegisters := by
  intro s i hopen hfresh
  have hw := State.written_of_not_fresh hfresh
  refine ⟨fun e h hr => ⟨fun hlt hle => ?_, fun hbad => ?_⟩, fun hoff hring hlock => ?_, fun hhead hwait => ?_, fun e hr hoff hno => ?_,
    fun e hr hoff hcan => ?_, fun e hr hneed => ?_, fun w hi hlock => ?_⟩
  · have hin : ¬ ((s.ring i e).entries ≤ h.toNat ∨ (s.ring i e).used <
      (h.toNat + (s.ring i e).entries - (s.ring i e).head.toNat % (s.ring i e).entries) % (s.ring i e).entries) := by omega
    simp [exec, execEventRingHeadWrite, hw, hopen, hr, hin, done_eq_ended]
  · simp [exec, execEventRingHeadWrite, hw, hopen, hr, hbad, State.stray]
  · have hplaced : ¬ (i = 0 ∧ s.mem.bsLock = false) := fun ⟨hi, hl⟩ => hlock.elim (· hi) fun h => by simp [hl] at h
    simp [exec, execCommandRingEnable, hopen, hw, State.startCmdRing, hoff, hring, hplaced]
  · have hnone : (s.inst i).waiting.any (·.isCommand) = false := by simpa using hwait
    simp [exec, execCommandRingDisable, hopen, hw, State.stopCmdRing, hhead, hnone]
  · simp [exec, execEventRingEnable_eq hopen hfresh hr hoff, hno]
  · simp [exec, execEventRingEnable_eq hopen hfresh hr hoff, hcan]
  · simp [exec, execEventRingDisable, hopen, hr, hw, State.stopEvtRing, hneed]
  · subst hi
    simp [exec, execBackingStoreLock, hopen, hw, State.writeBstore, hlock, State.modMem]

end Sys2Proof.Machine
end

section
/-! Doorbells (O16). -/
namespace Sys2Proof.Machine

/-- Settles O16: a doorbell is the write of its target's tail, then the waking of its branch, which only an open endpoint's does. -/
theorem doorbells : Obligations.Doorbells := by
  refine ⟨fun s i w hnat hfresh hrun hres => ?_, fun s w hopen hcompat hfresh hrun ht hen hok => ?_, fun s i hnat hfresh => ?_⟩
  · have hexec : exec (.doorbell i w) s = .next ((s.ring' i w).wakeFor i w).ended := by
      simp [exec, execDoorbell, hnat, State.written_of_not_fresh hfresh, done_eq_ended]
    refine ⟨fun ht hen hok => ⟨_, hexec, State.rings_cmd hrun hres ht hen hok⟩, fun ht hoff => ?_,
      fun ht k e he => ⟨fun ho hok => ?_, fun ho => ?_⟩⟩
    · rw [hexec, State.ring'_disabled hrun hres ht hoff, State.wakeFor_of_cmd ht]
      rfl
    · rw [hexec, State.ring'_ep hrun hres ht he ho hok]
      rfl
    · rw [hexec, State.ring'_opening hrun hres ht he ho, State.wakeFor_of_opening ((State.epOf_stray i _).trans he) ho]
      rfl
  · obtain ⟨hhigh, htarget, htail⟩ := fld_doorbell w
    have hexec : exec (.fDoorbell w) s = .next ((s.ring' 0 (w.setWidth 64)).wakeFor 0 (w.setWidth 64)).ended := by
      simp [exec, execFDoorbell, hopen, hcompat, State.written_of_not_fresh hfresh, done_eq_ended]
    refine ⟨_, hexec, ?_⟩
    rw [← htail] at hok ⊢
    exact State.rings_cmd hrun hhigh (htarget.trans ht) hen hok
  · simp [exec, execStrayDoorbellPageWrite, hnat, State.written_of_not_fresh hfresh, State.stray]

end Sys2Proof.Machine
end

section
/-!
SUPPORT. OPEN_ENDPOINT as it ends (R139, R173): the context that it writes, and the answer for a suitable command in each case.
-/
namespace Sys2Proof.Machine

/-- The context written stands as the command's fields give it: running, its rings empty, its counts 0, still to open (R101, R152). -/
theorem openedEp_spec (i : InstNo) (slot : BitVec 16) (e : CEntry) (z cost phase : Nat) :
    let x := openedEp i slot e z cost phase
    x.inst = i ∧ x.zone = z ∧ x.epid = BitVec.ofNat 5 (fld e 100 96) ∧ x.interval = fld e 106 103 ∧ x.maxBlock = fld e 123 114 ∧
      x.trBase = BitVec.ofNat 64 (fld e 191 128) ∧ x.trSize = fld e 127 124 ∧ x.region = fld e 201 192 ∧ x.egressSafe = bitOf e 239 ∧
      x.evtRing.val = fld e 95 93 ∧ x.st = .running ∧ x.trHead = 0 ∧ x.trTail = 0 ∧ x.nextSeq = 0 ∧ x.expectSeq = 0 ∧ x.errCount = 0 ∧
      x.retryCount = 0 ∧ x.blocksDone = 0 ∧ x.bytesDone = 0 ∧ x.cur = none ∧ x.heldValid = false ∧ x.commitRef = 0 ∧
      x.opening = some slot ∧ x.newlyOpen = true := by
  have hring : fld e 95 93 < 8 := Nat.mod_lt _ (by decide)
  exact ⟨rfl, rfl, rfl, rfl, rfl, rfl, rfl, rfl, rfl, Nat.mod_eq_of_lt hring, rfl, rfl, rfl, rfl, rfl, rfl, rfl, rfl, rfl, rfl, rfl,
    rfl, rfl, rfl⟩

variable {s : State} {i : InstNo} {slot : BitVec 16} {e : CEntry} {z : Nat} {d : DevRec}

/-- No endpoint of the device has the EPID (R139). -/
theorem State.no_epid (h : ∀ j x, (j, x) ∈ s.eps → x.zone = z → x.epid.toNat ≠ fld e 100 96) :
    s.eps.any (fun (_, x) => x.zone == z && x.epid.toNat == fld e 100 96) = false := by
  rw [List.any_eq_false]
  rintro ⟨j, x⟩ hx
  simpa using h j x hx

section
variable (ho : s.Ordered i slot 0x12 anyForm e) (hd : s.devOf i (fld e 92 81) = some (z, d)) (hok : s.openOk i e d = true)
  (hix : fld e 80 64 < (s.inst i).epLimit)
include ho hd hok hix

/-- A slot that holds an endpoint is not opened again. -/
theorem execOpenEndpoint_of_taken (hk : (s.ep ((s.inst i).epBase + fld e 80 64)).isSome = true) :
    execOpenEndpoint i slot s = .next (s.replied i slot .conflict 0) :=
  carryOut_ends_of_not_seq ho rfl (by simp [hd, hok, Nat.not_le.2 hix, hk])

variable (hk : s.ep ((s.inst i).epBase + fld e 80 64) = none)
  (hnew : ∀ j x, (j, x) ∈ s.eps → x.zone = z → x.epid.toNat ≠ fld e 100 96)
include hk hnew

/-- An endpoint that is not periodic is opened with no schedule to book. -/
theorem execOpenEndpoint_of_unscheduled (hkind : fld e 102 101 ≠ 1) :
    execOpenEndpoint i slot s = .next (((s.setEp ((s.inst i).epBase + fld e 80 64) (openedEp i slot e z 0 0)).cacheIn
      ((s.inst i).epBase + fld e 80 64)).replied i slot .cmdOk 0) :=
  carryOut_ends_of_not_seq ho rfl (by simp [hd, hok, Nat.not_le.2 hix, hk, State.no_epid hnew, hkind])

variable (hkind : fld e 102 101 = 1) (hup : s.branchSuspends d.pos = false) (hconv : (s.port d.port).converting = false)
include hkind hup hconv

/-- A periodic endpoint that is booked is opened with its cost and phase (R165, R173). -/
theorem execOpenEndpoint_of_booked {q : Nat} (hq : s.book ((s.inst i).epBase + fld e 80 64) i d.port
      (svcCost (s.port d.port).reckon d.tier (fld e 123 114) (bitOf e 100)) (fld e 106 103) (fld e 217 202) = some q) :
    execOpenEndpoint i slot s = .next (((s.setEp ((s.inst i).epBase + fld e 80 64) (openedEp i slot e z
      (svcCost (s.port d.port).reckon d.tier (fld e 123 114) (bitOf e 100)) q)).cacheIn ((s.inst i).epBase + fld e 80 64)).replied i slot
        .cmdOk (svcCost (s.port d.port).reckon d.tier (fld e 123 114) (bitOf e 100) + q * 2 ^ 16)) :=
  carryOut_ends_of_not_seq ho rfl (by simp [hd, hok, Nat.not_le.2 hix, hk, State.no_epid hnew, hkind, hup, hconv, hq])

/-- A periodic endpoint that cannot be booked is not opened (R173). -/
theorem execOpenEndpoint_of_unbooked (hq : s.book ((s.inst i).epBase + fld e 80 64) i d.port
      (svcCost (s.port d.port).reckon d.tier (fld e 123 114) (bitOf e 100)) (fld e 106 103) (fld e 217 202) = none) :
    execOpenEndpoint i slot s = .next (s.replied i slot .noResources 0) :=
  carryOut_ends_of_not_seq ho rfl (by simp [hd, hok, Nat.not_le.2 hix, hk, State.no_epid hnew, hkind, hup, hconv, hq])

end

end Sys2Proof.Machine
end

section
/-! OPEN_ENDPOINT (O35). -/
namespace Sys2Proof.Machine

/-- Settles O35: the context written is `openedEp`, and the answer is by what stands at the slot, the kind and the booking. -/
theorem openEndpoint : Obligations.OpenEndpoint := by
  intro s i slot e z d ho hd hok hix k cost opened
  refine ⟨fun hk hnew => ⟨fun hkind => ?_, fun hkind hup hconv => ⟨fun q hq => ?_, fun hq => ?_⟩⟩,
    execOpenEndpoint_of_taken ho hd hok hix⟩
  · exact ⟨openedEp i slot e z 0 0, openedEp_spec .., rfl, execOpenEndpoint_of_unscheduled ho hd hok hix hk hnew hkind⟩
  · refine ⟨openedEp i slot e z cost q, openedEp_spec .., rfl, rfl, ?_⟩
    rw [Nat.mul_comm 65536 q]
    exact execOpenEndpoint_of_booked ho hd hok hix hk hnew hkind hup hconv hq
  · exact execOpenEndpoint_of_unbooked ho hd hok hix hk hnew hkind hup hconv hq

end Sys2Proof.Machine
end

section
/-! Taking work (O18). -/
namespace Sys2Proof.Machine

/-- A running bulk OUT endpoint of the device at address 1, three entries in its ring, the next to take at `head`. -/
def bulkOut (head : BitVec 16) : Ep :=
  { haltedEp0 1 with kind := .bulk, epid := 1, st := .running, trHead := head, trTail := 3 }

/-- A running controller whose table of contexts lists slot 0 twice, the two endpoints at different places in their rings. -/
def contextTwice : State :=
  { State.reset with
    pw := { State.reset.pw with mode := .sole, perst := false }
    ports := Vector.replicate 32 { st := .enabled, speed := .express }
    insts := vset State.reset.insts 0
      { st := .running, busMaster := true, evt := Vector.replicate 8 { enable := true } }
    eps := [(0, bulkOut 1), (0, bulkOut 2)]
    devs := [(1, tier1Dev .addressed)] }

/-- A bulk entry of no bytes (R106). -/
def emptyEntry : TEntry := BitVec.ofNat 256 (2 ^ 108)

/-- The slots of the entries that the contexts listed have in progress. -/
def State.takenSlots (s : State) : List (Option (BitVec 16)) := s.eps.map fun x => x.2.cur.map (·.slot)

/-- Taking the entry puts the place of the first context in both. -/
theorem contextTwice_takes : (match exec (.transferEntryTake 0 emptyEntry .ok) contextTwice with
    | .next t => t.takenSlots
    | _ => []) = [some 1, some 1] := by decide +kernel

/-- Refutes O18: nothing keeps the table of contexts from listing a slot twice, and the entry taken at the first context's place is put in
progress at that place in both, while the clause has each context take it at a place of its own. -/
theorem not_takingWork : ¬ Obligations.TakingWork := by
  intro h
  obtain ⟨-, htake, -⟩ := h
  obtain ⟨u, hexec, hbare⟩ := htake contextTwice 0 (bulkOut 1) emptyEntry .ok (by decide +kernel) (by decide +kernel) (by decide +kernel)
    (by decide +kernel) rfl rfl rfl rfl
  have hone := contextTwice_takes
  rw [hexec] at hone
  have htwo := congrArg (List.map fun x : Nat × Ep => x.2.cur.map (·.slot)) (State.eps_of_bare hbare)
  exact absurd (hone.symm.trans htwo) (by decide +kernel)

end Sys2Proof.Machine
end

section
/-! Malformed work (O19). -/
namespace Sys2Proof.Machine

/-- A transaction of the controller's own to a hub, of identity 7. -/
def hubTxn : Txn :=
  { id := 7, port := 0, inst := 0, who := .hub 1, kind := .stIn, n := 1, s := 0, sent := 0, phase := .taken, arb := false, data := []
    started := false, resent := false }

/-- A running controller with tenant 1 running: data for the tenant's endpoint 0 still to be written to the host gives trowel 0 and identity
7 as the transaction whose slot it frees, and the trowel serves a transaction of a hub under that identity. -/
def identityShared : State :=
  { State.reset with
    pw := { State.reset.pw with mode := .sole, perst := false }
    insts := vset State.reset.insts 1 { st := .running }
    eps := [(0, { haltedEp0 1 with inst := 1 })]
    deliveries := [{ id := 0, ep := 0, off := 0, data := [], fin := none, txn := some (0, 7) }]
    trowels := vset State.reset.trowels 0 { slots := [hubTxn] } }

/-- The halt of tenant 1 discards its data and frees the slot of the hub's transaction. -/
theorem identityShared_frees : (match exec (.hostAccessTimeout (.command 1 0)) identityShared with
    | .next t => (t.trowel 0).slots
    | _ => [hubTxn]) = [] := by decide +kernel

/-- Refutes O19: a slot is freed by the transaction's identity alone, and nothing keeps what a delivery of the halted tenant names apart from
the transactions of others; the clause has every transaction that is not the tenant's stay. -/
theorem not_malformed : ¬ Obligations.Malformed := by
  intro h
  obtain ⟨-, htenant⟩ := h
  obtain ⟨t, hexec, -, -, -, -, -, -, -, -, -, -, -, -, -, -, hslots⟩ :=
    htenant identityShared 1 0 (by decide) (by decide +kernel) (by decide +kernel) (by decide +kernel)
  have hstays := hslots 0 hubTxn (by decide +kernel) (by decide +kernel)
  have hgone := identityShared_frees
  rw [hexec] at hgone
  change (t.trowel 0).slots = [] at hgone
  rw [hgone] at hstays
  exact List.not_mem_nil hstays

end Sys2Proof.Machine
end

section
/-!
SUPPORT. Admission, addressing, release and assignment of devices (R139, R148, R247, R97): how a command that takes its turn at the sequencer is
answered, the control transfer that each command begins, and the state without a device released.
-/
namespace Sys2Proof.Machine

variable {s : State} {i : InstNo} {slot : BitVec 16} {e : CEntry} {q : Pos}

/-! ### How a command is answered -/

/-- A command carried out is of the form that its row takes. -/
theorem State.Ordered.form_eq {op : Nat} {form : CEntry → Bool} (h : s.Ordered i slot op form e) : form e = true := by
  obtain ⟨hs, -⟩ := h
  unfold State.starts at hs
  split at hs
  · cases hs
  · split at hs
    next c _ hc =>
      obtain rfl : c.entry = e := Option.some.inj hs
      simp only [Bool.and_eq_true] at hc
      obtain ⟨⟨-, hform⟩, -⟩ := hc
      exact hform
    · cases hs

/-- A command that waits has started, its turn at the sequencer taken. -/
theorem carryOut_waits {op : Nat} {form : CEntry → Bool} {body : CEntry → Reply} {t : State} (h : s.Ordered i slot op form e)
    (hb : body e = .waits t) : carryOut i slot op form s body = .next ((t.seqServed i op).setPhase i slot .waiting).ended := by
  obtain ⟨hs, hp⟩ := h
  simp only [carryOut, hs, hp, hb]
  rfl

/-- A command that ends takes its turn at the sequencer, then completes. -/
theorem carryOut_ends_served {op : Nat} {form : CEntry → Bool} {body : CEntry → Reply} {t : State} {st : Status} {r : Nat}
    (h : s.Ordered i slot op form e) (hb : body e = .ends t st r) :
    carryOut i slot op form s body = .next ((t.seqServed i op).replied i slot st r) := by
  obtain ⟨hs, hp⟩ := h
  simp only [carryOut, hs, hp, hb]
  rfl

/-- The sequencer keeps no turn for the manager (R156). -/
theorem State.seqServed_manager (t : State) (op : Nat) : t.seqServed 0 op = t := by simp [State.seqServed]

/-- A command of the manager that waits has started. -/
theorem carryOut_waits_manager {op : Nat} {form : CEntry → Bool} {body : CEntry → Reply} {t : State} (h : s.Ordered 0 slot op form e)
    (hb : body e = .waits t) : carryOut 0 slot op form s body = .next (t.setPhase 0 slot .waiting).ended := by
  rw [carryOut_waits h hb, State.seqServed_manager]

/-- A command of the manager that ends completes. -/
theorem carryOut_ends_manager {op : Nat} {form : CEntry → Bool} {body : CEntry → Reply} {t : State} {st : Status} {r : Nat}
    (h : s.Ordered 0 slot op form e) (hb : body e = .ends t st r) :
    carryOut 0 slot op form s body = .next (t.replied 0 slot st r) := by
  rw [carryOut_ends_served h hb, State.seqServed_manager]

/-- The form of ASSIGN_ADDRESS that takes a device out of record 0 is the manager's alone (R135). -/
theorem State.Ordered.assign_by_manager (h : s.Ordered i slot 0x11 (fun e => !bitOf e 95) e) : i = 0 := by
  have hop := h.ceOp_eq
  have hform := h.form_eq
  obtain ⟨-, hp⟩ := h
  by_contra hi
  simp_all [State.notPermitted]

/-! ### Transfers begun -/

/-- Where software drives tree power, work wakes no branch (R256). -/
theorem State.wakeBranch_of_software (h : (s.port q.port).treeHw = false) : s.wakeBranch q = s := by simp [State.wakeBranch, h]

/-- No step conflicts on a branch that is up (R255). -/
theorem State.stepConflict_of_up (h : s.branchDown q = false) : s.stepConflict q = false := by simp [State.stepConflict, h]

/-- A process just begun that asks at address 0. -/
theorem State.askDefault_eq (pu : Purpose) (step zone req tgt sel arg xlen : Nat) (todo : List (Nat × Nat)) :
    (s.newProc pu q step zone todo).1.askDefault (s.newProc pu q step zone todo).2 q req tgt sel arg xlen =
      s.asking pu q step zone todo q.port 0 (s.posTier q) 8 req tgt sel arg xlen := rfl

/-- A process just begun that asks the device at an address. -/
theorem State.ask_eq {z : Nat} {d : DevRec} (hz : s.dev z = some d) (pu : Purpose) (step zone req tgt sel arg xlen : Nat) (todo : List (Nat × Nat)) :
    (s.newProc pu q step zone todo).1.ask (s.newProc pu q step zone todo).2 z req tgt sel arg xlen =
      s.asking pu q step zone todo d.port z d.tier d.ep0Max req tgt sel arg xlen := by
  have hdev : (s.newProc pu q step zone todo).1.dev z = some d := hz
  simp only [State.ask, hdev]
  rfl

/-! ### ADMIT_DEVICE -/

section
variable (ho : s.Ordered 0 slot 0x10 anyForm e)
include ho

/-- An admission where nothing can be is refused. -/
theorem execAdmitDevice_of_nowhere (hq : s.admitPos e = none) : execAdmitDevice 0 slot s = .next (s.replied 0 slot .paramInvalid 0) :=
  carryOut_ends ho rfl (by simp [hq])

variable (hq : s.admitPos e = some q) (hm : q ∈ s.tree.marks)
include hq hm

/-- An admission is BUSY while the record at address 0 is held (R242). -/
theorem execAdmitDevice_of_held (hheld : s.record0Held = true) : execAdmitDevice 0 slot s = .next (s.replied 0 slot .busy 0) :=
  carryOut_ends ho rfl (by simp [hq, hm, hheld])

variable (hshed : s.shedCmd = false) (hheld : s.record0Held = false) (hone : (s.marked q.port).length ≤ 1)
  (henum : (s.port q.port).enumHw = false) (htree : (s.port q.port).treeHw = false) (hup : s.branchDown q = false)
include hshed hheld hone henum htree hup

/-- At a root port an admission begins with the identity (R139, R441). -/
theorem execAdmitDevice_at_root (hroot : q.hub = 0) : execAdmitDevice 0 slot s =
    .next ((s.asking (.admission 0 slot) q 3 0 [] q.port 0 (s.posTier q) 8 0x51 0 0 0 8).setPhase 0 slot .waiting).ended :=
  carryOut_waits_manager ho (by
    simp [hq, hm, hheld, Nat.not_lt.2 hone, henum, hshed, State.stepConflict_of_up hup, State.wakeBranch_of_software htree, hroot,
      State.askDefault_eq, reqIdent])

/-- Behind a hub it begins with the state of the hub's port. -/
theorem execAdmitDevice_at_hub {h : DevRec} (hhub : q.hub ≠ 0) (hh : s.dev q.hub = some h) : execAdmitDevice 0 slot s =
    .next ((s.asking (.admission 0 slot) q 1 0 [] h.port q.hub h.tier h.ep0Max 0x61 0x10 q.hport 0 4).setPhase 0 slot .waiting).ended :=
  carryOut_waits_manager ho (by
    simp [hq, hm, hheld, Nat.not_lt.2 hone, henum, hshed, State.stepConflict_of_up hup, State.wakeBranch_of_software htree, hhub,
      State.ask_eq hh, reqQuery])

end

/-! ### ASSIGN_ADDRESS -/

/-- The port that a field of 5 bits names. -/
theorem portNamed_eq {p : PortNo} {n : Nat} (h : p.val = n) (hn : n % 32 < 32) : (⟨n % 32, hn⟩ : PortNo) = p :=
  Fin.ext ((congrArg (· % 32) h.symm).trans (Nat.mod_eq_of_lt p.isLt))

section
variable {d : DevRec} (ho : s.Ordered 0 slot 0x11 (fun e => !bitOf e 95) e) (hd : s.dev 0 = some d)
include ho hd

/-- An address that a record holds, or that is being given, is not given again. -/
theorem execAssignAddress_of_held (h : (s.dev (fld e 83 72)).isSome = true ∨ ∃ x ∈ s.tree.procs, x.addr = fld e 83 72) :
    execAssignAddress 0 slot s = .next (s.replied 0 slot .paramInvalid 0) := by
  refine carryOut_ends_manager ho ?_
  rcases h with h | h <;> simp [hd, h]

/-- The device in record 0 is sent ADDR_SET (R139). -/
theorem execAssignAddress_begun (hz : fld e 83 72 ≠ 0) (hport : d.port.val = fld e 68 64) (hfree : s.dev (fld e 83 72) = none)
    (hprocs : ∀ x ∈ s.tree.procs, x.addr ≠ fld e 83 72) (hone : (s.marked d.port).length ≤ 1) (henum : (s.port d.port).enumHw = false)
    (hshed : s.shedCmd = false) (htree : (s.port d.port).treeHw = false) (hup : s.branchDown d.pos = false) :
    execAssignAddress 0 slot s = .next ((s.asking (.assign 0 slot) d.pos 4 (fld e 83 72) (s.path d.pos) d.port 0 (s.posTier d.pos) 8
      0x58 0 0 (fld e 83 72) 0).setPhase 0 slot .waiting).ended := by
  rw [← d.pos_port] at htree
  refine carryOut_waits_manager ho ?_
  have hnone : s.tree.procs.any (fun x => x.addr == fld e 83 72) = false := by simpa using hprocs
  simp only [hd, hnone]
  simp [hz, portNamed_eq hport, hfree, Nat.not_lt.2 hone, henum, hshed, State.stepConflict_of_up hup,
    State.wakeBranch_of_software htree, State.askDefault_eq, reqAddrSet, d.pos_port]

end

section
variable {z : Nat} {d : DevRec} (ho : s.Ordered i slot 0x11 (fun e => bitOf e 95) e)
  (hd : (if i = 0 then (s.dev (fld e 83 72)).map fun d => (fld e 83 72, d) else s.devOf i (fld e 83 72)) = some (z, d))
include ho hd

/-- A device that does not await re-addressing is not re-addressed. -/
theorem execAssignAddressReaddress_of_addressed (hwait : d.awaiting = false) :
    execAssignAddressReaddress i slot s = .next ((s.seqServed i 0x11).replied i slot .paramInvalid 0) :=
  carryOut_ends_served ho (by simp only [hd]; simp [hwait])

/-- A device that awaits re-addressing is asked for its identity again (R247). -/
theorem execAssignAddressReaddress_begun (hz : z ≠ 0) (hwait : d.awaiting = true) (hone : (s.marked d.port).length ≤ 1)
    (hshed : s.shedCmd = false) (htree : (s.port d.port).treeHw = false) (hup : s.branchDown d.pos = false) :
    execAssignAddressReaddress i slot s = .next (((s.asking (.readdress i slot) d.pos 3 z (s.path d.pos) d.port 0 (s.posTier d.pos) 8
      0x51 0 0 0 8).seqServed i 0x11).setPhase i slot .waiting).ended := by
  rw [← d.pos_port] at htree
  refine carryOut_waits ho ?_
  simp only [hd]
  simp [hz, hwait, Nat.not_lt.2 hone, hshed, State.stepConflict_of_up hup, State.wakeBranch_of_software htree, State.askDefault_eq, reqIdent,
    d.pos_port]

end

/-! ### RELEASE_DEVICE -/

/-- Nothing but the contexts and what lists them is other in `u` than in `s`. -/
def State.Relisted (s u : State) : Prop := u = { s with eps := u.eps, ports := u.ports, tree := u.tree, mem := u.mem }

theorem State.Relisted.trans {t u : State} (hst : s.Relisted t) (htu : t.Relisted u) : s.Relisted u := by
  unfold State.Relisted at hst htu
  rw [hst] at htu
  exact htu

theorem State.Relisted.each {α : Type} {f : State → α → State} (h : ∀ (t : State) x, t.Relisted (f t x)) (l : List α) (s : State) :
    s.Relisted (s.each l f) := by
  induction l generalizing s with
  | nil => rfl
  | cons x l ih => exact (h s x).trans (ih (f s x))

/-- Holders that leave the lists change the ports alone. -/
theorem State.relisted_unlist (s : State) (gone : Holder → Bool) : s.Relisted (s.unlist gone) := by
  refine State.Relisted.each (fun (t : State) p => ?_) allPorts s
  dsimp only
  split <;> rfl

theorem State.relisted_forgetRecovery (s : State) (k : Nat) : s.Relisted (s.forgetRecovery k) := rfl

theorem State.relisted_dropEp (s : State) (k : Nat) : s.Relisted (s.dropEp k) := by
  have hcache : s.Relisted (({ s with eps := kdel s.eps k } : State).modMem fun m =>
    { m with cache := m.cache.filter (· != k), reading := m.reading.filter (· != k) }) := rfl
  exact hcache.trans (State.relisted_unlist _ _)

/-- The state with contexts gone from the table, the cache and the lists, and no recovery of them going on. -/
def State.withoutEps (s : State) (l : List Nat) : State := s.each l fun s k => (s.dropEp k).forgetRecovery k

theorem State.relisted_withoutEps (s : State) (l : List Nat) : s.Relisted (s.withoutEps l) :=
  State.Relisted.each (fun t k => (t.relisted_dropEp k).trans ((t.dropEp k).relisted_forgetRecovery k)) l s

/-- A context released is gone, and every other is as it was. -/
theorem State.forgotten_ep (s : State) (k j : Nat) : ((s.dropEp k).forgetRecovery k).ep j = if j = k then none else s.ep j := by
  obtain ⟨heps, -⟩ := s.dropEp_spec k
  obtain ⟨hkept, -⟩ := (s.dropEp k).forgetRecovery_keeps k
  rw [State.ep, hkept, heps, kget_kdel]
  rfl

theorem State.withoutEps_ep (l : List Nat) (s : State) (j : Nat) : (s.withoutEps l).ep j = if j ∈ l then none else s.ep j := by
  induction l generalizing s with
  | nil => rfl
  | cons k l ih =>
    have hstep : s.withoutEps (k :: l) = ((s.dropEp k).forgetRecovery k).withoutEps l := by
      simp only [State.withoutEps, State.each, List.foldl_cons]
    rw [hstep, ih, s.forgotten_ep]
    by_cases hk : j = k <;> by_cases hl : j ∈ l <;> simp [hk, hl]

/-- The state with a detached device's contexts, map entry and record gone. -/
def State.withoutDevice (s : State) (z : Nat) (owner : InstNo) : State :=
  let t := s.withoutEps (s.epsOf z)
  { t.modInst owner fun n => { n with devMap := n.devMap.filter fun x => x.2 != z } with devs := kdel t.devs z }

theorem State.mem_epsOf {z k : Nat} : k ∈ s.epsOf z ↔ ∃ x, (k, x) ∈ s.eps ∧ x.zone = z := by
  simp [State.epsOf]

/-- What goes with a device, and that nothing else does. -/
theorem State.withoutDevice_spec (s : State) (z : Nat) (owner : InstNo) :
    let u := s.withoutDevice z owner
    u.devs = kdel s.devs z ∧
    (∀ k x, (k, x) ∈ s.eps → x.zone = z → u.ep k = none) ∧
    (∀ k, (∀ x, (k, x) ∈ s.eps → x.zone ≠ z) → u.ep k = s.ep k) ∧
    u.insts = (s.modInst owner fun n => { n with devMap := n.devMap.filter fun y => y.2 != z }).insts ∧
    u = { s with eps := u.eps, devs := u.devs, insts := u.insts, ports := u.ports, tree := u.tree, mem := u.mem } := by
  intro u
  have hep (j : Nat) : u.ep j = if j ∈ s.epsOf z then none else s.ep j := State.withoutEps_ep _ s j
  have hlists := s.relisted_withoutEps (s.epsOf z)
  unfold State.Relisted at hlists
  refine ⟨?_, fun k x hx hz => ?_, fun k hk => ?_, ?_, ?_⟩
  · simp only [u, State.withoutDevice]
    rw [hlists]
  · rw [hep, if_pos (State.mem_epsOf.2 ⟨x, hx, hz⟩)]
  · rw [hep, if_neg fun hm => ?_]
    obtain ⟨x, hx, hz⟩ := State.mem_epsOf.1 hm
    exact hk x hx hz
  · simp only [u, State.withoutDevice]
    rw [hlists]
    rfl
  · simp only [u, State.withoutDevice]
    rw [hlists]
    rfl

section
variable {d : DevRec} (ho : s.Ordered 0 slot 0x18 anyForm e) (hz : fld e 75 64 ≠ 0) (hd : s.dev (fld e 75 64) = some d)
include ho hz hd

/-- A device that is not detached is not released. -/
theorem execReleaseDevice_of_present (hst : d.st ≠ .detached) : execReleaseDevice 0 slot s = .next (s.replied 0 slot .conflict 0) :=
  carryOut_ends ho rfl (by simp [hz, hd, hst])

/-- A detached device is released. -/
theorem execReleaseDevice_of_detached (hst : d.st = .detached) :
    execReleaseDevice 0 slot s = .next ((s.withoutDevice (fld e 75 64) d.owner).replied 0 slot .cmdOk 0) :=
  by
  refine carryOut_ends ho rfl ?_
  simp only [if_neg hz, hd, hst, bne_self_eq_false, Bool.false_eq_true, if_false, State.withoutDevice, State.withoutEps, State.modInst_devs]

end

/-! ### ASSIGN_DEVICE -/

/-- A device given by the manager to function `j` under the index `x`: its owner and the maps, before anyone is told (R97). -/
def State.givenTo (s : State) (z : Nat) (j : InstNo) (x : Nat) : State :=
  ((s.modInst 0 fun n => { n with devMap := kdel n.devMap (s.localDev 0 z) }).modDev z fun d => { d with owner := j }).modInst j fun n =>
    { n with devMap := kset n.devMap x z }

section
variable {d : DevRec} {j : InstNo} (ho : s.Ordered 0 slot 0x42 anyForm e) (hj : s.instOf (fld e 69 64) = some j) (hz : fld e 83 72 ≠ 0)
  (hd : s.dev (fld e 83 72) = some d) (hix : j = 0 ↔ fld e 95 84 = 0)
include ho hj hz hd hix

/-- A device with an endpoint of its owner open stays where it is. -/
theorem execAssignDevice_of_used (h : ∃ k y, (k, y) ∈ s.eps ∧ y.zone = fld e 83 72 ∧ y.inst = d.owner) :
    execAssignDevice 0 slot s = .next (s.replied 0 slot .conflict 0) := by
  refine carryOut_ends ho rfl ?_
  have hany : s.eps.any (fun (_, y) => y.zone == fld e 83 72 && y.inst == d.owner) = true := by
    simpa using h
  have hside : ((j == 0) != (fld e 95 84 == 0)) = false := by simp [hix, Bool.beq_eq_decide_eq]
  simp [hj, hz, hd, hside, hany]

/-- The manager's unused device is given to a tenant, and both are told. -/
theorem execAssignDevice_to_tenant (hst : d.st = .addressed) (howner : d.owner = 0) (htenant : j ≠ 0)
    (hfree : kget (s.inst j).devMap (fld e 95 84) = none) (hunused : ∀ k y, (k, y) ∈ s.eps → y.zone = fld e 83 72 → y.inst ≠ 0) :
    execAssignDevice 0 slot s = .next ((((s.givenTo (fld e 83 72) j (fld e 95 84)).postDevice .assigned 0 (fld e 83 72) 0 d.pos).postTenant
      j .assigned (fld e 95 84) 0 d.pos).replied 0 slot .cmdOk 0) := by
  refine carryOut_ends ho rfl ?_
  have hany : s.eps.any (fun (_, y) => y.zone == fld e 83 72 && y.inst == d.owner) = false := by
    rw [List.any_eq_false]
    rintro ⟨k, y⟩ hy
    simpa [howner] using hunused k y hy
  have hx : fld e 95 84 ≠ 0 := fun h => htenant (hix.2 h)
  simp only [hj, if_neg hz, hd, hany, hfree, hst]
  simp [howner, htenant, hx, State.givenTo]

end

/-- A state that agrees, reporting aside, with one that has only devices and instances other than `s` has only those other, reporting
aside. -/
theorem State.bare_of_devs_insts {g u : State} (h : u.bare = g.bare) (hg : g = { s with devs := g.devs, insts := g.insts }) :
    u.bare = State.bare { s with devs := u.devs, insts := u.insts } := by
  have hdevs : u.devs = g.devs := (congrArg State.devs h : u.bare.devs = g.bare.devs)
  have hinsts : u.insts.map Inst.bare = g.insts.map Inst.bare := (congrArg State.insts h : u.bare.insts = g.bare.insts)
  have hbare (t : State) : State.bare { s with devs := t.devs, insts := t.insts } =
    { s.bare with devs := t.devs, insts := t.insts.map Inst.bare } := rfl
  rw [hbare, hdevs, hinsts, ← hbare, ← hg]
  exact h

/-- The device has its new owner and is in its map; nothing else of what is not reporting is other. -/
theorem State.givenTo_spec {z x : Nat} {j : InstNo} {d : DevRec} {u : State} (hd : s.dev z = some d) (hu : u.bare = (s.givenTo z j x).bare) :
    u.dev z = some { d with owner := j } ∧ kget (u.inst j).devMap x = some z ∧ (∀ y, y ≠ z → u.dev y = s.dev y) ∧
      u.bare = State.bare { s with devs := u.devs, insts := u.insts } := by
  have hdevs : u.devs = kupd s.devs z fun d => { d with owner := j } := congrArg State.devs hu
  have hmap : (u.inst j).devMap = ((s.givenTo z j x).inst j).devMap := by
    have h := congrArg (fun t : State => (t.inst j).devMap) hu
    rwa [State.bare_inst, State.bare_inst] at h
  refine ⟨?_, ?_, fun y hy => ?_, State.bare_of_devs_insts hu rfl⟩
  · rw [State.dev, hdevs, kget_kupd, if_pos rfl, ← State.dev, hd]
    rfl
  · rw [hmap]
    simp [State.givenTo, kget_kset]
  · rw [State.dev, hdevs, kget_kupd, if_neg hy]
    rfl

end Sys2Proof.Machine
end

section
/-! Addressing (O34). -/
namespace Sys2Proof.Machine

/-- Settles O34: only the manager gives these commands, but for the re-addressing; each is answered by what stands at its device. -/
theorem addressing : Obligations.Addressing := by
  intro s i slot e hacted
  have hshed : s.shedCmd = false := State.shedCmd_eq_false hacted
  refine ⟨fun ho q hq hm => ?_, fun ho hq => ?_, fun ho d hd hz hport => ?_, fun ho z d hz hd => ?_, fun ho d hz hd => ?_,
    fun ho j d hj hz hd hix hst => ?_⟩
  · obtain rfl := ho.inst_eq_zero rfl
    refine ⟨execAdmitDevice_of_held ho hq hm, fun hheld hone henum htree hup => ⟨?_, fun h => ?_⟩⟩
    · exact execAdmitDevice_at_root ho hq hm hshed hheld hone henum htree hup
    · exact execAdmitDevice_at_hub ho hq hm hshed hheld hone henum htree hup
  · obtain rfl := ho.inst_eq_zero rfl
    exact execAdmitDevice_of_nowhere ho hq
  · obtain rfl := ho.assign_by_manager
    refine ⟨fun hfree hprocs hone henum htree hup => ?_, execAssignAddress_of_held ho hd⟩
    exact execAssignAddress_begun ho hd hz hport hfree hprocs hone henum hshed htree hup
  · refine ⟨fun hwait hone htree hup => ?_, execAssignAddressReaddress_of_addressed ho hd⟩
    exact execAssignAddressReaddress_begun ho hd hz hwait hone hshed htree hup
  · obtain rfl := ho.inst_eq_zero rfl
    refine ⟨fun hst => ?_, execReleaseDevice_of_present ho hz hd⟩
    exact ⟨_, execReleaseDevice_of_detached ho hz hd hst, s.withoutDevice_spec (fld e 75 64) d.owner⟩
  · obtain rfl := ho.inst_eq_zero rfl
    refine ⟨fun howner htenant hfree hunused => ?_, execAssignDevice_of_used ho hj hz hd hix⟩
    refine ⟨_, execAssignDevice_to_tenant ho hj hz hd hix hst howner htenant hfree hunused, State.givenTo_spec hd ?_⟩
    rw [State.postTenant, if_neg htenant, State.bare_unsolicited]
    exact State.bare_unsolicited _ _ _ _ _

end Sys2Proof.Machine
end

section
/-!
SUPPORT. The events of rings that have nothing pending: what the write of an event makes of its ring (R112, R118, R119, R123), in a state where
the function can be written, and the words of COMMAND and TRANSFER events (R107, R108).
-/
namespace Sys2Proof.Machine

/-! ### What reporting keeps of a function's rings -/

/-- The rings of a function with what stands in them. -/
def Inst.books (n : Inst) : Inst :=
  { evt := n.evt, unsol := n.unsol, cmds := n.cmds, cmdHead := n.cmdHead, cmdDone := n.cmdDone, cmdSize := n.cmdSize }

/-- What agreeing rings are. -/
theorem Inst.of_books {m n : Inst} (h : m.books = n.books) : m.evt = n.evt ∧ m.unsol = n.unsol ∧ m.cmds = n.cmds ∧ m.cmdHead = n.cmdHead ∧
    m.cmdDone = n.cmdDone ∧ m.cmdSize = n.cmdSize := by
  simp only [Inst.books, Inst.mk.injEq] at h
  simp [h]

/-- The rings of every function: what counting, writes to host memory and messages keep. -/
def State.books (s : State) (i : InstNo) : Inst := (s.inst i).books

section
variable {s t : State} (h : t.books = s.books)
include h

theorem State.inst_books (i : InstNo) : (t.inst i).books = (s.inst i).books := congrFun h i

/-- States with the same rings have each ring the same. -/
theorem State.ring_of_books (i : InstNo) (e : RingNo) : t.ring i e = s.ring i e :=
  (congrArg (fun n : Inst => vget n.evt e) (State.inst_books h i) : vget (t.inst i).books.evt e = vget (s.inst i).books.evt e)

theorem State.unsol_of_books (i : InstNo) : (t.inst i).unsol = (s.inst i).unsol :=
  (congrArg Inst.unsol (State.inst_books h i) : (t.inst i).books.unsol = (s.inst i).books.unsol)

/-- A change of a ring is a change of the rings alone. -/
theorem State.books_modRing_congr (i : InstNo) (e : RingNo) (f : EvtRing → EvtRing) : (t.modRing i e f).books = (s.modRing i e f).books := by
  funext j
  have hring := State.ring_of_books h i e
  have hi := State.inst_books h i
  have hj := State.inst_books h j
  simp only [State.books, State.modRing_inst, hring]
  split
  · simp only [Inst.books, Inst.mk.injEq] at hi ⊢
    simp [hi]
  · exact hj

end

variable (s : State)

theorem State.books_modInst (i : InstNo) (f : Inst → Inst) (h : (f (s.inst i)).books = (s.inst i).books) : (s.modInst i f).books = s.books := by
  funext j
  simp only [State.books, State.modInst_inst]
  split
  · next hj => rw [h, hj]
  · rfl

theorem State.books_count (o : Occ) : (s.count o).books = s.books := by
  unfold State.count
  split
  · rfl
  · unfold State.countInst
    split
    · rfl
    · exact State.books_modInst _ _ _ rfl

theorem State.books_ownWrite (addr : Nat) (bs : List Byte) : (s.ownWrite addr bs).books = s.books := by
  unfold State.ownWrite
  split
  · exact State.books_count _ _
  · split
    · rfl
    · exact State.books_modInst _ _ _ rfl

/-- The dirty log is no ring. -/
theorem State.books_logDirty (i : InstNo) (addr len : Nat) : (s.logDirty i addr len).books = s.books := by
  unfold State.logDirty
  split
  · rfl
  · refine (State.each_keeps State.books (fun t p => ?_) _ _).trans (State.books_modInst _ _ _ rfl)
    dsimp only
    split
    · rfl
    · split
      · rfl
      · exact (State.books_ownWrite _ _ _).trans (State.books_modInst _ _ _ rfl)

theorem State.books_hostWrite (i : InstNo) (addr : Nat) (bs : List Byte) : (s.hostWrite i addr bs).books = s.books :=
  (State.books_count _ _).trans (State.books_logDirty _ _ _ _)

theorem State.books_sendMsg (i : InstNo) (v : Nat) : (s.sendMsg i v).books = s.books := by
  unfold State.sendMsg
  dsimp only
  split
  · rfl
  · split
    · exact State.books_modInst _ _ _ rfl
    · split
      · exact State.books_count _ _
      · split <;> rfl

/-- A change of a ring to what it was is none. -/
theorem State.modRing_eq_self {i : InstNo} {e : RingNo} {f : EvtRing → EvtRing} (h : f (s.ring i e) = s.ring i e) : s.modRing i e f = s := by
  have hring : { s.inst i with evt := vset (s.inst i).evt e (f (s.ring i e)) } = s.inst i := by
    rw [h, State.ring, vset_vget]
  have hinst : vset s.insts i (s.inst i) = s.insts := vset_vget _ _
  rw [State.modRing, State.setRing, State.modInst, hring, State.setInst, hinst]

/-- Two changes of a ring, one after the other. -/
theorem State.modRing_modRing (i : InstNo) (e : RingNo) (f g : EvtRing → EvtRing) :
    (s.modRing i e f).modRing i e g = s.modRing i e fun r => g (f r) := by
  simp [State.modRing, State.setRing, State.modInst, State.setInst, State.ring, State.inst]

/-! ### The write of an event -/

/-- A ring as an event has been written at its tail. -/
def EvtRing.stored (r : EvtRing) : EvtRing :=
  { r with tail := BitVec.ofNat 16 ((r.tail.toNat + 1) % r.entries), counted := r.counted + 1, mirrorDue := true }

/-- A ring whose message has gone. -/
def EvtRing.fired (r : EvtRing) : EvtRing := { r with mirrorDue := false, counted := 0 }

/-- A ring as an event has been written and its message has gone if it fell due. -/
def EvtRing.announced (r : EvtRing) (now : Bool) : EvtRing := if r.stored.fires now then r.stored.fired else r.stored

/-- A ring that refuses new work if its credit is gone. -/
def EvtRing.judged (r : EvtRing) : EvtRing :=
  if r.enable && !r.blocked && decide (r.credit < 1) then { r with blocked := true, blockedTicks := 0, mirrorDue := true } else r

/-- A ring with one reserved slot fewer. -/
def EvtRing.released (r : EvtRing) : EvtRing := { r with reserved := r.reserved - 1 }

/-- The mirror written is due no more (R113). -/
theorem State.books_writeMirror (i : InstNo) (e : RingNo) :
    (s.writeMirror i e).books = (s.modRing i e fun r => { r with mirrorDue := false }).books :=
  State.books_modRing_congr (State.books_hostWrite _ _ _ _) _ _ _

/-- A ring's message, with the mirror that is due before it (R112, R123). -/
theorem State.books_fireRing {i : InstNo} {e : RingNo} (h : (s.ring i e).mirrorDue = true) :
    (s.fireRing i e).books = (s.modRing i e EvtRing.fired).books := by
  simp only [State.fireRing, h, if_true]
  refine (State.books_modRing_congr ((State.books_sendMsg _ _ _).trans (s.books_writeMirror i e)) _ _ _).trans ?_
  rw [State.modRing_modRing]
  rfl

/-- An event written moves its ring's tail and counts (R112, R123). -/
theorem State.books_storeEvent (i : InstNo) (e : RingNo) (ev : Event) : (s.storeEvent i e ev false).books = (s.modRing i e EvtRing.stored).books :=
  (State.books_count _ _).trans (State.books_modRing_congr (State.books_hostWrite _ _ _ _) _ _ _)

/-- The ring of an event as it has been written. -/
theorem State.storeEvent_ring (i : InstNo) (e : RingNo) (ev : Event) : (s.storeEvent i e ev false).ring i e = (s.ring i e).stored := by
  rw [State.ring_of_books (s.books_storeEvent i e ev), State.modRing_ring, if_pos ⟨rfl, rfl⟩]

/-- An event with no vector of its own is written, and its ring's message goes if it falls due. -/
theorem State.putEvent_none (i : InstNo) (e : RingNo) (ev : Event) (now : Bool) : s.putEvent i e ev now none =
    if (s.ring i e).stored.fires now then (s.storeEvent i e ev false).fireRing i e else s.storeEvent i e ev false := by
  rw [← s.storeEvent_ring i e ev]
  rfl

/-- An event written, with its message if it falls due, as its ring is left. -/
theorem State.books_putEvent (i : InstNo) (e : RingNo) (ev : Event) (now : Bool) :
    (s.putEvent i e ev now none).books = (s.modRing i e (·.announced now)).books := by
  have hstore := s.books_storeEvent i e ev
  have hann : s.modRing i e (·.announced now) =
      if (s.ring i e).stored.fires now then (s.modRing i e EvtRing.stored).modRing i e EvtRing.fired else s.modRing i e EvtRing.stored := by
    rw [State.modRing_modRing]
    simp only [State.modRing, EvtRing.announced]
    split <;> rfl
  rw [State.putEvent_none, hann]
  split
  · exact (State.books_fireRing _ (by rw [State.storeEvent_ring]; rfl)).trans (State.books_modRing_congr hstore _ _ _)
  · exact hstore

/-- A ring that is not refusing work, of a function with nothing pending, is settled by the judgment of its credit. -/
theorem State.settle_of_nothing {i : InstNo} {e : RingNo} (hu : (s.inst i).unsol = []) (hb : (s.ring i e).blocked = false) :
    s.settle i e = s.modRing i e EvtRing.judged := by
  have hdrain : s.drain i e = s := by simp [State.drain, hu, drainRing]
  simp only [State.settle, hb, Bool.false_and, Bool.false_eq_true, if_false, hdrain]
  unfold State.modRing EvtRing.judged
  rw [hb]
  split
  · rfl
  · exact (State.modRing_eq_self (f := id) s rfl).symm

/-- A ring as an event has been written in its reserved slot. -/
def EvtRing.received (r : EvtRing) (now : Bool) : EvtRing := (r.released.announced now).judged

/-- The write of an event does not change whether its ring refuses work. -/
theorem EvtRing.blocked_announced (r : EvtRing) (now : Bool) : (r.announced now).blocked = r.blocked := by
  unfold EvtRing.announced
  split <;> rfl

/-- An event that can be written goes into its reserved slot. -/
theorem State.postWait_of_canWrite {i : InstNo} {w : WaitEvt} (hw : s.canWrite i = true) (hv : w.vec = none) :
    s.postWait i w = ((s.modRing i w.ring EvtRing.released).putEvent i w.ring w.ev w.irqNow none).settle i w.ring := by
  rw [State.postWait, if_pos hw, hv]
  rfl

/-- An event posted into its slot changes the rings by what its own ring has received. -/
theorem State.books_postWait {i : InstNo} {w : WaitEvt} (hw : s.canWrite i = true) (hu : (s.inst i).unsol = [])
    (hb : (s.ring i w.ring).blocked = false) (hv : w.vec = none) :
    (s.postWait i w).books = (s.modRing i w.ring (·.received w.irqNow)).books := by
  have hput : ((s.modRing i w.ring EvtRing.released).putEvent i w.ring w.ev w.irqNow none).books =
      (s.modRing i w.ring fun r => r.released.announced w.irqNow).books := by
    rw [State.books_putEvent, State.modRing_modRing]
  have hunsol := (State.unsol_of_books hput i).trans (show _ = [] by rw [State.modRing_inst, if_pos rfl]; exact hu)
  have hblocked : (((s.modRing i w.ring EvtRing.released).putEvent i w.ring w.ev w.irqNow none).ring i w.ring).blocked = false := by
    rw [State.ring_of_books hput, State.modRing_ring, if_pos ⟨rfl, rfl⟩, EvtRing.blocked_announced]
    exact hb
  rw [s.postWait_of_canWrite hw hv, State.settle_of_nothing _ hunsol hblocked]
  refine (State.books_modRing_congr hput _ _ _).trans ?_
  rw [State.modRing_modRing]
  rfl

/-- A slot released without an event changes its ring alone. -/
theorem State.unreserve_of_nothing {i : InstNo} {e : RingNo} (hu : (s.inst i).unsol = []) (hb : (s.ring i e).blocked = false) :
    s.unreserve i e = s.modRing i e fun r => r.released.judged := by
  have hsettle := (s.modRing i e EvtRing.released).settle_of_nothing (i := i) (e := e)
    (by rw [State.modRing_inst, if_pos rfl]; exact hu) (by rw [State.modRing_ring, if_pos ⟨rfl, rfl⟩]; exact hb)
  rw [State.modRing_modRing] at hsettle
  exact hsettle

/-- The judgment of a ring's credit leaves its indices, slots and count. -/
theorem EvtRing.judged_spec (r : EvtRing) : r.judged.tail = r.tail ∧ r.judged.reserved = r.reserved ∧ r.judged.counted = r.counted := by
  unfold EvtRing.judged
  split <;> exact ⟨rfl, rfl, rfl⟩

/-- The write of an event moves the tail and reserves nothing. -/
theorem EvtRing.announced_spec (r : EvtRing) (now : Bool) :
    (r.announced now).tail = BitVec.ofNat 16 ((r.tail.toNat + 1) % r.entries) ∧ (r.announced now).reserved = r.reserved := by
  unfold EvtRing.announced
  split <;> exact ⟨rfl, rfl⟩

/-- An event received: the tail moves by one, and its slot is no longer reserved (R112, R118). -/
theorem EvtRing.received_spec (r : EvtRing) (now : Bool) :
    (r.received now).tail = BitVec.ofNat 16 ((r.tail.toNat + 1) % r.entries) ∧ (r.received now).reserved = r.reserved - 1 := by
  obtain ⟨htail, hreserved, -⟩ := (r.released.announced now).judged_spec
  obtain ⟨htail', hreserved'⟩ := r.released.announced_spec now
  exact ⟨htail.trans htail', hreserved.trans hreserved'⟩

/-- The count goes to 0 with the ring's message. -/
theorem EvtRing.counted_received {r : EvtRing} {now : Bool} (h : r.released.stored.fires now = true) : (r.received now).counted = 0 := by
  obtain ⟨-, -, hcounted⟩ := (r.released.announced now).judged_spec
  rw [EvtRing.received, hcounted, EvtRing.announced, if_pos h]
  rfl

/-- A message falls due by `irq_now`, by an interval of 0, or by the count (R123). -/
theorem EvtRing.fires_stored {r : EvtRing} {now : Bool} (h : now = true ∨ r.modInterval = 0 ∨ r.modCount.toNat ≤ r.counted + 1) :
    r.released.stored.fires now = true := by
  simp only [EvtRing.fires, Bool.or_eq_true, beq_iff_eq, decide_eq_true_eq]
  rcases h with h | h | h
  · exact .inl (.inl h)
  · exact .inl (.inr h)
  · exact .inr h

/-! ### What goes out -/

/-- A write to host memory goes out. -/
theorem State.out_hostWrite (i : InstNo) (addr : Nat) (bs : List Byte) : .hostWrite i addr bs ∈ (s.hostWrite i addr bs).out :=
  ((State.adds_logDirty _ i addr _).trans (State.adds_count _ _)).mem (List.mem_cons_self ..)

/-- An unmasked message in L0 goes out at once (R122, R124). -/
theorem State.out_sendMsg {i : InstNo} {v : Nat} (hen : (s.inst i).msixEn = true) (hm : (s.inst i).masked v = false) (hl : s.pw.l1 = none) :
    .msix i v ∈ (s.sendMsg i v).out := by
  have hsend : s.sendMsg i v = (s.emit (.msix i v)).count { cls := 0x11, inst := some i } := by simp [State.sendMsg, hen, hm, hl]
  rw [hsend]
  exact (State.adds_count _ _).mem (List.mem_cons_self ..)

/-- The event is written at the tail of its ring. -/
theorem State.out_putEvent (i : InstNo) (e : RingNo) (ev : Event) (now : Bool) :
    .hostWrite i ((s.ring i e).base.toNat + 32 * (s.ring i e).tail.toNat) (leBytes 32 ev.toNat) ∈ (s.putEvent i e ev now none).out := by
  have hstore : (s.hostWrite i ((s.ring i e).base.toNat + 32 * (s.ring i e).tail.toNat) (leBytes 32 ev.toNat)).Adds
      (s.storeEvent i e ev false) := (State.adds_modRing _ i e _).trans (State.adds_count _ _)
  have hput : (s.storeEvent i e ev false).Adds (s.putEvent i e ev now none) := by
    rw [State.putEvent_none]
    exact .ite (State.adds_fireRing _ i e) (.refl _)
  exact (hstore.trans hput).mem (s.out_hostWrite i _ _)

section
variable {s t : State} (h : t.bare = s.bare)
include h

theorem State.inst_bare_of_bare (i : InstNo) : (t.inst i).bare = (s.inst i).bare := by
  rw [← State.bare_inst, h, State.bare_inst]

/-- MSI-X of a function is no report. -/
theorem State.msixEn_of_bare (i : InstNo) : (t.inst i).msixEn = (s.inst i).msixEn :=
  (congrArg Inst.msixEn (State.inst_bare_of_bare h i) : (t.inst i).bare.msixEn = (s.inst i).bare.msixEn)

theorem State.masked_of_bare (i : InstNo) (v : Nat) : (t.inst i).masked v = (s.inst i).masked v :=
  (congrArg (Inst.masked · v) (State.inst_bare_of_bare h i) : (t.inst i).bare.masked v = (s.inst i).bare.masked v)

theorem State.l1_of_bare : t.pw.l1 = s.pw.l1 := (congrArg (fun u : State => u.pw.l1) h : t.bare.pw.l1 = s.bare.pw.l1)

end

/-- The message of a ring goes as the ring's vector, unmasked with the link in L0 (R122, R123). -/
theorem State.out_fireRing {i : InstNo} {e : RingNo} (hen : (s.inst i).msixEn = true)
    (hm : (s.inst i).masked (s.ring i e).vector.toNat = false) (hl : s.pw.l1 = none) :
    .msix i (s.ring i e).vector.toNat ∈ (s.fireRing i e).out := by
  have hmirror : (s.writeMirror i e).bare = s.bare := s.bare_writeMirror i e
  have hvector : ((s.writeMirror i e).ring i e).vector = (s.ring i e).vector := by
    rw [State.ring_of_books (s.books_writeMirror i e), State.modRing_ring, if_pos ⟨rfl, rfl⟩]
  unfold State.fireRing
  dsimp only
  refine (State.adds_modRing _ i e _).mem ?_
  split
  · rw [hvector]
    exact State.out_sendMsg _ ((State.msixEn_of_bare hmirror i).trans hen) ((State.masked_of_bare hmirror i _).trans hm)
      ((State.l1_of_bare hmirror).trans hl)
  · exact s.out_sendMsg hen hm hl

/-- The event of a work item that ends is written at the tail of its ring, as its function can be written. -/
theorem State.out_postWait {i : InstNo} {w : WaitEvt} (hw : s.canWrite i = true) (hv : w.vec = none) :
    .hostWrite i ((s.ring i w.ring).base.toNat + 32 * (s.ring i w.ring).tail.toNat) (leBytes 32 w.ev.toNat) ∈ (s.postWait i w).out := by
  rw [s.postWait_of_canWrite hw hv]
  have hout := (s.modRing i w.ring EvtRing.released).out_putEvent i w.ring w.ev w.irqNow
  rw [State.modRing_ring, if_pos ⟨rfl, rfl⟩] at hout
  exact (State.adds_settle _ i w.ring).mem hout

/-- The message of its ring goes with an event that makes it fall due. -/
theorem State.msix_postWait {i : InstNo} {w : WaitEvt} (hw : s.canWrite i = true) (hv : w.vec = none)
    (hf : (s.ring i w.ring).released.stored.fires w.irqNow = true) (hen : (s.inst i).msixEn = true)
    (hm : (s.inst i).masked (s.ring i w.ring).vector.toNat = false) (hl : s.pw.l1 = none) :
    .msix i (s.ring i w.ring).vector.toNat ∈ (s.postWait i w).out := by
  have hring : (s.modRing i w.ring EvtRing.released).ring i w.ring = (s.ring i w.ring).released := by
    rw [State.modRing_ring, if_pos ⟨rfl, rfl⟩]
  have hbare : ((s.modRing i w.ring EvtRing.released).storeEvent i w.ring w.ev false).bare = s.bare :=
    (State.bare_storeEvent _ i w.ring w.ev false).trans (s.bare_modRing i w.ring _ rfl)
  have hout := ((s.modRing i w.ring EvtRing.released).storeEvent i w.ring w.ev false).out_fireRing (i := i) (e := w.ring)
    ((State.msixEn_of_bare hbare i).trans hen) (by rw [State.storeEvent_ring, hring]; exact (State.masked_of_bare hbare i _).trans hm)
    ((State.l1_of_bare hbare).trans hl)
  rw [State.storeEvent_ring, hring] at hout
  rw [s.postWait_of_canWrite hw hv, State.putEvent_none, hring, if_pos hf]
  exact (State.adds_settle _ i w.ring).mem hout

/-! ### The words of events -/

section
variable {n : Nat} {l : List (Nat × Nat × Nat)} (h : Rising l) {hi lo : Nat}
include h

/-- A field of a word that is packed from fields. -/
theorem fld_ofNat_pack {v : Nat} (hm : (lo, hi + 1 - lo, v) ∈ l) (hlo : lo ≤ hi) (hhi : hi < n) :
    fld (BitVec.ofNat n (pack l)) hi lo = v % 2 ^ (hi + 1 - lo) := by
  obtain ⟨d, hd⟩ : ∃ d, n = lo + (hi + 1 - lo) + d := Nat.exists_eq_add_of_le (by omega)
  rw [← pack_div_mod h hm, fld, BitVec.toNat_ofNat, Nat.shiftRight_eq_div_pow, hd, add_assoc, pow_add 2 lo,
    Nat.mod_mul_right_div_self, Nat.mod_mod_of_dvd _ (pow_dvd_pow 2 (Nat.le_add_right _ d))]

/-- The bits above every field are 0. -/
theorem fld_ofNat_pack_above (hl : ∀ x ∈ l, x.1 + x.2.1 ≤ lo) : fld (BitVec.ofNat n (pack l)) hi lo = 0 := by
  have hlt : (BitVec.ofNat n (pack l)).toNat < 2 ^ lo := by
    rw [BitVec.toNat_ofNat]
    exact (Nat.mod_le _ _).trans_lt (pack_lt h hl)
  rw [fld, Nat.shiftRight_eq_div_pow, Nat.div_eq_of_lt hlt, Nat.zero_mod]

end

theorem Status.code_lt (st : Status) : st.code < 2 ^ 8 := by cases st <;> decide

theorem fld_lt {n : Nat} (x : BitVec n) (hi lo : Nat) : fld x hi lo < 2 ^ (hi + 1 - lo) := Nat.mod_lt _ (Nat.two_pow_pos _)

/-- The fields of a COMMAND event (R108). -/
theorem commandEvent_fields {tag result slot status : Nat} (htag : tag < 2 ^ 32) (hres : result < 2 ^ 96) (hslot : slot < 2 ^ 16)
    (hst : status < 2 ^ 8) : let ev := commandEvent tag result slot status
    fld ev 7 0 = 2 ∧ fld ev 15 8 = status ∧ fld ev 31 16 = slot ∧ fld ev 127 32 = result ∧ fld ev 223 192 = tag ∧ fld ev 255 224 = 0 := by
  have hrise : Rising [(0, 8, 0x02), (8, 8, status), (16, 16, slot), (32, 96, result), (192, 32, tag)] := by simp [Rising]
  exact ⟨fld_ofNat_pack hrise (v := 2) (by simp) (by decide) (by decide),
    (fld_ofNat_pack hrise (by simp) (by decide) (by decide)).trans (Nat.mod_eq_of_lt hst),
    (fld_ofNat_pack hrise (by simp) (by decide) (by decide)).trans (Nat.mod_eq_of_lt hslot),
    (fld_ofNat_pack hrise (by simp) (by decide) (by decide)).trans (Nat.mod_eq_of_lt hres),
    (fld_ofNat_pack hrise (by simp) (by decide) (by decide)).trans (Nat.mod_eq_of_lt htag),
    fld_ofNat_pack_above hrise (by simp)⟩

/-- The fields of a TRANSFER event (R107). -/
theorem transferEvent_fields {tag stamp bytes loc slot status : Nat} (htag : tag < 2 ^ 64) (hstamp : stamp < 2 ^ 32) (hbytes : bytes < 2 ^ 24)
    (hloc : loc < 2 ^ 17) (hslot : slot < 2 ^ 16) (hst : status < 2 ^ 8) : let ev := transferEvent tag stamp bytes loc slot status
    fld ev 7 0 = 1 ∧ fld ev 15 8 = status ∧ fld ev 31 16 = slot ∧ fld ev 48 32 = loc ∧ fld ev 87 64 = bytes ∧ fld ev 127 96 = stamp ∧
      fld ev 255 192 = tag := by
  have hrise : Rising [(0, 8, 0x01), (8, 8, status), (16, 16, slot), (32, 17, loc), (64, 24, bytes), (96, 32, stamp), (192, 64, tag)] := by
    simp [Rising]
  exact ⟨fld_ofNat_pack hrise (v := 1) (by simp) (by decide) (by decide),
    (fld_ofNat_pack hrise (by simp) (by decide) (by decide)).trans (Nat.mod_eq_of_lt hst),
    (fld_ofNat_pack hrise (by simp) (by decide) (by decide)).trans (Nat.mod_eq_of_lt hslot),
    (fld_ofNat_pack hrise (by simp) (by decide) (by decide)).trans (Nat.mod_eq_of_lt hloc),
    (fld_ofNat_pack hrise (by simp) (by decide) (by decide)).trans (Nat.mod_eq_of_lt hbytes),
    (fld_ofNat_pack hrise (by simp) (by decide) (by decide)).trans (Nat.mod_eq_of_lt hstamp),
    (fld_ofNat_pack hrise (by simp) (by decide) (by decide)).trans (Nat.mod_eq_of_lt htag)⟩

end Sys2Proof.Machine
end

section
/-! Completions (O59). -/
namespace Sys2Proof.Machine

/-! ### Posting -/

/-- An event posted into its slot: its ring moves on by it, and no other ring of the function moves. -/
theorem State.post_rings {s : State} {i : InstNo} {e : RingNo} (ev : Event) (now : Bool) (hw : s.canWrite i = true)
    (hu : (s.inst i).unsol = []) (hb : (s.ring i e).blocked = false) :
    (s.post i e ev now).ring i e = (s.ring i e).received now ∧ ∀ f, f ≠ e → (s.post i e ev now).ring i f = s.ring i f := by
  have hbooks := s.books_postWait (w := ⟨e, ev, now, none, .none, none, none⟩) hw hu hb rfl
  refine ⟨?_, fun f hf => ?_⟩
  · exact (State.ring_of_books hbooks i e).trans (by rw [State.modRing_ring, if_pos ⟨rfl, rfl⟩])
  · exact (State.ring_of_books hbooks i f).trans (by rw [State.modRing_ring, if_neg fun h => hf h.2])

/-! ### Commands -/

/-- The command ring's head past a slot completed at it, with nothing completed before (R92). -/
theorem Inst.retire_at_head {n : Inst} {slot : BitVec 16} (hh : n.cmdHead = slot) (hd : n.cmdDone = []) :
    n.retire slot = { n with cmdHead := BitVec.ofNat 16 ((slot.toNat + 1) % n.cmdEntries), cmdDone := [] } := by
  simp [Inst.retire, hh, hd, passDone]

/-- A slot completed elsewhere waits for the head. -/
theorem Inst.retire_ahead {n : Inst} {slot : BitVec 16} (hh : n.cmdHead ≠ slot) (hd : n.cmdDone = []) :
    n.retire slot = { n with cmdDone := [slot] } := by
  simp [Inst.retire, hd, passDone, hh]

/-- The head passes a command's slot in its function, whatever endpoint opens with it. -/
theorem State.inst_passHead_command (s : State) (i : InstNo) (slot : BitVec 16) :
    (s.passHead i (.command slot)).inst i = (s.inst i).retire slot := by
  unfold State.passHead
  dsimp only
  split <;> simp [State.inst]

/-- The head's passing takes no command away. -/
theorem Inst.cmds_retire (n : Inst) (slot : BitVec 16) : (n.retire slot).cmds = n.cmds := rfl

/-- A command taken out of its function, and its end counted. -/
def State.cmdEnded (s : State) (i : InstNo) (slot : BitVec 16) : State :=
  (s.modInst i fun n => { n with cmds := n.cmds.filter fun c => c.slot != slot }).count { cls := 0x0F, inst := some i }

/-- The end of a command is a report alone. -/
theorem State.bare_cmdEnded (s : State) (i : InstNo) (slot : BitVec 16) : (s.cmdEnded i slot).bare = s.bare :=
  (State.bare_count _ _).trans (s.bare_modInst i _ rfl)

/-- The function of a command that has ended has its rings as they were, and the command no more. -/
theorem State.inst_cmdEnded (s : State) (i : InstNo) (slot : BitVec 16) : let n := (s.cmdEnded i slot).inst i
    n.evt = (s.inst i).evt ∧ n.unsol = (s.inst i).unsol ∧ n.cmds = ((s.inst i).cmds.filter fun c => c.slot != slot) ∧
      n.cmdHead = (s.inst i).cmdHead ∧ n.cmdDone = (s.inst i).cmdDone ∧ n.cmdEntries = (s.inst i).cmdEntries := by
  have hbooks := State.inst_books (State.books_count (s.modInst i fun n => { n with cmds := n.cmds.filter fun c => c.slot != slot })
    { cls := 0x0F, inst := some i }) i
  rw [State.modInst_inst, if_pos rfl] at hbooks
  obtain ⟨hevt, hunsol, hcmds, hhead, hdone, hsize⟩ := Inst.of_books hbooks
  exact ⟨hevt, hunsol, hcmds, hhead, hdone, congrArg (fun z : BitVec 4 => 2 ^ (z.toNat + 4)) hsize⟩

/-- The event that waits for its slot as a command ends (R105, R108). -/
def commandWait (slot : BitVec 16) (ev : Event) : WaitEvt := ⟨0, ev, false, none, .command slot, none, none⟩

section
variable {s : State} {i : InstNo} {slot : BitVec 16} {c : Cmd} (hc : s.cmd i slot = some c) (hw : s.canWrite i = true)
include hc hw

/-- A command that ends has its event written, and then the head passes its slot (R92). -/
theorem State.finish_of_canWrite (st : Status) (r : Nat) : s.finish i slot st r =
    ((s.cmdEnded i slot).postWait i (commandWait slot (commandEvent (ceTag c.entry) r slot.toNat st.code))).passHead i (.command slot) := by
  obtain ⟨hpw, hin⟩ := State.not_halted_of_canWrite hw
  have hmod : (s.modInst i fun n => { n with cmds := n.cmds.filter fun c => c.slot != slot }).bare = s.bare := s.bare_modInst i _ rfl
  have hhalt : (((s.modInst i fun n => { n with cmds := n.cmds.filter fun c => c.slot != slot }).inst i).halted ||
      (s.modInst i fun n => { n with cmds := n.cmds.filter fun c => c.slot != slot }).pw.halted) = false := by
    rw [State.modInst_inst, if_pos rfl, State.modInst_pw, hpw, hin]
    rfl
  have hwrite := (State.canWrite_of_core (State.core_of_bare (s.bare_cmdEnded i slot)) i).trans hw
  simp only [State.finish, hc, hhalt, Bool.false_eq_true, if_false]
  exact if_pos hwrite

variable (hu : (s.inst i).unsol = []) (hb : (s.ring i 0).blocked = false)
include hu hb

/-- What the end of a command makes of its function's ring: the command is gone, and the head passes its slot. -/
theorem State.inst_finish (st : Status) (r : Nat) : ∃ n : Inst, ((s.finish i slot st r).inst i) = n.retire slot ∧
    n.cmds = ((s.inst i).cmds.filter fun c => c.slot != slot) ∧ n.cmdHead = (s.inst i).cmdHead ∧ n.cmdDone = (s.inst i).cmdDone ∧
    n.cmdEntries = (s.inst i).cmdEntries := by
  obtain ⟨hevt, hunsol, hcmds, hhead, hdone, hentries⟩ := s.inst_cmdEnded i slot
  have hring : (s.cmdEnded i slot).ring i 0 = s.ring i 0 := congrArg (vget · 0) hevt
  have hwrite := (State.canWrite_of_core (State.core_of_bare (s.bare_cmdEnded i slot)) i).trans hw
  have hbooks := (s.cmdEnded i slot).books_postWait (w := commandWait slot (commandEvent (ceTag c.entry) r slot.toNat st.code)) hwrite
    (hunsol.trans hu) ((congrArg EvtRing.blocked hring).trans hb) rfl
  have hn := State.inst_books hbooks i
  rw [State.modRing_inst, if_pos rfl] at hn
  obtain ⟨-, -, hcmds', hhead', hdone', hsize'⟩ := Inst.of_books hn
  exact ⟨_, by rw [State.finish_of_canWrite hc hw, State.inst_passHead_command], hcmds'.trans hcmds, hhead'.trans hhead, hdone'.trans hdone,
    (congrArg (fun z : BitVec 4 => 2 ^ (z.toNat + 4)) hsize').trans hentries⟩

omit hu hb in
/-- The COMMAND event goes out. -/
theorem State.out_finish (st : Status) (r : Nat) : .hostWrite i ((s.ring i 0).base.toNat + 32 * (s.ring i 0).tail.toNat)
    (leBytes 32 (commandEvent (ceTag c.entry) r slot.toNat st.code).toNat) ∈ (s.finish i slot st r).out := by
  obtain ⟨hevt, -⟩ := s.inst_cmdEnded i slot
  have hring : (s.cmdEnded i slot).ring i 0 = s.ring i 0 := congrArg (vget · 0) hevt
  have hwrite := (State.canWrite_of_core (State.core_of_bare (s.bare_cmdEnded i slot)) i).trans hw
  have hout := (s.cmdEnded i slot).out_postWait (w := commandWait slot (commandEvent (ceTag c.entry) r slot.toNat st.code)) hwrite rfl
  rw [State.finish_of_canWrite hc hw, ← hring]
  obtain ⟨-, hadds⟩ := ((s.cmdEnded i slot).postWait i (commandWait slot (commandEvent (ceTag c.entry) r slot.toNat st.code))).reports_passHead
    i (.command slot)
  exact hadds.mem hout

end

/-- An endpoint that is not to open with the slot stays as it is. -/
theorem Ep.opened_of_ne {x : Ep} {slot : BitVec 16} (i : InstNo) (h : x.opening ≠ some slot) : x.opened i slot = x := by
  simp [Ep.opened, h]

/-! ### Transfer entries -/

/-- The state as an entry completes, before its event: it is no longer in progress, and its item has its values. -/
def State.entryEnded (s : State) (k : Nat) (e : Ep) (x : Xfer) (st : Status) : State :=
  let t := s.setEp k { e with cur := none, bytesDone := e.bytesDone + BitVec.ofNat 64 x.bytes }
  match x.item with
  | some a => t.modDisp fun d => { d with items := kupd d.items a (·.completed x.entry x.bytes st x.slot (s.localIx e k)) }
  | none => t

/-- The event that waits for its slot as a transfer entry ends, and what its write brings about (R92, R107). -/
def State.entryWait (s : State) (k : Nat) (e : Ep) (x : Xfer) (st : Status) : WaitEvt :=
  ⟨e.evtRing, transferEvent (teTag x.entry) s.stamp x.bytes (s.localIx e k) x.slot.toNat st.code, teIrqNow x.entry, none, .transfer k,
    if teGateEn x.entry then some (teGate x.entry) else none, x.item⟩

/-- The instances, and what has gone out, stay. -/
theorem State.entryEnded_keeps (s : State) (k : Nat) (e : Ep) (x : Xfer) (st : Status) : let t := s.entryEnded k e x st
    t.inst = s.inst ∧ t.out = s.out ∧ ∀ i, t.canWrite i = s.canWrite i := by
  unfold State.entryEnded
  dsimp only
  split <;> exact ⟨rfl, rfl, fun _ => rfl⟩

section
variable {s : State} {k : Nat} {e : Ep} {x : Xfer} (hep : s.ep k = some e) (hcur : e.cur = some x) (hw : s.canWrite e.inst = true)
include hep hcur hw

/-- An entry that completes has its event written, or its slot released where the event is suppressed, and then what the write brings
about (R92, R103). -/
theorem State.complete_of_canWrite (st : Status) : s.complete k st =
    State.after (if teSuppress x.entry && st == .success then (s.entryEnded k e x st).unreserve e.inst e.evtRing
      else (s.entryEnded k e x st).postWait e.inst (s.entryWait k e x st)) e.inst (s.entryWait k e x st) := by
  obtain ⟨hpw, hin⟩ := State.not_halted_of_canWrite hw
  obtain ⟨-, -, hcan⟩ := s.entryEnded_keeps k e x st
  have hwrite := (hcan e.inst).trans hw
  have hhalt : ((s.inst e.inst).halted || s.pw.halted) = false := by rw [hpw, hin]; rfl
  simp only [State.complete, State.completeAt, hep, hcur, hhalt, Bool.false_eq_true, if_false]
  change (if _ then _ else if (s.entryEnded k e x st).canWrite e.inst then _ else _) = _
  rw [hwrite]
  split <;> rfl

/-- The TRANSFER event of an entry that does not suppress it goes out. -/
theorem State.out_complete {st : Status} (h : teSuppress x.entry = false ∨ st ≠ .success) :
    .hostWrite e.inst ((s.ring e.inst e.evtRing).base.toNat + 32 * (s.ring e.inst e.evtRing).tail.toNat)
      (leBytes 32 (transferEvent (teTag x.entry) s.stamp x.bytes (s.localIx e k) x.slot.toNat st.code).toNat) ∈ (s.complete k st).out := by
  obtain ⟨hinst, -, hcan⟩ := s.entryEnded_keeps k e x st
  have hring : (s.entryEnded k e x st).ring e.inst e.evtRing = s.ring e.inst e.evtRing :=
    congrArg (fun f : InstNo → Inst => vget (f e.inst).evt e.evtRing) hinst
  have hnot : (teSuppress x.entry && st == .success) = false := by
    rcases h with h | h <;> simp [h]
  have hout := (s.entryEnded k e x st).out_postWait (w := s.entryWait k e x st) ((hcan e.inst).trans hw) rfl
  rw [State.complete_of_canWrite hep hcur hw, hnot, if_neg Bool.false_ne_true, ← hring]
  obtain ⟨-, hadds⟩ := ((s.entryEnded k e x st).postWait e.inst (s.entryWait k e x st)).reports_after e.inst (s.entryWait k e x st)
  exact hadds.mem hout

/-- A suppressed entry without a gate and an item sends nothing out (R103). -/
theorem State.out_complete_suppressed (hu : (s.inst e.inst).unsol = []) (hb : (s.ring e.inst e.evtRing).blocked = false)
    (hsup : teSuppress x.entry = true) (hgate : teGateEn x.entry = false) (hitem : x.item = none) :
    (s.complete k .success).out = s.out := by
  obtain ⟨hinst, hout, -⟩ := s.entryEnded_keeps k e x .success
  have hring : (s.entryEnded k e x .success).ring e.inst e.evtRing = s.ring e.inst e.evtRing :=
    congrArg (fun f : InstNo → Inst => vget (f e.inst).evt e.evtRing) hinst
  have hwait : s.entryWait k e x .success = { s.entryWait k e x .success with gate := none, item := none } := by
    simp [State.entryWait, hgate, hitem]
  rw [State.complete_of_canWrite hep hcur hw, hsup, if_pos (by decide), hwait, State.unreserve_of_nothing _
    ((congrArg (fun f : InstNo → Inst => (f e.inst).unsol) hinst).trans hu) ((congrArg EvtRing.blocked hring).trans hb)]
  exact hout

end

/-- Settles O59: an event goes into its slot with its fields as the layout gives them, and then the head passes what has completed. -/
theorem completions : Obligations.Completions := by
  refine ⟨fun s i e ev now hw hu hb => ?_, fun s i slot st r c hc hw hu hb hr hopen => ?_,
    fun s k st e x hep hcur hw hu hb hbytes hloc => ?_⟩
  · obtain ⟨hring, hothers⟩ := State.post_rings ev now hw hu hb
    obtain ⟨htail, hreserved⟩ := (s.ring i e).received_spec now
    refine ⟨s.out_postWait hw rfl, (congrArg EvtRing.tail hring).trans htail, (congrArg EvtRing.reserved hring).trans hreserved, hothers,
      fun hdue => ⟨?_, fun hen hm hl => ?_⟩, s.bare_post i e ev now⟩
    · exact (congrArg EvtRing.counted hring).trans (EvtRing.counted_received (EvtRing.fires_stored hdue))
    · exact s.msix_postWait (w := ⟨e, ev, now, none, .none, none, none⟩) hw rfl (EvtRing.fires_stored hdue) hen hm hl
  · obtain ⟨n, hn, hcmds, hhead, hdone, hentries⟩ := State.inst_finish hc hw hu hb st r
    refine ⟨⟨_, State.out_finish hc hw st r, commandEvent_fields (fld_lt ..) hr slot.isLt st.code_lt⟩, ?_, fun hat hnone => ?_,
      fun hat hnone => ?_, s.bare_finish i slot st r fun y hy => Ep.opened_of_ne i (hopen y hy)⟩
    · rw [State.cmd, hn, Inst.cmds_retire, hcmds]
      simp [List.find?_eq_none]
    · rw [hn, Inst.retire_at_head (hhead.trans hat) (hdone.trans hnone), hentries]
    · rw [hn, Inst.retire_ahead (fun h => hat (hhead.symm.trans h)) (hdone.trans hnone)]
      exact ⟨hhead, rfl⟩
  · refine ⟨fun h => ⟨_, State.out_complete hep hcur hw h, ?_⟩, ?_, ?_, fun j hj => ?_⟩
    · exact transferEvent_fields (fld_lt ..) (Nat.mod_lt _ (Nat.two_pow_pos 32)) hbytes hloc x.slot.isLt st.code_lt
    · rintro hsup rfl hgate hitem
      exact State.out_complete_suppressed hep hcur hw hu hb hsup hgate hitem
    · rw [State.complete, s.ep_completeAt st s.stamp hep hcur, if_pos rfl, State.reports_of_canWrite hw, hw]
      simp [Ep.completed, Ep.advance, Ep.ringSize]
    · exact s.ep_completeAt_ne st s.stamp hj

end Sys2Proof.Machine
end

section
/-! Enumeration (O55). -/
namespace Sys2Proof.Machine

/-- A hub at tier 7, the last tier at which a device may stand (R21). -/
def tier7Hub : DevRec :=
  { port := 0, tier := 7, parent := 1, phport := 1, route := 0, hub := true, rev3 := false, speed := .express, owner := 0, hubPorts := 1
    st := .addressed, ep0Max := 64, cls := 0, admitFrame := 0, resetGen := 0, awaiting := false, perPort := false, statusOn := false
    statusPhase := 0, statusSeq := 0, bits := 0, hports := [], work := 0 }

/-- A running controller in hardware enumeration, with a hub of tier 7 at zone address 2. The position at its port 1 failed once. -/
def failedAtTier8 : State :=
  { State.reset with
    pw := { State.reset.pw with mode := .sole, perst := false }
    ports := Vector.replicate 32 { st := .enabled, speed := .express, enumHw := true }
    devs := [(2, tier7Hub)]
    tree := { State.reset.tree with failedOnce := [⟨0, 2, 1⟩] } }

/-- What a view of the next state shows, where a command answers one. -/
def nextView {α : Type} (view : State → α) (a : Answer) : Option α :=
  match a with
  | .next t => some (view t)
  | _ => none

/-- The retry of a position at tier 8 puts nothing into the order of enumeration. -/
theorem failedAtTier8_retry : nextView (·.tree.waiting) (exec (.enumRetry ⟨0, 2, 1⟩) failedAtTier8) = some [] := by decide +kernel

/-- Refutes O55: `failedOnce` may name a position below a hub that stands at tier 7 by the time of the retry, and ENUM_RETRY leaves such a
position out of the order, because no device is enumerated below tier 7 (R21); the clause has every position that failed once wait. -/
theorem not_enumeration : ¬ Obligations.Enumeration := by
  intro h
  obtain ⟨-, -, -, hretry, -⟩ := h
  obtain ⟨t, hexec, ⟨w, hw, -⟩, -⟩ := hretry failedAtTier8 ⟨0, 2, 1⟩ (by decide +kernel) (by decide +kernel) (by decide +kernel)
  have hnone := failedAtTier8_retry
  rw [hexec] at hnone
  have hempty : t.tree.waiting = [] := Option.some.inj hnone
  rw [hempty] at hw
  exact List.not_mem_nil hw

end Sys2Proof.Machine
end

section
/-! Gates (O39). -/
namespace Sys2Proof.Machine

/-- GATE_CREATE of a gate that counts from 1, with no task (R145). -/
def gateOrder : CEntry := BitVec.ofNat 512 (0x31 + 2 ^ 64)

/-- A running controller whose manager has GATE_CREATE in slot 0. Gate 0 was cancelled, and a decrement of the cycle of its cancel is still
to come (R302). -/
def gateReused : State :=
  { State.reset with
    pw := { State.reset.pw with mode := .sole, perst := false }
    insts := vset State.reset.insts 0 { st := .running, gateQuota := 1, cmds := [⟨0, gateOrder, .fetched⟩] }
    disp := { State.reset.disp with absorb := [0] } }

theorem gateReused_ordered : gateReused.Ordered 0 0 0x31 anyForm gateOrder := ⟨by decide +kernel, by decide +kernel⟩

/-- Refutes O39: a gate may be taken while decrements of the cycle in which it was cancelled are still to come, and GATE_CREATE has the new
gate count them: they are absorbed no more. The clause has the table of gates change alone. -/
theorem not_gates : ¬ Obligations.Gates := by
  intro h
  obtain ⟨hcreate, -⟩ := h gateReused 0 0 gateOrder
  obtain ⟨hbare, -⟩ := hcreate gateReused_ordered (by decide +kernel) (by decide +kernel) 0 (by decide +kernel)
  have hexec := congrArg (nextView (·.disp.absorb)) (hbare (by decide +kernel))
  exact absurd hexec (by decide +kernel)

end Sys2Proof.Machine
end

section
/-!
SUPPORT. Commands that wait for data from host memory (R145, R148): the read is asked for, the command stands as waiting, and nothing else has
changed; and the command that goes on as the data comes.
-/
namespace Sys2Proof.Machine

variable (s : State)

/-! ### Commands in hand at the end of a command -/

theorem State.books_writeRecord (z : Nat) : (s.writeRecord z).books = s.books := by
  unfold State.writeRecord
  dsimp only
  split <;> exact State.books_hostWrite _ _ _ _

theorem State.books_syncStore : s.syncStore.books = s.books := by
  unfold State.syncStore
  split
  · rfl
  · have hwritten (rs ms : List Nat) : ((s.each rs State.writeRecord).each ms State.writeMapEntry).books = s.books :=
      (State.each_keeps State.books (fun t _ => t.books_hostWrite _ _ _) ms _).trans
        (State.each_keeps State.books (fun t z => t.books_writeRecord z) rs s)
    dsimp only
    split
    · exact hwritten _ _
    · exact (hwritten _ _ : _ = s.books)

theorem State.books_sendCtr : s.sendCtr.books = s.books := by
  refine (State.each_keeps State.books (fun t i => ?_) allInsts s.sendDevCtr).trans ?_
  · unfold State.sendInstCtr
    split
    · exact (State.books_sendMsg _ _ _).trans (State.books_modInst _ _ _ rfl)
    · rfl
  · unfold State.sendDevCtr
    split
    · exact (State.books_sendMsg _ _ _).trans rfl
    · rfl

/-- The end of a command keeps every function's commands in hand. -/
theorem State.books_ended : s.ended.books = s.books := s.syncStore.books_sendCtr.trans s.books_syncStore

theorem State.cmd_of_books {s t : State} (h : t.books = s.books) (i : InstNo) (slot : BitVec 16) : t.cmd i slot = s.cmd i slot := by
  obtain ⟨-, -, hcmds, -⟩ := Inst.of_books (State.inst_books h i)
  rw [State.cmd, hcmds]
  rfl

theorem State.books_hostRead (i : InstNo) (addr len : Nat) (k c : Option Nat) : (s.hostRead i addr len k c).books = s.books :=
  State.books_count _ _

theorem State.cmd_seqServed (j i : InstNo) (op : Nat) (slot : BitVec 16) : (s.seqServed j op).cmd i slot = s.cmd i slot := by
  unfold State.seqServed
  split <;> rfl

/-- A command whose phase is changed stands in that phase. -/
theorem State.cmd_setPhase {i : InstNo} {slot : BitVec 16} {c : Cmd} (hc : s.cmd i slot = some c) (ph : CmdPhase) :
    ((s.setPhase i slot ph).cmd i slot).map (·.phase) = some ph := by
  have hslot (x : Cmd) : (if x.slot = slot then { x with phase := ph } else x).slot = x.slot := by split <;> rfl
  have hfound : (s.inst i).cmds.find? (fun x => x.slot == slot) = some c := hc
  have hthis : c.slot = slot := by simpa using List.find?_some hfound
  simp only [State.cmd, State.setPhase, State.modInst_inst, if_true, List.find?_map, Function.comp_def, hslot, hfound, Option.map_some, hthis]

/-! ### Reads begun -/

variable {s}

/-- A command that is carried out is in hand, and has not started. -/
theorem State.Ordered.cmd {i : InstNo} {slot : BitVec 16} {op : Nat} {form : CEntry → Bool} {e : CEntry} (h : s.Ordered i slot op form e) :
    s.cmd i slot = some ⟨((s.cmd i slot).map (·.slot)).getD 0, e, .fetched⟩ := by
  obtain ⟨hs, -⟩ := h
  unfold State.starts at hs
  split at hs
  · cases hs
  · split at hs
    next c hcmd hc =>
      obtain rfl : c.entry = e := Option.some.inj hs
      simp only [Bool.and_eq_true] at hc
      obtain ⟨⟨⟨hstart, -⟩, -⟩, -⟩ := hc
      simp only [State.mayStart, Bool.and_eq_true, beq_iff_eq] at hstart
      obtain ⟨⟨⟨-, hphase⟩, -⟩, -⟩ := hstart
      rw [hcmd, ← hphase]
      rfl
    · cases hs

/-- A command that reads host memory waits, its read asked for. -/
theorem State.waits_for_read {i : InstNo} {slot : BitVec 16} {c : Cmd} (hc : s.cmd i slot = some c) (j : InstNo) (addr len op : Nat) :
    let t := ((((s.hostRead j addr len none none).seqServed i op).setPhase i slot .waiting).ended)
    (t.cmd i slot).map (·.phase) = some .waiting ∧ .hostRead j addr len ∈ t.out ∧ t.bare = (s.seqServed i op).bare := by
  intro t
  have hread : ((s.hostRead j addr len none none).seqServed i op).cmd i slot = some c := by
    rw [State.cmd_seqServed, State.cmd_of_books (s.books_hostRead j addr len none none), hc]
  have hserved (u : State) : (u.seqServed i op).bare = u.bare.seqServed i op ∧ (u.seqServed i op).out = u.out := by
    unfold State.seqServed
    split <;> exact ⟨rfl, rfl⟩
  refine ⟨?_, ?_, ?_⟩
  · rw [State.cmd_of_books (State.books_ended _)]
    exact State.cmd_setPhase _ hread _
  · have hout : .hostRead j addr len ∈ (s.hostRead j addr len none none).out := by
      rw [State.hostRead, State.out_count]
      exact List.mem_cons_self
    rw [← (hserved (s.hostRead j addr len none none)).2] at hout
    exact (State.adds_ended _).mem hout
  · rw [State.bare_ended, State.bare_setPhase, (hserved _).1, State.bare_hostRead, ← (hserved s).1]

/-! ### Data that has come -/

/-- A command that waits for data goes on as they come (R145, R148). -/
theorem execCommandHostReadComplete_eq {i : InstNo} {slot : BitVec 16} {c : Cmd} {data : List Byte} (hc : s.cmd i slot = some c)
    (hph : c.phase = .waiting) (hrun : s.runs = true) (hin : (s.inst i).halted = false) (hlen : data.length = readLength c.entry) :
    exec (.commandHostReadComplete i slot data) s = .next (s.commandData i slot c.entry data).ended := by
  change execCommandHostReadComplete i slot data s = _
  simp [execCommandHostReadComplete, hc, hph, hrun, hin, hlen, done_eq_ended]

end Sys2Proof.Machine
end

section
/-! STENCIL_LOAD (O38). -/
namespace Sys2Proof.Machine

/-! ### The stencil store (R283) -/

/-- The places that a block of bytes is written to, one after the other. -/
theorem memRead_block (l : List Byte) (m : List Host.Cell) (off : Nat) (n a : Nat) :
    memRead (memWriteAll m ((l.zipIdx n).map fun x => (off + x.2, x.1))) a =
      if off + n ≤ a ∧ a < off + n + l.length then l.getD (a - (off + n)) 0 else memRead m a := by
  induction l generalizing m n with
  | nil =>
    rw [if_neg (by simp)]
    rfl
  | cons b l ih =>
    rw [List.zipIdx_cons, List.map_cons, memWriteAll, ih, memRead_memWrite, List.length_cons]
    rcases Nat.lt_trichotomy a (off + n) with h | h | h
    · rw [if_neg (by omega), if_neg (by omega), if_neg (by omega)]
    · rw [if_neg (by omega), if_pos h, if_pos (by omega), h, Nat.sub_self]
      rfl
    · obtain ⟨d, rfl⟩ := Nat.exists_eq_add_of_lt h
      have hd : off + n + d + 1 - (off + n) = d + 1 := by omega
      have hd' : off + n + d + 1 - (off + (n + 1)) = d := by omega
      rw [hd, hd', List.getD_cons_succ]
      by_cases hin : d < l.length
      · rw [if_pos (by omega), if_pos (by omega)]
      · rw [if_neg (by omega), if_neg (by omega), if_neg (by omega)]

variable {s : State} {i : InstNo} {slot : BitVec 16} {e : CEntry}

/-- What the stencil store reads as after a block has been written to it. -/
theorem State.storeWrite_read (off : Nat) (bs : List Byte) (a : Nat) : memRead (s.storeWrite off bs).mem.store a =
    if off ≤ a ∧ a < off + bs.length then bs.getD (a - off) 0 else memRead s.mem.store a :=
  memRead_block bs s.mem.store off 0 a

section
variable (ho : s.Ordered i slot 0x30 anyForm e) (hlen : 0 < fld e 95 80) (halign : fld e 79 64 % 8 = 0)
  (hin : fld e 79 64 + 8 * fld e 95 80 ≤ 1024 * (s.inst i).stSize)
include ho hlen halign hin

/-- A load clear of every program in use is read. -/
theorem execStencilLoad_of_free (hfree : ∀ c a b, s.progRange c = some (a, b) →
    1024 * (s.inst i).stBase + fld e 79 64 + 8 * fld e 95 80 ≤ a ∨ b ≤ 1024 * (s.inst i).stBase + fld e 79 64) :
    execStencilLoad i slot s = .next ((((s.hostRead i (fld e 191 128) (8 * fld e 95 80) none none).seqServed i 0x30).setPhase i slot
      .waiting).ended) := by
  refine carryOut_waits ho ((if_neg ?_).trans ((if_neg fun hused => ?_).trans rfl))
  · simp [halign, Nat.not_lt.2 hin, Nat.pos_iff_ne_zero.1 hlen]
  · obtain ⟨c, -, hc⟩ := List.any_eq_true.1 hused
    split at hc
    next a b hab =>
      simp only [Bool.and_eq_true, decide_eq_true_eq] at hc
      have := hfree c a b hab
      omega
    · cases hc

/-- A load over a program in use is BUSY (R283). -/
theorem execStencilLoad_of_used {c : ChanNo} {a b : Nat} (hc : s.progRange c = some (a, b))
    (ha : a < 1024 * (s.inst i).stBase + fld e 79 64 + 8 * fld e 95 80) (hb : 1024 * (s.inst i).stBase + fld e 79 64 < b) :
    execStencilLoad i slot s = .next ((s.seqServed i 0x30).replied i slot .busy 0) := by
  refine carryOut_ends_served ho ((if_neg ?_).trans ((if_pos ?_).trans rfl))
  · simp [halign, Nat.not_lt.2 hin, Nat.pos_iff_ne_zero.1 hlen]
  · exact List.any_eq_true.2 ⟨c, List.mem_finRange c, by simp [hc, ha, hb]⟩

end

/-- Settles O38: the words asked for are read, and stand in the issuer's part of the stencil store once they have come. -/
theorem stencilLoad : Obligations.StencilLoad := by
  refine ⟨fun s i slot e ho hlen halign hin => ⟨fun hfree => ?_, fun c a b hc ha hb => ?_⟩,
    fun s i slot c data hc hop hph hrun hhalt hlen => ⟨?_, fun k hk => ?_, fun a ha => ?_, rfl⟩⟩
  · exact ⟨_, execStencilLoad_of_free ho hlen halign hin hfree, State.waits_for_read ho.cmd i _ _ _⟩
  · exact execStencilLoad_of_used ho hlen halign hin hc ha hb
  · have hread : data.length = readLength c.entry := by simp [readLength, hop, hlen]
    rw [execCommandHostReadComplete_eq hc hph hrun hhalt hread]
    simp [State.commandData, hop, State.loadData, State.replied]
  · rw [State.storeWrite_read, if_pos (by omega), Nat.add_sub_cancel_left]
  · rw [State.storeWrite_read, if_neg (by omega)]

end Sys2Proof.Machine
end

section
/-! The life of a function (O15). -/
namespace Sys2Proof.Machine

variable {s : State} {i : InstNo} {slot : BitVec 16} {e : CEntry} {j : InstNo}

/-- A command of the manager alone that waits stands as waiting, whatever function the statement names as its issuer. -/
theorem carryOut_waits_managerOnly {op : Nat} {form : CEntry → Bool} {body : CEntry → Reply} {t : State} (h : s.Ordered i slot op form e)
    (hm : managerOnly op = true) (hb : body e = .waits t) :
    carryOut i slot op form s body = .next (t.setPhase i slot .waiting).ended := by
  obtain rfl : i = 0 := h.inst_eq_zero hm
  exact carryOut_waits_manager h hb

theorem State.modInst_congr {f g : Inst → Inst} (h : f (s.inst j) = g (s.inst j)) : s.modInst j f = s.modInst j g := by
  rw [State.modInst, State.modInst, h]

section
variable (hj : s.tenantOf e = some j)
include hj

/-! ### Quiesce, resume and reset (R147, R315, R319, R322) -/

theorem execQuiesceInstance_running (ho : s.Ordered i slot 0x44 anyForm e) (hst : (s.inst j).st = .running) :
    let u := (s.modInst j fun n => { n with st := .quiescing, abort := bitOf e 70 }).stopWork j
    exec (.quiesceInstance i slot) s =
      .next (((if bitOf e 70 then (u.unlist (u.holds j)).abortInst j else u).setPhase i slot .waiting).ended) :=
  carryOut_waits_managerOnly ho rfl (by simp only [hj, hst])

theorem execQuiesceInstance_frozen (ho : s.Ordered i slot 0x44 anyForm e) (hst : (s.inst j).st = .frozen) :
    exec (.quiesceInstance i slot) s = .next ((s.modInst j fun n => { n with st := .quiesced }).replied i slot .cmdOk 0) :=
  carryOut_ends ho rfl (by simp only [hj, hst])

theorem execResumeInstance_of_quiesced (ho : s.Ordered i slot 0x45 anyForm e) (hshed : s.pw.shedStep < 5)
    (hst : (s.inst j).st = .quiesced ∨ (s.inst j).st = .quiescing) :
    exec (.resumeInstance i slot) s =
      .next (((s.modInst j fun n => { n with st := .running }).functionBack j).replied i slot .cmdOk 0) := by
  have hstep : ¬ 5 ≤ s.pw.shedStep := by omega
  obtain hst | hst := hst <;> exact carryOut_ends ho rfl (by simp [hj, hst, hstep])

theorem execResetInstance_of_stopped (ho : s.Ordered i slot 0x46 anyForm e) (hst : (s.inst j).st = .quiesced ∨ (s.inst j).st = .halted)
    (hblock : s.midBlock j = false) :
    let u := (s.wipeInst j).modInst j fun n => { n.cleared with st := .quiesced, served := false }
    exec (.resetInstance i slot) s = .next ((if bitOf e 70 then u.returnShares j else u).replied i slot .cmdOk 0) := by
  obtain hst | hst := hst <;> exact carryOut_ends ho rfl (by simp [hj, hst, hblock])

/-! ### Dirty logging (R329) -/

theorem execDirtyLogStart_of_off (ho : s.Ordered i slot 0x49 (fun e => fld e 71 70 < 2) e) (hact : fld e 71 70 = 1)
    (hoff : (s.inst j).dirty = none) :
    exec (.dirtyLogStart i slot) s = .next ((s.modInst j fun n =>
      { n with dirty := some ⟨fld e 191 128, fld e 255 192, fld e 287 256, false, []⟩ }).replied i slot .cmdOk 0) :=
  carryOut_ends ho rfl (by simp [hj, hact, hoff])

theorem execDirtyLogSync_of_moved {d : DirtyLog} (ho : s.Ordered i slot 0x49 (dirtyForm 3) e) (hd : (s.inst j).dirty = some d)
    (hmoved : d.bitmap ≠ fld e 191 128) :
    exec (.dirtyLogSync i slot) s = .next ((s.modInst j fun n =>
      { n with dirty := some { d with bitmap := fld e 191 128, pages := [] } }).replied i slot .cmdOk (b2n d.outside)) := by
  refine carryOut_ends ho rfl ?_
  simp only [hj, State.outsideOf, hd, Option.map_some, Option.getD_some]
  exact congrArg (Reply.ends · .cmdOk (b2n d.outside)) (State.modInst_congr (by simp [hd, hmoved.symm]))

theorem execDirtyLogStop_of_on {d : DirtyLog} (ho : s.Ordered i slot 0x49 (dirtyForm 2) e) (hd : (s.inst j).dirty = some d) :
    exec (.dirtyLogStop i slot) s = .next ((s.modInst j fun n => { n with dirty := none }).replied i slot .cmdOk (b2n d.outside)) :=
  carryOut_ends ho rfl (by simp [hj, State.outsideOf, hd])

end

/-! ### What is not a command: the end of a quiesce, and Function Level Reset (R318, R325) -/

theorem execQuiesceComplete_of_quiet (hrun : s.runs = true) (hst : (s.inst j).st = .quiescing) (habort : (s.inst j).abort = false)
    (hquiet : s.quiet j = true) :
    let u := (s.flushRings j).each ((s.flushRings j).epSlots j) State.writeBack
    exec (.quiesceComplete j) s =
      .next (((u.modInst j fun n => { n with st := .quiesced, abort := false, served := false }).endQuiesce j).ended) := by
  change execQuiesceComplete j s = _
  simp [execQuiesceComplete, hrun, hst, habort, hquiet, done_eq_ended]

theorem execVfFunctionLevelReset_of_on (hi : i ≠ 0) (hst : (s.inst i).st ≠ .disabled) (hasked : (s.inst i).flrAsked = false)
    (halive : s.alive = true) (hlink : s.pw.linkUp = true) :
    let u := (s.askFlr i).stopAll i
    exec (.vfFunctionLevelReset i) s = .next (u.unsolicited 0 0 (.notice i 2) (u.flrNotice i)).ended := by
  change execVfFunctionLevelReset i s = _
  simp [execVfFunctionLevelReset, hi, hst, hasked, halive, hlink, done_eq_ended]

theorem execFlrWipe_eq (hasked : (s.inst i).flrAsked = true) (hoper : (s.inst i).operating = false) (hblock : s.midBlock i = false) :
    exec (.flrWipe i) s =
      .next (if (s.inst i).leaving then ((s.disableInst i).endQuiesce i).leaveShared else s.flrWiped i).ended := by
  change execFlrWipe i s = _
  cases hleaving : (s.inst i).leaving <;> simp [execFlrWipe, hasked, hoper, hblock, hleaving, done_eq_ended]

/-- Settles O15: every command and event of a function's life does what is stated and no more. -/
theorem instanceLife : Obligations.InstanceLife := by
  refine ⟨fun s i slot e j ho hj => ⟨fun hst hab => ?_, fun hst hab => ?_, execQuiesceInstance_frozen hj ho⟩,
    fun s j => execQuiesceComplete_of_quiet,
    fun s i slot e j ho hj => execResumeInstance_of_quiesced hj ho,
    fun s i slot e j ho hj => execResetInstance_of_stopped hj ho,
    fun s i => execVfFunctionLevelReset_of_on,
    fun s i hasked hoper hblock => ⟨fun hl => ?_, fun hl => ?_⟩,
    fun s i slot e j hj => ⟨execDirtyLogStart_of_off hj, fun ho d => execDirtyLogSync_of_moved hj ho,
      fun ho d => execDirtyLogStop_of_on hj ho⟩⟩
  · simpa [hab] using execQuiesceInstance_running hj ho hst
  · simpa [hab] using execQuiesceInstance_running hj ho hst
  · rw [execFlrWipe_eq hasked hoper hblock, if_pos hl]
  · rw [execFlrWipe_eq hasked hoper hblock, if_neg (by simp [hl])]
    rfl

end Sys2Proof.Machine
end

section
/-! Orders in the tree (O33). -/
namespace Sys2Proof.Machine

variable {s : State} {i : InstNo} {slot : BitVec 16} {e : CEntry} {z : Nat} {d : DevRec}

/-! ### Reset of a device (R142, R221) -/

section
variable (hacted : s.pw.acted < 6) (ho : s.Ordered i slot 0x20 (fun e => bitOf e 68) e)
  (hdev : (if i = 0 then (s.dev (fld e 91 80)).map fun d => (fld e 91 80, d) else s.devOf i (fld e 91 80)) = some (z, d))
  (hst : d.st = .addressed) (hact : ceAction e = 3) (hhub : i = 0 ∨ d.hub = false) (hz : z ≠ 0)
include hacted ho hdev hst hact hhub hz

/-- A tier-1 device is reset by its root port. -/
theorem execPortControlDeviceReset_tier1 (htier : d.tier ≤ 1) (hport : (s.port d.port).st.resettable = true)
    (hheld : i = 0 ∨ (s.egressHolds d.port = false ∧ s.managerHolds d.port = false)) :
    exec (.portControlDeviceReset i ⟨slot, false⟩) s = .next (((s.startReset d.port).seqServed i 0x20).setPhase i slot .waiting).ended := by
  have hidle : (s.port d.port).st ≠ .resetting := fun h => by simp [h, PortState.resettable] at hport
  refine carryOut_waits ho ?_
  have hgood : ¬ (z = 0 || d.st != .addressed || (i != 0 && d.hub) || ceAction e != 3) = true := by
    obtain rfl | h := hhub <;> simp [*]
  have hmine : ¬ (i != 0 && (s.egressHolds d.port || s.managerHolds d.port)) = true := by
    obtain rfl | ⟨h1, h2⟩ := hheld <;> simp [*]
  simp only [hdev, if_neg hgood, State.shedCmd_eq_false hacted, if_pos htier, if_neg hmine]
  simp [hidle, hport]

/-- A device below a hub is reset by an HPORT_ACT to the hub. -/
theorem execPortControlDeviceReset_below (htier : 1 < d.tier) (hup : s.branchDown ⟨d.port, d.parent, 0⟩ = false)
    (hsw : (s.port d.port).treeHw = false) (hfree : ∀ x ∈ s.tree.procs, x.pos = d.pos → x.step ≠ 2) {h : DevRec}
    (hh : s.dev d.parent = some h) :
    exec (.portControlDeviceReset i ⟨slot, false⟩) s = .next (((s.asking (.devReset i slot) d.pos 2 0 [] h.port d.parent h.tier h.ep0Max
      0x62 0x10 d.phport 3 0).seqServed i 0x20).setPhase i slot .waiting).ended := by
  refine carryOut_waits ho ?_
  have hgood : ¬ (z = 0 || d.st != .addressed || (i != 0 && d.hub) || ceAction e != 3) = true := by
    obtain rfl | h := hhub <;> simp [*]
  have hdeep : ¬ d.tier ≤ 1 := by omega
  have hnone : ¬ (s.tree.procs.any fun x => x.pos == d.pos && x.step == 2 && x.resets) = true := by
    simp only [List.any_eq_true, not_exists, Bool.and_eq_true, beq_iff_eq]
    rintro x ⟨hx, ⟨hpos, hstep⟩, -⟩
    exact hfree x hx hpos hstep
  have hawake : s.wakeBranch d.pos = s := State.wakeBranch_of_software (by rw [DevRec.pos_port, hsw])
  simp only [hdev, if_neg hgood, State.shedCmd_eq_false hacted, if_neg hdeep, State.stepConflict_of_up hup, if_neg hnone, hawake,
    ← State.ask_eq hh]
  rfl

/-- With the branch down in host-assisted mode the reset is CONFLICT (R255). -/
theorem execPortControlDeviceReset_down (htier : 1 < d.tier) (hdown : s.branchDown ⟨d.port, d.parent, 0⟩ = true)
    (hsw : (s.port d.port).treeHw = false) :
    exec (.portControlDeviceReset i ⟨slot, false⟩) s = .next ((s.seqServed i 0x20).replied i slot .conflict 0) := by
  refine carryOut_ends_served ho ?_
  have hgood : ¬ (z = 0 || d.st != .addressed || (i != 0 && d.hub) || ceAction e != 3) = true := by
    obtain rfl | h := hhub <;> simp [*]
  have hdeep : ¬ d.tier ≤ 1 := by omega
  have hconf : s.stepConflict ⟨d.port, d.parent, 0⟩ = true := by simp [State.stepConflict, hdown, hsw]
  simp only [hdev, if_neg hgood, State.shedCmd_eq_false hacted, if_neg hdeep, hconf]
  rfl

end

/-! ### Power of a hub's ports (R143) -/

section
variable {outranked : Bool} {action : Nat} (hhub : s.treeHub i e = some (z, d))
include hhub

/-- Power on a hub that has none of its own ports is PARAM_INVALID. -/
theorem treePower_of_no_power (hpower : action = actPowerOn ∨ action = actPowerOff) (hper : d.perPort = false) :
    treePower i slot outranked s e action = .ends s .paramInvalid 0 := by
  unfold treePower
  simp only [hhub]
  exact if_pos (by simpa [hper] using hpower)

variable (hper : ¬ (action = actPowerOn ∨ action = actPowerOff) ∨ d.perPort = true)
include hper

theorem treePower_of_conflict
    (hc : outranked = true ∨ s.stepConflict d.pos = true ∨ action = actSuspend ∧ s.periodicIn' ⟨d.port, z, fld e 79 76⟩ = true) :
    treePower i slot outranked s e action = .ends s .conflict 0 := by
  unfold treePower
  simp only [hhub]
  refine (if_neg (by simpa [or_iff_not_imp_left] using hper)).trans (if_pos ?_)
  obtain h | h | ⟨h, h'⟩ := hc <;> simp [*]

/-- An order that nothing stands against is one transfer to the hub. -/
theorem treePower_of_free (hacted : s.pw.acted < 6) (hup : s.branchDown d.pos = false) (hsw : (s.port d.port).treeHw = false)
    (hperiodic : action ≠ actSuspend ∨ s.periodicIn' ⟨d.port, z, fld e 79 76⟩ = false)
    (hegress : ¬ (action = actSuspend ∨ action = actPowerOff) ∨ s.egressProtects ⟨d.port, z, fld e 79 76⟩ = false) :
    treePower i slot false s e action = .waits (s.treeAct (some (i, slot)) z (fld e 79 76) action) := by
  unfold treePower
  simp only [hhub]
  refine (if_neg (by simpa [or_iff_not_imp_left] using hper)).trans ((if_neg ?_).trans ?_)
  · simp only [Bool.false_or, State.shedCmd_eq_false hacted, State.stepConflict_of_up hup, Bool.or_eq_true, Bool.and_eq_true, beq_iff_eq,
      not_or, not_and, Bool.not_eq_true]
    exact ⟨hperiodic.neg_resolve_left, hegress.neg_resolve_left⟩
  · rw [State.wakeBranch_of_software (by rw [DevRec.pos_port, hsw])]

end

/-! ### The order that goes out (R136, R143, R254) -/

/-- A hub's port as it is once an order is on its way to it. -/
def HPort.ordered (x : HPort) : HPort := { x with moving := true }

/-- Marking ports of one hub as moving changes the records of those ports alone. -/
theorem State.each_moving {hub : Nat} (named : List Nat) (hd : s.dev hub = some d) :
    ∃ hports devs, s.each named (fun s p => s.modHPort hub p HPort.ordered) = { s with devs := devs } ∧
      kget devs hub = some { d with hports := hports } ∧ (∀ y, y ≠ hub → kget devs y = s.dev y) ∧
      (∀ p ∈ named, kget hports p = some ((kget d.hports p).getD {}).ordered) ∧ ∀ p, p ∉ named → kget hports p = kget d.hports p := by
  induction named generalizing s d with
  | nil => exact ⟨d.hports, s.devs, rfl, hd, fun y _ => rfl, by simp, fun p _ => rfl⟩
  | cons q named ih =>
    have hd' : (s.modHPort hub q HPort.ordered).dev hub =
        some { d with hports := kset d.hports q ((kget d.hports q).getD {}).ordered } := by
      simp [State.modHPort, hd]
    obtain ⟨hports, devs, heach, hhub, hother, hin, hout⟩ := ih hd'
    refine ⟨hports, devs, heach, hhub, fun y hy => ?_, fun p hp => ?_, fun p hp => ?_⟩
    · rw [hother y hy]
      simp [State.modHPort, hy]
    · by_cases hn : p ∈ named
      · rw [hin p hn, kget_kset]
        split
        next hpq =>
          rw [hpq]
          rfl
        next => rfl
      · obtain rfl : p = q := by simpa [hn] using hp
        rw [hout p hn, kget_kset, if_pos rfl]
    · rw [List.mem_cons, not_or] at hp
      rw [hout p hp.2, kget_kset, if_neg hp.1]

/-- The order and its transfer, asked of a hub whose named ports move from now on. -/
theorem State.treeAct_eq (cmd : Option (InstNo × BitVec 16)) {hub hport action : Nat} (hd : s.dev hub = some d) :
    let named := if hport = 0 then (List.range d.hubPorts).map (· + 1) else [hport]
    ∃ hports devs, s.treeAct cmd hub hport action =
        { s.asking (.treePower cmd action) ⟨d.port, hub, hport⟩ 1 0 (named.map fun p => (hub, p)) d.port hub d.tier d.ep0Max 0x62 0x10
          hport action 0 with devs := devs } ∧
      kget devs hub = some { d with hports := hports } ∧ (∀ y, y ≠ hub → kget devs y = s.dev y) ∧
      (∀ p ∈ named, kget hports p = some ((kget d.hports p).getD {}).ordered) ∧ ∀ p, p ∉ named → kget hports p = kget d.hports p := by
  intro named
  have hd' : (s.newProc (.treePower cmd action) ⟨d.port, hub, hport⟩ 1 0 (named.map fun p => (hub, p))).1.dev hub = some d := hd
  obtain ⟨hports, devs, heach, hhub, hother, hin, hout⟩ := State.each_moving named hd'
  refine ⟨hports, devs, ?_, hhub, hother, hin, hout⟩
  have hask : ∀ u : State, kget u.devs hub = some { d with hports := hports } → ∀ id, u.ask id hub reqAct 0x10 hport action 0 =
      u.startOwn id d.port hub d.tier d.ep0Max reqAct 0x10 hport action 0 := fun u hu id => by simp only [State.ask, State.dev, hu]
  simp only [State.treeAct, hd]
  change ((State.each _ named fun s p => s.modHPort hub p HPort.ordered).ask _ hub reqAct 0x10 hport action 0) = _
  rw [heach, hask _ hhub]
  rfl

/-- Settles O33: an order that nothing stands against is one transfer to the hub, and the ports it names move from then on. -/
theorem hubOrders : Obligations.HubOrders := by
  refine ⟨fun s i slot e z d hacted ho hdev hst hact hhub hz => ⟨?_, ?_, ?_⟩, fun s i slot e z d hacted hhub => ⟨fun hup hsw =>
    ⟨fun ho hp heg => ?_, fun o ho hc => ?_, fun ho => ?_, fun ho hper heg => ?_, fun ho hfour hper => ?_⟩, fun ho hper => ?_,
    fun ho hdown hsw => ?_⟩, fun s cmd hub hport action d hd => ?_⟩
  · exact execPortControlDeviceReset_tier1 hacted ho hdev hst hact hhub hz
  · exact fun htier hup hsw hfree h => execPortControlDeviceReset_below hacted ho hdev hst hact hhub hz htier hup hsw hfree
  · exact execPortControlDeviceReset_down hacted ho hdev hst hact hhub hz
  · exact carryOut_waits ho (treePower_of_free hhub (.inl (by decide)) hacted hup hsw (.inr hp) (.inr heg))
  · exact carryOut_ends_served ho (treePower_of_conflict hhub (.inl (by decide)) (hc.elim (fun h => .inr (.inr ⟨rfl, h⟩)) .inl))
  · exact carryOut_waits ho (treePower_of_free hhub (.inl (by decide)) hacted hup hsw (.inl (by decide)) (.inl (by decide)))
  · exact carryOut_waits ho (treePower_of_free hhub (.inr hper) hacted hup hsw (.inl (by decide)) (.inr heg))
  · refine carryOut_waits ho ((if_neg (by simp [hfour])).trans
      (treePower_of_free hhub (.inr hper) hacted hup hsw (.inl (by decide)) (.inl (by decide))))
  · exact carryOut_ends_served ho (treePower_of_no_power hhub (.inr rfl) hper)
  · exact carryOut_ends_served ho (treePower_of_conflict hhub (.inl (by decide)) (.inr (.inl (by
      simp [State.stepConflict, hdown, DevRec.pos_port, hsw]))))
  · obtain ⟨hports, devs, ht, hdev, hother, hin, hout⟩ := State.treeAct_eq cmd (hport := hport) (action := action) hd
    rw [ht]
    exact ⟨rfl, ⟨_, rfl, rfl, rfl, rfl, rfl, rfl, rfl, rfl, rfl, rfl, rfl⟩, ⟨_, hdev, rfl, hin, hout⟩, hother, rfl⟩

end Sys2Proof.Machine
end

section
/-! EGRESS_PROGRAM and FIRMWARE_STAGE (O43). -/
namespace Sys2Proof.Machine

variable {s : State} {i : InstNo} {slot : BitVec 16} {e : CEntry}

/-- A read begun for a command of the manager changes nothing else. -/
theorem carryOut_reads_managerOnly {op : Nat} {form : CEntry → Bool} {body : CEntry → Reply} {addr len : Nat} (ho : s.Ordered i slot op form e)
    (hm : managerOnly op = true) (hb : body e = .waits (s.hostRead i addr len none none)) :
    ∃ t, carryOut i slot op form s body = .next t ∧ (t.cmd i slot).map (·.phase) = some .waiting ∧ .hostRead i addr len ∈ t.out ∧
      t.bare = s.bare := by
  refine ⟨_, carryOut_waits ho hb, ?_⟩
  obtain ⟨hphase, hout, hbare⟩ := State.waits_for_read ho.cmd i addr len op
  refine ⟨hphase, hout, hbare.trans ?_⟩
  obtain rfl : i = 0 := ho.inst_eq_zero hm
  rw [State.seqServed_manager]

/-! ### The ports that a program names (R381) -/

/-- A change made to each port of a list is made to those ports alone. -/
theorem State.each_modPort (f : PortNo → Port → Port) (l : List PortNo) (hl : l.Nodup) (s : State) :
    (∀ p, (s.each l fun s p => s.modPort p (f p)).port p = if p ∈ l then f p (s.port p) else s.port p) ∧
      ∃ ports, (s.each l fun s p => s.modPort p (f p)) = { s with ports := ports } := by
  induction l generalizing s with
  | nil => exact ⟨fun p => rfl, s.ports, rfl⟩
  | cons q l ih =>
    obtain ⟨hq, hl⟩ := List.nodup_cons.1 hl
    obtain ⟨hport, ports, heach⟩ := ih hl (s.modPort q (f q))
    refine ⟨fun p => (hport p).trans ?_, ports, heach⟩
    rw [State.modPort_port]
    by_cases hp : p = q
    · simp [hp, hq]
    · simp [hp]

theorem State.loadEgress_spec (s : State) (l : List EgrEntry) :
    (∀ p, (s.loadEgress l).port p = { s.port p with egressPort := l.any fun y => y.port == p }) ∧
      s.loadEgress l = { s with ports := (s.loadEgress l).ports, pw := { s.pw with egressProg := l } } := by
  obtain ⟨hport, ports, heach⟩ := State.each_modPort (fun p (x : Port) => { x with egressPort := l.any fun y => y.port == p })
    allPorts (List.nodup_finRange 32) (s.modPw fun w => { w with egressProg := l })
  refine ⟨fun p => (hport p).trans (if_pos (mem_allPorts p)), ?_⟩
  have hload : s.loadEgress l = { s.modPw (fun w => { w with egressProg := l }) with ports := ports } := heach
  rw [hload]
  rfl

theorem State.egressData_of_good {data : List Byte} {l : List EgrEntry} (hoff : s.pw.egress = false)
    (hl : egrProgram data (fld e 205 192) = some l) : s.egressData e data = (s.loadEgress l, .cmdOk) := by
  simp [State.egressData, hoff, hl]

theorem State.egressData_of_bad {data : List Byte} (hoff : s.pw.egress = false) (hl : egrProgram data (fld e 205 192) = none) :
    s.egressData e data = (s, .paramInvalid) := by
  simp [State.egressData, hoff, hl]

/-- What a program that has come answers. -/
theorem execCommandHostReadComplete_program {c : Cmd} {data : List Byte} (hc : s.cmd i slot = some c) (hop : ceOp c.entry = 0x4B)
    (hph : c.phase = .waiting) (hrun : s.runs = true) (hin : (s.inst i).halted = false) (hlen : data.length = 32 * fld c.entry 205 192) :
    exec (.commandHostReadComplete i slot data) s =
      .next ((s.egressData c.entry data).1.replied i slot (s.egressData c.entry data).2 0) := by
  rw [execCommandHostReadComplete_eq hc hph hrun hin (by simp [readLength, hop, hlen])]
  simp [State.commandData, hop, State.replied]

/-! ### Staging an image (R364, R365) -/

theorem State.stageData_of_good {img : List Byte} (hgood : fwRefusal img s.pw.minSvn = none) :
    s.stageData slot img = (((s.emit (.flash (slotOffset s.stageSlot) img)).modBoot fun b =>
      { b with staged := none, staging := some (some slot, s.stageSlot, BitVec.ofNat 6 (numAt img 0xC 2)) }), none) := by
  unfold State.stageData
  simp only [hgood]

theorem State.stageData_of_bad {img : List Byte} {r : BitVec 8} (hbad : fwRefusal img s.pw.minSvn = some r) :
    s.stageData slot img = (s.recordStage s.stageSlot (BitVec.ofNat 6 (numAt img 0xC 2)) 1, some .paramInvalid) := by
  unfold State.stageData
  simp only [hbad]

/-- An image that has come is staged; its command is answered at once where it is refused. -/
theorem execCommandHostReadComplete_image {c : Cmd} {img : List Byte} (hc : s.cmd i slot = some c) (hop : ceOp c.entry = 0x4C)
    (hph : c.phase = .waiting) (hrun : s.runs = true) (hin : (s.inst i).halted = false) (hlen : img.length = fld c.entry 223 192)
    (hidle : s.boot.staging = none) :
    exec (.commandHostReadComplete i slot img) s =
      .next ((s.stageData slot img).2.elim (s.stageData slot img).1 fun st => (s.stageData slot img).1.finish i slot st 0).ended := by
  have hstage : s.commandData i slot c.entry img =
      (s.stageData slot img).2.elim (s.stageData slot img).1 fun st => (s.stageData slot img).1.finish i slot st 0 := by
    unfold State.commandData
    simp only [hop, hidle, Option.isSome_none, Bool.false_eq_true, if_false]
    split
    next h => simp only [h, Option.elim_some]
    next h => simp only [h, Option.elim_none]
  rw [execCommandHostReadComplete_eq hc hph hrun hin (by simp [readLength, hop, hlen]), hstage]

theorem stageFailed_ne_cmdOk (n : Nat) : stageFailed n ≠ .cmdOk := by
  have hn : n % 3 < 3 := Nat.mod_lt _ (by decide)
  unfold stageFailed
  interval_cases n % 3 <;> decide

/-- The end of the write of a staged image, whose command is answered. -/
theorem execFlashWriteComplete_eq {c : BitVec 16} {k : Bool} {v : BitVec 6} (ok : Bool) (hrun : s.runs = true)
    (hst : s.boot.staging = some (some c, k, v)) :
    let u (b : Option (Bool × BitVec 6 × Bool)) (x : BitVec 8) :=
      (s.modBoot fun d => { d with staging := none, staged := b }).recordStage k v x
    exec (.flashWriteComplete ok) s = .next (if ok then (u (some (k, v, false)) 0).replied 0 c .cmdOk 0
      else (u none 2).takeFree.replied 0 c (stageFailed (u none 2).freeNat) 0) := by
  change execFlashWriteComplete ok s = _
  cases ok <;> simp [execFlashWriteComplete, hrun, hst, done_eq_ended, State.replied]

/-! ### The directories of the flash (R370) -/

/-- A directory written over the one that does not govern, and numbered after the one that does, governs. -/
theorem Boot.dir_of_next {b : Boot} {d : BootDir} (hv : d.valid = true) (hd : d.dseq = b.dir.dseq + 1) :
    (if b.governs1 then ({ b with dir0 := d } : Boot) else { b with dir1 := d }).dir = d := by
  cases hg : b.governs1
  · have hdir : b.dir = b.dir0 := by simp [Boot.dir, hg]
    cases h0 : b.dir0.valid
    · simp [Boot.dir, Boot.governs1, h0, hv]
    · exact Boot.dir_of_next1 hv h0 (hdir ▸ hd)
  · have hdir : b.dir = b.dir1 := by simp [Boot.dir, hg]
    have h1 : b.dir1.valid = true := by
      unfold Boot.governs1 at hg
      split at hg
      next h => exact (Bool.and_eq_true_iff.1 h).2
      next => exact hg
    exact Boot.dir_of_next0 hv h1 (hdir ▸ hd)

theorem State.writeDir_dir (active : Bool) (trial : Option Bool) :
    (s.writeDir active trial).boot.dir = ⟨true, s.boot.dir.dseq + 1, active, trial⟩ := by
  have hdir := Boot.dir_of_next (b := s.boot) (d := ⟨true, s.boot.dir.dseq + 1, active, trial⟩) rfl rfl
  unfold State.writeDir
  split
  next hg => rwa [if_pos hg] at hdir
  next hg => rwa [if_neg hg] at hdir

/-- A directory written while a staged image is there: the slot on trial, and what stands of the stage. -/
theorem State.stage_directed (k : Bool) (v : BitVec 6) (what : BitVec 8) (trial : Option Bool) (staged : Option (Bool × BitVec 6 × Bool)) :
    let u := ((s.writeDir s.boot.dir.active trial).modBoot fun b => { b with staged := staged }).recordStage k v what
    u.boot.dir.valid = true ∧ u.boot.dir.active = s.boot.dir.active ∧ u.boot.dir.trial = trial ∧ u.boot.staged = staged ∧
      u = { s with out := u.out, freeIx := u.freeIx, snag := u.snag, boot := { s.boot with
        dir0 := u.boot.dir0, dir1 := u.boot.dir1, staged := staged } } := by
  intro u
  have hdir : u.boot.dir = _ := s.writeDir_dir s.boot.dir.active trial
  refine ⟨?_, ?_, ?_, rfl, ?_⟩
  · rw [hdir]
  · rw [hdir]
  · rw [hdir]
  · obtain ⟨o, d0, d1, hw⟩ := s.writeDir_eq s.boot.dir.active trial
    dsimp only [u]
    rw [hw]
    rfl

/-- Settles O43: data that are read are checked as they come, and a directory written next governs, whichever slot it is written to. -/
theorem deviceCommands : Obligations.DeviceCommands := by
  refine ⟨fun s i slot e ho hn => ⟨fun hoff => ?_, fun hon => ?_⟩,
    fun s i slot c data hc hop hph hrun hin hlen hoff => ⟨fun l hl => ?_, fun hl => ?_⟩,
    fun s i slot e ho hact => ⟨fun hz => ?_, fun hz hidle => ?_, fun hz hbusy => ?_⟩,
    fun s i slot c img hc hop hph hrun hin hlen hidle => ⟨fun hgood => ?_, fun hbad => ?_⟩,
    fun s c k v hrun hst => ⟨?_, ?_⟩, fun s i slot e k v act hst => ⟨fun ho => ?_, fun ho => ?_⟩⟩
  · exact carryOut_reads_managerOnly ho rfl ((if_neg hn).trans (if_neg (by simp [hoff])))
  · exact carryOut_ends ho rfl ((if_neg hn).trans (if_pos hon))
  · have hexec := execCommandHostReadComplete_program hc hop hph hrun hin hlen
    rw [State.egressData_of_good hoff hl] at hexec
    exact ⟨_, hexec, s.loadEgress_spec l⟩
  · rw [execCommandHostReadComplete_program hc hop hph hrun hin hlen, State.egressData_of_bad hoff hl]
  · exact carryOut_ends ho rfl (if_pos (by simp [hz]))
  · exact carryOut_reads_managerOnly ho rfl ((if_neg (by simp [hz, hact])).trans (if_neg (by simp [hidle])))
  · exact carryOut_ends ho rfl ((if_neg (by simp [hz, hact])).trans (if_pos hbusy))
  · have hexec := execCommandHostReadComplete_image hc hop hph hrun hin hlen hidle
    rw [State.stageData_of_good hgood] at hexec
    refine ⟨_, hexec, (State.adds_ended _).mem ?_, State.bare_ended _⟩
    have hslot : (if s.boot.dir.active then 0x10000 else 0x210000) = slotOffset s.stageSlot := by
      cases h : s.boot.dir.active <;> simp [State.stageSlot, slotOffset, h]
    rw [hslot]
    exact List.mem_cons_self
  · obtain ⟨r, hr⟩ := Option.isSome_iff_exists.1 hbad
    have hexec := execCommandHostReadComplete_image hc hop hph hrun hin hlen hidle
    rw [State.stageData_of_bad hr] at hexec
    exact ⟨_, hexec, rfl⟩
  · exact ⟨_, execFlashWriteComplete_eq true hrun hst, rfl⟩
  · exact ⟨_, _, execFlashWriteComplete_eq false hrun hst, stageFailed_ne_cmdOk _, rfl⟩
  · exact ⟨_, carryOut_ends ho rfl (by simp only [hst]), State.stage_directed k v 3 (some k) (some (k, v, true))⟩
  · exact ⟨_, carryOut_ends ho rfl (by simp only [hst]), State.stage_directed k v 4 none none⟩

end Sys2Proof.Machine
end

section
/-! SET_SHARE, SET_RESERVATION, HAWK_QUOTA and COUNTER_GRANT (O41). -/
namespace Sys2Proof.Machine

variable {s : State} {i : InstNo} {slot : BitVec 16} {e : CEntry} {j : InstNo}

/-- The instances that an order for one function is not about. -/
def othersOf (j : InstNo) : List InstNo := allInsts.filter (· != j)

/-- A memory of which a part is cleared reads as 0 there, and as before elsewhere. -/
theorem memRead_filter (f : Nat → Bool) (m : List Host.Cell) (a : Nat) :
    memRead (m.filter fun x => !f x.1) a = if f a then 0 else memRead m a := by
  have hget : kget (m.filter fun x => !f x.1) a = if f a then none else kget m a := by
    induction m with
    | nil => simp [kget]
    | cons x m ih =>
      obtain ⟨k, y⟩ := x
      by_cases hk : k = a
      · subst hk
        cases hf : f k <;> simp [hf, kget, ih]
      · cases hf : f k <;> simp [hf, kget, ih, hk]
  unfold memRead
  rw [hget]
  split <;> rfl

/-! ### SET_SHARE (R145, R146, R316) -/

/-- A function given its share; what a port owes it is cut down to the new weight. -/
def Inst.shared (n : Inst) (e : CEntry) : Inst :=
  { n with weight := fld e 79 70, epBase := fld e 96 80, epLimit := fld e 113 97, gateQuota := fld e 125 114, flowQuota := fld e 142 128
           stBase := fld e 149 144, stSize := fld e 156 150
           deficit := n.deficit.map fun (d : Int) => if (fld e 79 70 : Int) < d then (fld e 79 70 : Int) else d }

/-- The part of the stencil store that a share adds to what the function held. -/
def CEntry.adds (e : CEntry) (n : Inst) (a : Nat) : Bool :=
  decide (1024 * fld e 149 144 ≤ a) && decide (a < 1024 * (fld e 149 144 + fld e 156 150)) &&
    !(decide (1024 * n.stBase ≤ a) && decide (a < 1024 * (n.stBase + n.stSize)))

/-- The state once a share is given: what the function did not hold before is cleared. -/
def State.shareSet (s : State) (j : InstNo) (e : CEntry) : State :=
  (s.modMem fun m => { m with store := m.store.filter fun x => !CEntry.adds e (s.inst j) x.1 }).modInst j (·.shared e)

section
variable (hj : s.instOf (fld e 69 64) = some j) (ho : s.Ordered i slot 0x40 anyForm e) (hw : 1 ≤ fld e 79 70) (hw' : fld e 79 70 ≤ 1000)
  (hep : fld e 96 80 + fld e 113 97 ≤ 131072) (hfl : fld e 142 128 ≤ 16384)
include hj ho hw hw' hep hfl

/-- A share that meets another function's is CONFLICT. -/
theorem execSetShare_of_met {k : InstNo} (hk : k ∈ othersOf j)
    (hmeet : meetRange (fld e 96 80) (fld e 113 97) (s.inst k).epBase (s.inst k).epLimit = true) :
    exec (.setShare i slot) s = .next (s.replied i slot .conflict 0) := by
  refine carryOut_ends ho rfl ?_
  simp only [hj]
  refine (if_neg ?_).trans (if_pos (List.any_eq_true.2 ⟨k, hk, by simp [hmeet]⟩))
  simp
  omega

variable (hclear : ∀ k ∈ othersOf j, meetRange (fld e 96 80) (fld e 113 97) (s.inst k).epBase (s.inst k).epLimit = false ∧
  meetRange (fld e 149 144) (fld e 156 150) (s.inst k).stBase (s.inst k).stSize = false)
include hclear

/-- A share past the end of the stencil store is NO_RESOURCES. -/
theorem execSetShare_of_excess (hst : 64 < fld e 149 144 + fld e 156 150) :
    exec (.setShare i slot) s = .next (s.replied i slot .noResources 0) := by
  refine carryOut_ends ho rfl ?_
  simp only [hj]
  refine (if_neg ?_).trans ((if_neg ?_).trans (if_pos (by simp [hst])))
  · simp
    omega
  · rw [List.any_eq_true]
    rintro ⟨k, hk, hmeet⟩
    simp [hclear k hk] at hmeet

/-- A share that the device has, and that covers what is in use, is given. -/
theorem execSetShare_of_good (hst : fld e 149 144 + fld e 156 150 ≤ 64)
    (hg : ((othersOf j).map fun k => (s.inst k).gateQuota).sum + fld e 125 114 ≤ 4096)
    (hf : ((othersOf j).map fun k => (s.inst k).flowQuota).sum + fld e 142 128 ≤ 16384)
    (hbase : s.openOf j = [] ∨ fld e 96 80 = (s.inst j).epBase) (hopen : ∀ x ∈ s.openOf j, x < fld e 113 97)
    (hgates : s.gatesHeld j ≤ fld e 125 114) (hitems : s.itemsHeld j ≤ fld e 142 128)
    (hprogs : s.progsInside j (fld e 149 144) (fld e 156 150) = true) :
    exec (.setShare i slot) s = .next ((s.shareSet j e).replied i slot .cmdOk 0) := by
  refine carryOut_ends ho rfl ?_
  simp only [hj]
  refine (if_neg ?_).trans ((if_neg ?_).trans ((if_neg ?_).trans ((if_neg ?_).trans rfl)))
  · simp
    omega
  · rw [List.any_eq_true]
    rintro ⟨k, hk, hmeet⟩
    simp [hclear k hk] at hmeet
  · change ¬ (decide (4096 < ((othersOf j).map fun k => (s.inst k).gateQuota).sum + fld e 125 114) ||
      decide (16384 < ((othersOf j).map fun k => (s.inst k).flowQuota).sum + fld e 142 128) || _) = true
    simp
    omega
  · have hin : ∀ x ∈ s.openOf j, ¬ fld e 113 97 ≤ x := fun x hx => Nat.not_le.2 (hopen x hx)
    have hkeep : (!(s.openOf j).isEmpty && fld e 96 80 != (s.inst j).epBase) = false := by
      obtain h | h := hbase <;> simp [h]
    simp only [hkeep, hprogs, Bool.false_or, Bool.or_eq_true, List.any_eq_true, decide_eq_true_eq, Bool.not_true, Bool.false_eq_true, or_false]
    rintro ((⟨x, hx, h⟩ | h) | h)
    · exact hin x hx h
    · omega
    · omega

end

/-- What a share that is given changes. -/
theorem State.shareSet_spec (s : State) (j : InstNo) (e : CEntry) :
    let u := s.shareSet j e
    u.inst j = { s.inst j with
      weight := fld e 79 70, epBase := fld e 96 80, epLimit := fld e 113 97, gateQuota := fld e 125 114, flowQuota := fld e 142 128
      stBase := fld e 149 144, stSize := fld e 156 150, deficit := (u.inst j).deficit } ∧
    (∀ p, vget (u.inst j).deficit p = min (vget (s.inst j).deficit p) (fld e 79 70)) ∧ (∀ k, k ≠ j → u.inst k = s.inst k) ∧
    (∀ a, memRead u.mem.store a =
      if (1024 * fld e 149 144 ≤ a ∧ a < 1024 * (fld e 149 144 + fld e 156 150)) ∧
          ¬(1024 * (s.inst j).stBase ≤ a ∧ a < 1024 * ((s.inst j).stBase + (s.inst j).stSize)) then 0
      else memRead s.mem.store a) ∧
    u = { s with insts := u.insts, mem := { s.mem with store := u.mem.store } } := by
  intro u
  have hinst (k : InstNo) : u.inst k = if k = j then (s.inst j).shared e else s.inst k := State.modInst_inst _ j k _
  refine ⟨?_, fun p => ?_, fun k hk => (hinst k).trans (if_neg hk), fun a => ?_, rfl⟩
  · rw [hinst j, if_pos rfl]
    rfl
  · rw [hinst j, if_pos rfl]
    refine (vget_map _ _ p).trans ?_
    rw [min_def]
    split_ifs <;> omega
  · refine (memRead_filter (CEntry.adds e (s.inst j)) s.mem.store a).trans ?_
    simp only [CEntry.adds, Bool.and_eq_true, Bool.not_eq_true', Bool.and_eq_false_iff, decide_eq_true_eq, decide_eq_false_iff_not, not_and_or]

/-! ### SET_RESERVATION (R147) -/

section
variable (hj : s.instOf (fld e 69 64) = some j) (ho : s.Ordered i slot 0x41 anyForm e) {p : PortNo} (hp : p.val = fld e 74 70)
  (hconv : (s.port p).converting = false)
include hj ho hp hconv

theorem execSetReservation_of_excess
    (h : periodicLimit (s.port p).reckon < ((othersOf j).map fun k => vget (s.inst k).units p).sum + fld e 95 80) :
    exec (.setReservation i slot) s = .next (s.replied i slot .noResources 0) := by
  have hport : (⟨fld e 74 70 % 32, by omega⟩ : PortNo) = p := Fin.ext (by simp only [← hp, Nat.mod_eq_of_lt p.isLt])
  refine carryOut_ends ho rfl ?_
  simp only [hj, hport]
  exact (if_neg (by simp [hconv])).trans (if_pos h)

variable (hfits : ((othersOf j).map fun k => vget (s.inst k).units p).sum + fld e 95 80 ≤ periodicLimit (s.port p).reckon)
include hfits

theorem execSetReservation_of_fit :
    exec (.setReservation i slot) s = .next (if fld e 95 80 < s.bookedPeak j p then s.replied i slot .shareBelowReserved 0
      else (s.modInst j fun n => { n with units := vset n.units p (fld e 95 80) }).replied i slot .cmdOk 0) := by
  have hport : (⟨fld e 74 70 % 32, by omega⟩ : PortNo) = p := Fin.ext (by simp only [← hp, Nat.mod_eq_of_lt p.isLt])
  split
  next hlow =>
    refine carryOut_ends ho rfl ?_
    simp only [hj, hport]
    exact (if_neg (by simp [hconv])).trans ((if_neg (Nat.not_lt.2 hfits)).trans (if_pos hlow))
  next hlow =>
    refine carryOut_ends ho rfl ?_
    simp only [hj, hport]
    exact (if_neg (by simp [hconv])).trans ((if_neg (Nat.not_lt.2 hfits)).trans (if_neg hlow))

end

/-! ### HAWK_QUOTA (R148, R226) -/

/-- The units that no function holds are at least what the others and this one leave of the 32768. -/
theorem State.length_freeUnits (s : State) (j : InstNo) :
    32768 ≤ s.freeUnits.length + ((othersOf j).map fun k => (s.inst k).unitMap.length).sum + (s.inst j).unitMap.length := by
  have hothers : othersOf j = allInsts.erase j := ((List.nodup_finRange 64).erase_eq_filter j).symm
  have hsum : (s.inst j).unitMap.length + ((othersOf j).map fun k => (s.inst k).unitMap.length).sum =
      (allInsts.flatMap fun k => (s.inst k).unitMap).length := by
    rw [hothers, List.sum_map_erase (l := allInsts) (fun k => (s.inst k).unitMap.length) (List.mem_finRange j),
      List.length_flatMap]
  have hsplit := (List.range 32768).length_eq_length_filter_add fun u => !(allInsts.flatMap fun k => (s.inst k).unitMap).contains u
  rw [List.length_range] at hsplit
  have hheld : ((List.range 32768).filter fun u => !!(allInsts.flatMap fun k => (s.inst k).unitMap).contains u).length ≤
      (allInsts.flatMap fun k => (s.inst k).unitMap).length :=
    (List.subperm_of_subset (List.nodup_range.filter _) fun u hu => by simpa using (List.mem_filter.1 hu).2).length_le
  have hfree : s.freeUnits = (List.range 32768).filter fun u => !(allInsts.flatMap fun k => (s.inst k).unitMap).contains u := rfl
  rw [hfree]
  omega

/-- What a quota that the device has changes. -/
theorem State.setQuota_spec (s : State) (j : InstNo) (units regions : Nat)
    (hfit : ((othersOf j).map fun k => (s.inst k).unitMap.length).sum + units ≤ 32768) :
    let u := s.setQuota j units regions
    (u.inst j).unitMap.length = units ∧
    u.inst j = { s.inst j with
      unitMap := (u.inst j).unitMap, regionQuota := regions, regions := (s.inst j).regions.filter fun r => decide (r.1 < regions) } ∧
    (∀ x, x < (s.inst j).unitMap.length → x < units → (u.inst j).unitMap[x]? = (s.inst j).unitMap[x]?) ∧
    (∀ k, k ≠ j → u.inst k = s.inst k) ∧
    (∀ a, memRead u.mem.hawk a = if a / 512 ∈ (s.inst j).unitMap.drop units then 0 else memRead s.mem.hawk a) ∧
    u = { s with insts := u.insts, mem := { s.mem with hawk := u.mem.hawk } } := by
  intro u
  have hfree := s.length_freeUnits j
  have hother (k : InstNo) (hk : k ≠ j) : u.inst k = s.inst k := (State.modInst_inst _ j k _).trans (if_neg hk)
  have hthis : u.inst j = { s.inst j with
      unitMap := if units ≤ (s.inst j).unitMap.length then (s.inst j).unitMap.take units
        else (s.inst j).unitMap ++ s.freeUnits.take (units - (s.inst j).unitMap.length)
      regionQuota := regions, regions := (s.inst j).regions.filter fun r => decide (r.1 < regions) } :=
    (State.modInst_inst _ j j _).trans (if_pos rfl)
  refine ⟨?_, ?_, fun x hx hx' => ?_, hother, fun a => ?_, rfl⟩
  · rw [hthis]
    dsimp only
    split
    · rw [List.length_take]
      omega
    · rw [List.length_append, List.length_take]
      omega
  · rw [hthis]
  · rw [hthis]
    dsimp only
    split
    · rw [List.getElem?_take_of_lt hx']
    · rw [List.getElem?_append_left hx]
  · refine (memRead_filter (fun a => ((s.inst j).unitMap.drop units).contains (a / 512)) s.mem.hawk a).trans ?_
    simp only [List.contains_iff_mem]

theorem execHawkQuota_of_good (hj : s.instOf (fld e 69 64) = some j) (ho : s.Ordered i slot 0x43 anyForm e) (hu : fld e 95 80 ≤ 32768)
    (hr : fld e 106 96 ≤ 1024) (hfit : ((othersOf j).map fun k => (s.inst k).unitMap.length).sum + fld e 95 80 ≤ 32768)
    (hrfit : ((othersOf j).map fun k => (s.inst k).regionQuota).sum + fld e 106 96 ≤ 1024) (hcarved : (s.inst j).carved ≤ fld e 95 80)
    (hhigh : (s.inst j).highRegion ≤ fld e 106 96) :
    exec (.hawkQuota i slot) s = .next ((s.setQuota j (fld e 95 80) (fld e 106 96)).replied i slot .cmdOk 0) := by
  refine carryOut_ends ho rfl ?_
  simp only [hj]
  refine (if_neg ?_).trans ((if_neg ?_).trans ((if_neg ?_).trans rfl))
  · simp
    omega
  · change ¬ (decide (32768 < ((othersOf j).map fun k => (s.inst k).unitMap.length).sum + fld e 95 80) ||
      decide (1024 < ((othersOf j).map fun k => (s.inst k).regionQuota).sum + fld e 106 96)) = true
    simp
    omega
  · simp
    omega

/-! ### COUNTER_GRANT (R350) -/

theorem execCounterGrantManager_eq (hj : s.instOf (fld e 69 64) = some j) (ho : s.Ordered 0 slot 0x34 anyForm e) :
    exec (.counterGrantManager 0 slot) s = .next ((s.modInst j fun n =>
      if bitOf e 74 then { n with allowed := n.allowed ||| BitVec.ofNat 4 (fld e 73 70) }
      else { n with allowed := n.allowed &&& ~~~BitVec.ofNat 4 (fld e 73 70)
                    userRead := n.userRead &&& ~~~BitVec.ofNat 4 (fld e 73 70) }).replied 0 slot .cmdOk 0) :=
  carryOut_ends_manager ho (by simp only [hj])

/-- Settles O41: each order is carried out where its checks pass; the units that a quota needs are free by the count of those held. -/
theorem shares : Obligations.Shares := by
  intro s i slot e j hj others
  refine ⟨fun ho hw hw' hep hfl => ⟨fun hst hclear => execSetShare_of_excess hj ho hw hw' hep hfl hclear hst,
      fun hst hclear hg hf hbase hopen hgates hitems hprogs => ?_, fun k hk => execSetShare_of_met hj ho hw hw' hep hfl hk⟩,
    fun ho p hp hconv => ⟨execSetReservation_of_excess hj ho hp hconv, fun hfits => ⟨fun hpeak => ?_, fun hpeak => ?_⟩⟩,
    fun ho hu hr hfit hrfit hcarved hhigh => ?_, fun ho => ⟨fun hbit => ?_, fun hbit => ?_⟩,
    fun ho => ⟨fun hmine hself => ?_, fun hnot => ?_⟩⟩
  · exact ⟨_, execSetShare_of_good hj ho hw hw' hep hfl hclear hst hg hf hbase hopen hgates hitems hprogs, s.shareSet_spec j e⟩
  · rw [execSetReservation_of_fit hj ho hp hconv hfits, if_neg (Nat.not_lt.2 hpeak)]
  · rw [execSetReservation_of_fit hj ho hp hconv hfits, if_pos hpeak]
  · exact ⟨_, execHawkQuota_of_good hj ho hu hr hfit hrfit hcarved hhigh, s.setQuota_spec j _ _ hfit⟩
  · simpa only [hbit, if_true] using execCounterGrantManager_eq hj ho
  · simpa only [hbit, Bool.false_eq_true, if_false] using execCounterGrantManager_eq hj ho
  · exact carryOut_ends_served ho ((if_neg (by simp [hmine])).trans (if_neg (by simp [hself])))
  · exact carryOut_ends_served ho (if_pos (by simpa using hnot))

end Sys2Proof.Machine
end

section
/-! LIFECYCLE (O44). -/
namespace Sys2Proof.Machine

variable {s t u : State} {i : InstNo} {slot : BitVec 16} {e : CEntry} {b : LcState} {key : Option (BitVec 256)}

/-! ### The controller in a new state of its life (R385, R389) -/

/-- `t` is at instant 1 of PRIME, its product-life state `b` entered from `s`; `key` is the site key that a provisioning gives. -/
structure State.LifeChanged (s t : State) (b : LcState) (key : Option (BitVec 256)) : Prop where
  lcState : t.pw.lcState = b
  mode : t.pw.mode = .prime
  instant : t.pw.primeInstant = 1
  cause : t.pw.resetCause = 6
  provisioned : b = .provisioned → t.pw.siteKey = key
  field : b = .field → t.pw.siteKey = s.pw.siteKey
  scrapped : b = .scrapped → t.pw.siteKey = none ∧ t.pw.deviceKey = false
  eps : t.eps = []
  devs : t.devs = []

/-- What is reported on the way is no part of it. -/
theorem State.LifeChanged.of_bare (h : s.LifeChanged u b key) (ht : t.bare = u.bare) : s.LifeChanged t b key where
  lcState := (congrArg (·.pw.lcState) ht : t.bare.pw.lcState = u.bare.pw.lcState).trans h.lcState
  mode := (congrArg (·.pw.mode) ht : t.bare.pw.mode = u.bare.pw.mode).trans h.mode
  instant := (congrArg (·.pw.primeInstant) ht : t.bare.pw.primeInstant = u.bare.pw.primeInstant).trans h.instant
  cause := (congrArg (·.pw.resetCause) ht : t.bare.pw.resetCause = u.bare.pw.resetCause).trans h.cause
  provisioned hb := (congrArg (·.pw.siteKey) ht : t.bare.pw.siteKey = u.bare.pw.siteKey).trans (h.provisioned hb)
  field hb := (congrArg (·.pw.siteKey) ht : t.bare.pw.siteKey = u.bare.pw.siteKey).trans (h.field hb)
  scrapped hb := ⟨(congrArg (·.pw.siteKey) ht : t.bare.pw.siteKey = u.bare.pw.siteKey).trans (h.scrapped hb).1,
    (congrArg (·.pw.deviceKey) ht : t.bare.pw.deviceKey = u.bare.pw.deviceKey).trans (h.scrapped hb).2⟩
  eps := (congrArg State.eps ht : t.bare.eps = u.bare.eps).trans h.eps
  devs := (congrArg State.devs ht : t.bare.devs = u.bare.devs).trans h.devs

/-- What PRIME keeps of the product life, and what it drops (R366). -/
theorem State.toPrime_life (s : State) (c : BitVec 4) : (s.toPrime c).pw.lcState = s.pw.lcState ∧
    (s.toPrime c).pw.siteKey = s.pw.siteKey ∧ (s.toPrime c).pw.deviceKey = s.pw.deviceKey ∧ (s.toPrime c).pw.nextCause = c ∧
    (s.toPrime c).eps = [] ∧ (s.toPrime c).devs = [] := by
  refine ⟨?_, ?_, ?_, rfl, rfl, rfl⟩ <;> simp only [State.toPrime, State.allPowerLow_pw]

/-- Instant 1 leaves them as they are. -/
theorem State.AtInstantOne.life (h : u.AtInstantOne t) : t.pw.lcState = u.pw.lcState ∧ t.pw.siteKey = u.pw.siteKey ∧
    t.pw.deviceKey = u.pw.deviceKey ∧ t.eps = u.eps ∧ t.devs = u.devs := by
  have hpw := congrArg State.pw h
  have hlc := congrArg Power.lcState hpw
  have hsite := congrArg Power.siteKey hpw
  have hdevice := congrArg Power.deviceKey hpw
  have heps := congrArg State.eps h
  have hdevs := congrArg State.devs h
  exact ⟨hlc, hsite, hdevice, heps, hdevs⟩

/-- A change of the product life is a PRIME entered with cause 6, the keys that the new state has (R385). -/
theorem State.changeLife_eq (u : State) (b : LcState) (key : Option (BitVec 256)) : ∃ v : State, u.changeLife b key = v.resetPrime 6 ∧
    v.pw.lcState = b ∧ (b = .provisioned → v.pw.siteKey = key) ∧ (b = .field → v.pw.siteKey = u.pw.siteKey) ∧
    (b = .scrapped → v.pw.siteKey = none ∧ v.pw.deviceKey = false) ∧ v.pw.aonValid = u.pw.aonValid ∧ v.pw.mainValid = u.pw.mainValid ∧
    v.pw.perst = u.pw.perst := by
  refine ⟨_, rfl, rfl, ?_, ?_, ?_, rfl, rfl, rfl⟩ <;> rintro rfl
  · rfl
  · rfl
  · exact ⟨rfl, Bool.and_false _⟩

/-- The registers that a transition needs are those of `s` where they differ in reports alone. -/
theorem State.lifeChanged_changeLife (hpw : ∃ q pme, u.pw = { s.pw with msgQueue := q, pme := pme }) (hperst : s.pw.perst = false)
    (haon : s.pw.aonValid = true) (hmain : s.pw.mainValid = true) : s.LifeChanged (u.changeLife b key) b key := by
  obtain ⟨q, pme, hpw⟩ := hpw
  obtain ⟨v, hv, hlc, hprovisioned, hfield, hscrapped, haon', hmain', hperst'⟩ := u.changeLife_eq b key
  rw [hpw] at hfield haon' hmain' hperst'
  have hone : (v.toPrime 6).AtInstantOne (u.changeLife b key) :=
    hv ▸ State.atInstantOne_resetPrime 6 (haon'.trans haon) (hmain'.trans hmain) (hperst'.trans hperst)
  obtain ⟨hlc', hsite, hdevice, hcause, heps, hdevs⟩ := v.toPrime_life 6
  obtain ⟨hlc'', hsite', hdevice', heps', hdevs'⟩ := hone.life
  obtain ⟨hmode, hinstant, hreset⟩ := hone.pw
  exact {
    lcState := (hlc''.trans hlc').trans hlc
    mode := hmode
    instant := hinstant
    cause := hreset.trans hcause
    provisioned := fun hb => (hsite'.trans hsite).trans (hprovisioned hb)
    field := fun hb => (hsite'.trans hsite).trans (hfield hb)
    scrapped := fun hb => ⟨(hsite'.trans hsite).trans (hscrapped hb).1, (hdevice'.trans hdevice).trans (hscrapped hb).2⟩
    eps := heps'.trans heps
    devs := hdevs'.trans hdevs }

/-- The end of a command leaves the registers alone, beside its reports. -/
theorem State.finish_pw (i : InstNo) (slot : BitVec 16) (st : Status) (r : Nat) :
    ∃ q pme, (s.finish i slot st r).pw = { s.pw with msgQueue := q, pme := pme } :=
  Power.eq_with_reports (congrArg State.pw (s.reports_finish i slot st r).1)

/-! ### Authorisation records (R386 to R388) -/

section
variable {k : Nat} {r : List Byte}

theorem State.lifeData_of_good (hgood : s.authRefusal k r = none) : s.lifeData i slot b k r =
    (s.finish i slot .cmdOk 0).changeLife b (if k = 1 then Config.unwrapSiteKey (r.drop 16) else none) := by
  unfold State.lifeData
  simp only [hgood]

theorem State.lifeData_of_bad {code : BitVec 8} (hbad : s.authRefusal k r = some code) :
    s.lifeData i slot b k r = (if k = 2 then s.wahusFail code else s).finish i slot .paramInvalid 0 := by
  unfold State.lifeData
  simp only [hbad]

theorem execCommandHostReadComplete_record {c : Cmd} (hc : s.cmd i slot = some c) (hop : ceOp c.entry = 0x4D) (hph : c.phase = .waiting)
    (hrun : s.runs = true) (hin : (s.inst i).halted = false) (hlen : r.length = fld c.entry 207 192)
    (hb : lcTarget (fld c.entry 67 64) = some b) (hk : lcRecord s.pw.lcState b (r.length == 0) = some k) :
    exec (.commandHostReadComplete i slot r) s = .next (s.lifeData i slot b k r).ended := by
  rw [execCommandHostReadComplete_eq hc hph hrun hin (by simp [readLength, hop, hlen])]
  simp [State.commandData, hop, State.recordData, hb, hk]

end

/-! ### LIFECYCLE (R148, R384) -/

section
variable (ho : s.Ordered i slot 0x4D anyForm e) (hb : lcTarget (fld e 67 64) = some b)
include ho hb

theorem execLifecycle_of_no_row (hrow : lcRecord s.pw.lcState b (fld e 207 192 == 0) = none) :
    exec (.lifecycle i slot) s = .next (s.replied i slot .paramInvalid 0) :=
  carryOut_ends ho rfl (by simp only [hb, hrow])

theorem execLifecycle_of_bare_row (hrow : lcRecord s.pw.lcState b (fld e 207 192 == 0) = some 0) :
    exec (.lifecycle i slot) s = .next ((((s.finish i slot .cmdOk 0).changeLife b none).setPhase i slot .waiting).ended) :=
  carryOut_waits_managerOnly ho rfl (by simp only [hb, hrow])

theorem execLifecycle_of_record {k : Nat} (hrow : lcRecord s.pw.lcState b (fld e 207 192 == 0) = some (k + 1))
    (hleft : k + 1 ≠ 2 ∨ s.pw.whsLeft ≠ 0) (hlen : fld e 207 192 ≠ 0) :
    ∃ t, exec (.lifecycle i slot) s = .next t ∧ (t.cmd i slot).map (·.phase) = some .waiting ∧
      .hostRead i (fld e 191 128) (fld e 207 192) ∈ t.out ∧ t.bare = s.bare := by
  refine carryOut_reads_managerOnly ho rfl ?_
  have htry : ¬ (k + 1 = 2 && s.pw.whsLeft = 0) = true := by
    simp only [Bool.and_eq_true, decide_eq_true_eq, not_and]
    exact fun hk => hleft.resolve_left (not_not.2 hk)
  simp only [hb, hrow]
  exact (if_neg htry).trans (if_neg hlen)

end

/-- Settles O44: a transition is a PRIME entered with cause 6, which keeps the product life and its keys. -/
theorem productLife : Obligations.ProductLife := by
  refine ⟨fun s i slot e b ho hb => ⟨execLifecycle_of_no_row ho hb, fun hrow hperst haon hmain => ?_,
      fun k => execLifecycle_of_record ho hb⟩,
    fun s i slot c r b k hc hop hph hrun hin hlen hb hk => ?_⟩
  · have hlife : s.LifeChanged ((s.finish i slot .cmdOk 0).changeLife b none) b none :=
      State.lifeChanged_changeLife (State.finish_pw i slot _ _) hperst haon hmain
    have hlife' := hlife.of_bare ((State.bare_ended _).trans (State.bare_setPhase _ i slot .waiting))
    exact ⟨_, execLifecycle_of_bare_row ho hb hrow, hlife'.lcState, hlife'.mode, hlife'.instant, hlife'.cause, hlife'.field, hlife'.scrapped,
      hlife'.eps, hlife'.devs⟩
  · have hexec := execCommandHostReadComplete_record hc hop hph hrun hin hlen hb hk
    refine ⟨fun hgood hperst haon hmain => ?_, fun code hbad hk2 => ?_, fun code hbad hk2 => ?_⟩
    · rw [State.lifeData_of_good hgood] at hexec
      have hlife := (State.lifeChanged_changeLife (b := b) (key := if k = 1 then Config.unwrapSiteKey (r.drop 16) else none)
        (State.finish_pw (s := s) i slot .cmdOk 0) hperst haon hmain).of_bare (State.bare_ended _)
      exact ⟨_, hexec, hlife.lcState, hlife.mode, hlife.cause, fun hp hk1 => (hlife.provisioned hp).trans (if_pos hk1)⟩
    · rw [hexec, State.lifeData_of_bad hbad, if_neg hk2]
      rfl
    · rw [State.lifeData_of_bad hbad, if_pos hk2] at hexec
      exact ⟨_, hexec, rfl, rfl⟩

end Sys2Proof.Machine
end

section
/-! SAVE_INSTANCE and RESTORE_INSTANCE (O45). -/
namespace Sys2Proof.Machine

variable {s t : State} {i : InstNo} {slot : BitVec 16} {e : CEntry} {j : InstNo}

/-! ### SAVE_INSTANCE (R331, R332) -/

/-- A write to the memory of a function whose writes are not logged goes out and is counted (R329). -/
theorem State.hostWrite_unlogged (h : (s.inst i).dirty = none) (addr : Nat) (bs : List Byte) :
    (s.hostWrite i addr bs).out = .hostWrite i addr bs :: s.out ∧ ((s.hostWrite i addr bs).inst i).dirty = none := by
  constructor
  · have hlog : (s.emit (.hostWrite i addr bs)).logDirty i addr bs.length = s.emit (.hostWrite i addr bs) := by
      unfold State.logDirty
      change (match (s.inst i).dirty with | none => _ | some d => _) = _
      rw [h]
    rw [State.hostWrite, State.hostWriteBy, hlog, State.out_count]
    rfl
  · have hbare := congrArg (fun u : State => (u.inst i).dirty) (s.bare_hostWrite i addr bs)
    simp only [State.bare_inst, Inst.bare, h, Option.map_none] at hbare
    exact Option.map_eq_none_iff.1 hbare

/-- The parts of an image in the order in which they are written. -/
theorem State.writeImage_eq (s : State) (j : InstNo) (dest : Nat) :
    let img := s.imageParts j
    s.writeImage j dest = (((s.hostWrite 0 (dest + img.1.length + img.2.1.length) (List.replicate 64 0)).hostWrite 0 dest img.1).hostWrite 0
      (dest + img.1.length) img.2.1).hostWrite 0 (dest + img.1.length + img.2.1.length) img.2.2 := rfl

/-- The image goes out with its seal last, over the seal's place cleared first. -/
theorem State.out_writeImage (h : (s.inst 0).dirty = none) (j : InstNo) (dest : Nat) :
    let img := s.imageParts j
    (s.writeImage j dest).out.take 4 = [.hostWrite 0 (dest + img.1.length + img.2.1.length) img.2.2,
      .hostWrite 0 (dest + img.1.length) img.2.1, .hostWrite 0 dest img.1,
      .hostWrite 0 (dest + img.1.length + img.2.1.length) (List.replicate 64 0)] := by
  intro img
  obtain ⟨h1, hd1⟩ := State.hostWrite_unlogged h (dest + img.1.length + img.2.1.length) (List.replicate 64 0)
  obtain ⟨h2, hd2⟩ := State.hostWrite_unlogged hd1 dest img.1
  obtain ⟨h3, hd3⟩ := State.hostWrite_unlogged hd2 (dest + img.1.length) img.2.1
  obtain ⟨h4, -⟩ := State.hostWrite_unlogged hd3 (dest + img.1.length + img.2.1.length) img.2.2
  rw [State.writeImage_eq, h4, h3, h2, h1]
  rfl

theorem State.bare_writeImage (s : State) (j : InstNo) (dest : Nat) : (s.writeImage j dest).bare = s.bare := by
  simp only [State.writeImage_eq, State.bare_hostWrite]

/-- One save more is counted (R332). -/
def State.countSave (s : State) : State := { s with saveCount := s.saveCount + 1 }

theorem State.countSave_out : s.countSave.out = s.out := rfl

/-- The counter of saves is the one thing that a save changes beside what is written and counted. -/
theorem State.countSave_of_bare (h : t.bare = s.bare) : t.countSave.saveCount = s.saveCount + 1 ∧
    t.countSave.bare = State.bare { s with saveCount := t.countSave.saveCount } := by
  have hcount := congrArg State.saveCount h
  have hsaved := congrArg (fun u : State => { u with saveCount := t.saveCount + 1 }) h
  exact ⟨congrArg (· + 1) hcount, hsaved⟩

theorem State.imageSaved_spec (h : (s.inst 0).dirty = none) (j : InstNo) (dest : Nat) :
    let img := s.imageParts j
    let u := (s.writeImage j dest).countSave
    u.out.take 4 = [.hostWrite 0 (dest + img.1.length + img.2.1.length) img.2.2, .hostWrite 0 (dest + img.1.length) img.2.1,
        .hostWrite 0 dest img.1, .hostWrite 0 (dest + img.1.length + img.2.1.length) (List.replicate 64 0)] ∧
      u.saveCount = s.saveCount + 1 ∧ u.bare = State.bare { s with saveCount := u.saveCount } := by
  dsimp only
  rw [State.countSave_out]
  exact ⟨State.out_writeImage h j dest, State.countSave_of_bare (s.bare_writeImage j dest)⟩

section
variable (ho : s.Ordered i slot 0x47 anyForm e) (hj : s.tenantOf e = some j)
include ho hj

theorem execSaveInstance_of_no_key (hkey : s.pw.siteKey = none) :
    exec (.saveInstance i slot) s = .next (s.replied i slot .notPermitted 0) := by
  refine carryOut_ends ho rfl ?_
  simp only [hj]
  exact if_pos (by simp [hkey])

variable (hkey : s.pw.siteKey.isSome = true)
include hkey

theorem execSaveInstance_of_running (hst : (s.inst j).st = .running) :
    exec (.saveInstance i slot) s = .next (s.replied i slot .notQuiesced 0) := by
  refine carryOut_ends ho rfl ?_
  simp only [hj]
  exact (if_neg (by simp [Option.isNone_eq_false_iff.2 hkey])).trans ((if_neg (by simp [hst])).trans (if_pos (by simp [hst])))

variable (hst : (s.inst j).st = .quiesced)
include hst

theorem execSaveInstance_of_small
    (hlen : fld e 223 192 < (s.imageParts j).1.length + (s.imageParts j).2.1.length + (s.imageParts j).2.2.length) :
    exec (.saveInstance i slot) s = .next (s.replied i slot .noResources
      ((s.imageParts j).1.length + (s.imageParts j).2.1.length + (s.imageParts j).2.2.length)) := by
  refine carryOut_ends ho rfl ?_
  simp only [hj]
  exact (if_neg (by simp [Option.isNone_eq_false_iff.2 hkey])).trans ((if_neg (by simp [hst])).trans ((if_neg (by simp [hst])).trans (if_pos hlen)))

theorem execSaveInstance_of_room
    (hlen : (s.imageParts j).1.length + (s.imageParts j).2.1.length + (s.imageParts j).2.2.length ≤ fld e 223 192)
    (hw : s.canWrite 0 = true) :
    exec (.saveInstance i slot) s = .next ((s.writeImage j (fld e 191 128)).countSave.replied i slot .cmdOk
      ((s.imageParts j).1.length + (s.imageParts j).2.1.length + (s.imageParts j).2.2.length)) := by
  refine carryOut_ends ho rfl ?_
  simp only [hj]
  exact (if_neg (by simp [Option.isNone_eq_false_iff.2 hkey])).trans ((if_neg (by simp [hst])).trans ((if_neg (by simp [hst])).trans
    ((if_neg (Nat.not_lt.2 hlen)).trans (if_neg (by simp [hw])))))

end

/-! ### RESTORE_INSTANCE (R333) -/

theorem State.op_of_bare (h : t.bare = s.bare) (j : InstNo) : (t.inst j).op = (s.inst j).op := by
  have hinst : (t.inst j).bare = (s.inst j).bare := by rw [← State.bare_inst, h, State.bare_inst]
  have hop := congrArg Inst.op hinst
  exact hop

section
variable (ho : s.Ordered i slot 0x48 anyForm e) (hj : s.tenantOf e = some j)
include ho

/-- A restore that has not started has no image in hand. -/
theorem State.Ordered.restoreOn_eq_none : s.restoreOn i slot = none := by
  unfold State.restoreOn
  split
  next hcmd => exact absurd (congrArg (Option.map (·.phase)) (ho.cmd.symm.trans hcmd)) (by simp)
  next => rfl

include hj

theorem execRestoreInstance_of_not_fresh (h : (s.inst j).st ≠ .quiesced ∨ (s.inst j).fresh = false) :
    exec (.restoreInstance i slot) s = .next (s.replied i slot .notQuiesced 0) := by
  change execRestoreInstance i slot s = _
  simp only [execRestoreInstance, ho.restoreOn_eq_none]
  refine carryOut_ends ho rfl ?_
  simp only [hj]
  exact if_pos (by simpa using h)

theorem execRestoreInstance_of_fresh (hst : (s.inst j).st = .quiesced) (hfresh : (s.inst j).fresh = true) :
    ∃ t, exec (.restoreInstance i slot) s = .next t ∧ (t.cmd i slot).map (·.phase) = some .waiting ∧ (t.inst j).op = .restoring ∧
      .hostRead 0 (fld e 191 128) (fld e 223 192) ∈ t.out ∧ t.bare = (s.modInst j fun n => { n with op := .restoring }).bare := by
  obtain rfl : i = 0 := ho.inst_eq_zero rfl
  have hcmd : (s.modInst j fun n => { n with op := .restoring }).cmd 0 slot = s.cmd 0 slot :=
    State.cmd_of_books (State.books_modInst _ _ _ rfl) 0 slot
  obtain ⟨hphase, hout, hbare⟩ := State.waits_for_read (hcmd.trans ho.cmd) 0 (fld e 191 128) (fld e 223 192) 0x48
  simp only [State.seqServed_manager] at hphase hout hbare
  refine ⟨_, ?_, hphase, ?_, hout, hbare⟩
  · change execRestoreInstance 0 slot s = _
    simp only [execRestoreInstance, ho.restoreOn_eq_none]
    refine carryOut_waits_manager ho ?_
    simp only [hj]
    exact if_neg (by simp [hst, hfresh])
  · rw [State.op_of_bare hbare, State.modInst_inst, if_pos rfl]

end

/-! ### A restore that fails (R335): what a wipe leaves of a function -/

/-- The endpoints open, and the state of every function. -/
def State.tenancy (s : State) : KMap Ep × (InstNo → InstState) := (s.eps, fun j => (s.inst j).st)

theorem State.of_tenancy (h : t.tenancy = s.tenancy) : t.eps = s.eps ∧ ∀ j, (t.inst j).st = (s.inst j).st :=
  have ⟨heps, hst⟩ := Prod.mk.inj h
  ⟨heps, congrFun hst⟩

theorem State.tenancy_of_undispatched (h : t.undispatched = s.undispatched) : t.tenancy = s.tenancy := by
  have hst (u : State) (k : InstNo) : (u.undispatched.inst k).st = (u.inst k).st := by
    have hinst : u.undispatched.inst k = (u.inst k).undispatched := vget_map ..
    rw [hinst]
    rfl
  refine Prod.ext (State.eps_of_undispatched h) (funext fun k => ?_)
  change (t.inst k).st = (s.inst k).st
  rw [← hst t, h, hst s]

theorem State.tenancy_of_unlined (h : t.unlined = s.unlined) : t.tenancy = s.tenancy := by
  have hline (u : State) : u.unlined.tenancy = u.tenancy := rfl
  rw [← hline t, h, hline s]

theorem State.tenancy_unlist (gone : Holder → Bool) : (s.unlist gone).tenancy = s.tenancy := by
  refine State.each_keeps State.tenancy (fun t p => ?_) _ s
  dsimp only
  split <;> rfl

/-- Taking an endpoint's work out of hand closes nothing. -/
theorem State.tenancy_discardEp (k : Nat) : (s.discardEp k).tenancy = s.tenancy := by
  unfold State.discardEp
  dsimp only
  rw [State.tenancy_of_unlined (State.unlined_dropRound _ _), State.tenancy_of_unlined (State.unlined_dropTxns _ _)]
  rfl

theorem State.tenancy_dropEp (k : Nat) : (s.dropEp k).tenancy = (kdel s.eps k, fun j => (s.inst j).st) := by
  unfold State.dropEp
  rw [State.tenancy_unlist]
  rfl

/-- One endpoint closed, and its context in the backing store cleared. -/
def State.closeEp (s : State) (k : Nat) : State :=
  let s := (s.discardEp k).dropEp k
  if s.mem.bsLock then s.putData 0 (s.mem.bsBase.toNat + 64 * k) (List.replicate 64 0) none else s

theorem State.each_cons {α : Type} (f : State → α → State) (x : α) (l : List α) : s.each (x :: l) f = (f s x).each l f := rfl

theorem State.closeEps_cons (k : Nat) (ks : List Nat) : s.closeEps (k :: ks) = (s.closeEp k).closeEps ks := by
  rw [State.closeEps, State.each_cons]
  rfl

theorem State.closeEp_spec (k : Nat) : (s.closeEp k).eps = kdel s.eps k ∧ ∀ j, ((s.closeEp k).inst j).st = (s.inst j).st := by
  obtain ⟨heps, hst⟩ := State.of_tenancy (State.tenancy_discardEp (s := s) k)
  have hdrop : ((s.discardEp k).dropEp k).tenancy = (kdel s.eps k, fun j => (s.inst j).st) := by
    rw [State.tenancy_dropEp, heps, funext hst]
  have hclose : (s.closeEp k).tenancy = ((s.discardEp k).dropEp k).tenancy := by
    unfold State.closeEp
    dsimp only
    split
    · exact State.tenancy_of_undispatched (State.undispatched_of_bare (State.bare_putData _ _ _ _ _))
    · rfl
  obtain ⟨heps', hst'⟩ := Prod.mk.inj (hclose.trans hdrop)
  exact ⟨heps', congrFun hst'⟩

/-- Endpoints closed are gone, and nothing else is. -/
theorem State.closeEps_spec (ks : List Nat) (s : State) : (∀ j, ((s.closeEps ks).inst j).st = (s.inst j).st) ∧
    ∀ x ∈ (s.closeEps ks).eps, x ∈ s.eps ∧ x.1 ∉ ks := by
  induction ks generalizing s with
  | nil => exact ⟨fun _ => rfl, fun x hx => ⟨hx, List.not_mem_nil⟩⟩
  | cons k ks ih =>
    obtain ⟨heps, hst⟩ := s.closeEp_spec k
    obtain ⟨hst', heps'⟩ := ih (s.closeEp k)
    rw [State.closeEps_cons]
    refine ⟨fun j => (hst' j).trans (hst j), fun x hx => ?_⟩
    obtain ⟨hmem, hnot⟩ := heps' x hx
    rw [heps, kdel, List.mem_filter] at hmem
    refine ⟨hmem.1, fun h => ?_⟩
    rcases List.mem_cons.1 h with h | h
    · simp [h] at hmem
    · exact hnot h

theorem State.undispatched_withdrawItem (k : Nat) : (s.withdrawItem k).undispatched = s.undispatched := by
  have hunpark (u : State) (x : Item) : (u.unpark x).undispatched = u.undispatched := by
    unfold State.unpark
    dsimp only
    split
    · exact u.undispatched_pushItem _ _
    · rfl
  unfold State.withdrawItem
  split
  · rfl
  · dsimp only
    split
    · simp
    · rw [hunpark]
      simp

/-- The dispatcher and the machines emptied of a function's work: no endpoint is closed by it. -/
theorem State.tenancy_clearUnits (i : InstNo) : (s.clearUnits i).tenancy = s.tenancy := by
  have hitems : (s.clearItems i).undispatched = s.undispatched := by
    refine State.each_keeps State.undispatched (fun t x => ?_) _ s
    split
    · exact State.undispatched_withdrawItem _
    · exact State.undispatched_withdrawItem _
    · exact State.undispatched_dropItem _ _
  have hrest : (s.clearUnits i).tenancy = (s.clearItems i).tenancy := by
    unfold State.clearUnits State.stopUnits
    generalize s.clearItems i = u
    rfl
  exact hrest.trans (State.tenancy_of_undispatched hitems)

/-- What a wipe does before it closes endpoints: the function has no work in the lists and no commit. -/
def State.unlisted (s : State) (j : InstNo) : State :=
  let s := (s.orphanProcs j (s.epSlots j)).unlist (s.holds j)
  { s with commits := s.commits.filter fun c => c.2.inst != j }

theorem State.tenancy_commits (l : KMap Commit) : ({ s with commits := l } : State).tenancy = s.tenancy := rfl

theorem State.tenancy_orphanProcs (i : InstNo) (gone : List Nat) : (s.orphanProcs i gone).tenancy = s.tenancy := rfl

theorem State.tenancy_unlisted (j : InstNo) : (s.unlisted j).tenancy = s.tenancy :=
  ((State.tenancy_commits _).trans (State.tenancy_unlist _)).trans (State.tenancy_orphanProcs j _)

theorem State.wipeInst_eq (s : State) (j : InstNo) : ∃ f : Inst → Inst, (∀ n, (f n).st = n.st) ∧
    s.wipeInst j = (((s.unlisted j).closeEps (s.epSlots j)).clearUnits j).modInst j f := by
  unfold State.wipeInst State.unlisted
  refine ⟨_, ?_, rfl⟩
  exact fun _ => rfl

/-- A wiped function is in the state it was in, and has no endpoint open. -/
theorem State.wipeInst_spec (s : State) (j : InstNo) :
    ((s.wipeInst j).inst j).st = (s.inst j).st ∧ ∀ k x, (k, x) ∈ (s.wipeInst j).eps → x.inst ≠ j := by
  obtain ⟨f, hf, hwipe⟩ := s.wipeInst_eq j
  obtain ⟨hueps, hust⟩ := State.of_tenancy (State.tenancy_unlisted (s := s) j)
  obtain ⟨hst, heps⟩ := State.closeEps_spec (s.epSlots j) (s.unlisted j)
  obtain ⟨hceps, hcst⟩ := State.of_tenancy (State.tenancy_clearUnits (s := (s.unlisted j).closeEps (s.epSlots j)) j)
  rw [hwipe]
  constructor
  · rw [State.modInst_inst, if_pos rfl, hf, hcst, hst, hust]
  · intro k x hx hown
    rw [State.modInst_eps, hceps] at hx
    obtain ⟨hmem, hnot⟩ := heps (k, x) hx
    rw [hueps] at hmem
    exact hnot (List.mem_map.2 ⟨(k, x), List.mem_filter.2 ⟨hmem, by simp [hown]⟩, rfl⟩)

/-- A function whose restore is undone is fresh, and in the state it was in, with no endpoint open. -/
theorem State.unRestored_spec (s : State) (j : InstNo) : (((s.unRestore j).endOp j).inst j).st = (s.inst j).st ∧
    (((s.unRestore j).endOp j).inst j).fresh = true ∧ ∀ k x, (k, x) ∈ ((s.unRestore j).endOp j).eps → x.inst ≠ j := by
  obtain ⟨hst, heps⟩ := s.wipeInst_spec j
  simp only [State.endOp, State.unRestore, State.modInst_inst, State.modInst_eps, if_true]
  exact ⟨hst, trivial, heps⟩

/-- A restore whose image does not pass is undone. -/
theorem execCommandHostReadComplete_unsealed {c : Cmd} {img : List Byte} {st : Status} (hc : s.cmd 0 slot = some c)
    (hop : ceOp c.entry = 0x48) (hph : c.phase = .waiting) (hrun : s.runs = true) (hin : (s.inst 0).halted = false)
    (hlen : img.length = fld c.entry 223 192) (hj : s.tenantOf c.entry = some j) (hconv : ∀ p, (s.port p).converting = false)
    (hseal : s.sealCheck img (fld c.entry 223 192) = some st) :
    exec (.commandHostReadComplete 0 slot img) s = .next (((s.unRestore j).endOp j).replied 0 slot st 0) := by
  have hidle : (allPorts.any fun p => (s.port p).converting) = false := by simp [hconv]
  have hdata : s.restoreData slot c.entry img = ((s.unRestore j).endOp j).finish 0 slot st 0 := by
    unfold State.restoreData
    simp only [hj, hidle, hseal]
    rfl
  rw [execCommandHostReadComplete_eq hc hph hrun hin (by simp [readLength, hop, hlen])]
  simp [State.commandData, hop, hdata, State.replied]

/-- Settles O45: the image goes out in its order, and a wipe closes every endpoint of the function and leaves its state. -/
theorem saveRestore : Obligations.SaveRestore := by
  refine ⟨fun s i slot e j ho hj => ⟨execSaveInstance_of_no_key ho hj, execSaveInstance_of_running ho hj,
      fun hkey hst => ⟨execSaveInstance_of_small ho hj hkey hst, fun hlen hw hlog => ?_⟩⟩,
    fun s i slot e j ho hj => ⟨execRestoreInstance_of_fresh ho hj, execRestoreInstance_of_not_fresh ho hj⟩,
    fun s slot c img j st hc hop hph hrun hin hlen hj hconv hseal => ?_⟩
  · exact ⟨_, execSaveInstance_of_room ho hj hkey hst hlen hw, State.imageSaved_spec hlog j _⟩
  · exact ⟨_, execCommandHostReadComplete_unsealed hc hop hph hrun hin hlen hj hconv hseal, s.unRestored_spec j⟩

end Sys2Proof.Machine
end

section
/-!
SUPPORT. Booked loads and the choice of a phase (R173, R174): the peak of a phase bounds its loads, and the phase chosen has the least peak
of those that fit.
-/
namespace Sys2Proof.Machine

variable {bs : List Booking} {i : InstNo} {p : PortNo} {v : Speed} {n cost units q : Nat}

/-! ### The peak -/

/-- The greatest of `f` over the members of a list that pass is at least where it began, and at least `f` of each that passes. -/
theorem foldl_max_ge {α : Type} (pass : α → Bool) (f : α → Nat) (l : List α) (a : Nat) :
    a ≤ l.foldl (fun a k => if pass k then max a (f k) else a) a ∧
      ∀ k ∈ l, pass k = true → f k ≤ l.foldl (fun a k => if pass k then max a (f k) else a) a := by
  induction l generalizing a with
  | nil => simp
  | cons x l ih =>
    rw [List.foldl_cons, List.forall_mem_cons]
    obtain ⟨hbegin, hmem⟩ := ih (if pass x then max a (f x) else a)
    refine ⟨le_trans ?_ hbegin, fun hx => le_trans ?_ hbegin, hmem⟩
    · split
      · exact le_max_left ..
      · exact le_rfl
    · simp [hx]

theorem loadAt_le_peakAt {k : Nat} (hk : k < 256) (hb : bookedAt v n q k = true) : loadAt bs i p v k ≤ peakAt bs i p v n q :=
  (foldl_max_ge (bookedAt v n q) (loadAt bs i p v) (List.range 256) 0).2 k (List.mem_range.2 hk) hb

/-! ### The phases tried -/

/-- The phases that `choosePhase` tries, in their order. -/
def phasesTried (v : Speed) (n : Nat) : List Nat :=
  let step := if v == .reach then 8 else 1
  (List.range ((2 ^ min n 8 + step - 1) / step)).map (· * step)

theorem mem_phasesTried : q ∈ phasesTried v n ↔ q < 2 ^ min n 8 ∧ (v = .reach → q % 8 = 0) := by
  by_cases hv : v = .reach
  · simp only [phasesTried, hv, beq_self_eq_true, if_true, List.mem_map, List.mem_range]
    constructor
    · rintro ⟨j, hj, rfl⟩
      omega
    · rintro ⟨hlt, hmod⟩
      exact ⟨q / 8, by have := hmod trivial; omega, by have := hmod trivial; omega⟩
  · simp [phasesTried, hv]

/-! ### The best of the phases -/

/-- The best so far, with its peak, against one phase more. -/
def betterPhase (peak : Nat → Nat) (cost units : Nat) (best : Option (Nat × Nat)) (q : Nat) : Option (Nat × Nat) :=
  if units < peak q + cost then best
  else match best with
    | none => some (q, peak q)
    | some (_, b) => if peak q < b then some (q, peak q) else best

/-- The best of the phases tried: one of them, which fits, with its peak, and no other has a smaller one; none, where none fits. -/
def BestPhase (peak : Nat → Nat) (cost units : Nat) (tried : List Nat) : Option (Nat × Nat) → Prop
  | none => ∀ r ∈ tried, units < peak r + cost
  | some (q, b) => q ∈ tried ∧ b = peak q ∧ b + cost ≤ units ∧ ∀ r ∈ tried, b ≤ peak r

section
variable {peak : Nat → Nat} {tried : List Nat} {best : Option (Nat × Nat)}

theorem BestPhase.better (h : BestPhase peak cost units tried best) (q : Nat) :
    BestPhase peak cost units (tried ++ [q]) (betterPhase peak cost units best q) := by
  unfold betterPhase
  by_cases hfit : units < peak q + cost
  · rw [if_pos hfit]
    match best, h with
    | none, h => simpa [BestPhase, or_imp, forall_and, hfit] using h
    | some (a, b), ⟨ha, hb, hroom, hleast⟩ =>
      exact ⟨by simp [ha], hb, hroom, by simpa [or_imp, forall_and] using ⟨hleast, by omega⟩⟩
  · rw [if_neg hfit]
    match best, h with
    | none, h =>
      refine ⟨by simp, rfl, by omega, fun r hr => ?_⟩
      rcases List.mem_append.1 hr with hr | hr
      · have := h r hr
        omega
      · rw [List.mem_singleton.1 hr]
    | some (a, b), ⟨ha, hb, hroom, hleast⟩ =>
      by_cases hless : peak q < b
      · simp only [hless, if_true]
        exact ⟨by simp, rfl, by omega, by simpa [or_imp, forall_and] using fun r hr => hless.le.trans (hleast r hr)⟩
      · simp only [hless, if_false]
        exact ⟨by simp [ha], hb, hroom, by simpa [or_imp, forall_and] using ⟨hleast, by omega⟩⟩

theorem BestPhase.foldl (h : BestPhase peak cost units tried best) (l : List Nat) :
    BestPhase peak cost units (tried ++ l) (l.foldl (betterPhase peak cost units) best) := by
  induction l generalizing tried best with
  | nil => simpa using h
  | cons q l ih => simpa using ih (h.better q)

end

theorem choosePhase_eq : choosePhase bs i p v n cost units =
    ((phasesTried v n).foldl (betterPhase (peakAt bs i p v n) cost units) none).map (·.1) := rfl

/-- The phase chosen is one that is tried, with room for the cost at its peak, and none that is tried has a smaller peak. -/
theorem choosePhase_spec (h : choosePhase bs i p v n cost units = some q) :
    q ∈ phasesTried v n ∧ peakAt bs i p v n q + cost ≤ units ∧
      ∀ r ∈ phasesTried v n, peakAt bs i p v n q ≤ peakAt bs i p v n r := by
  rw [choosePhase_eq] at h
  obtain ⟨⟨a, b⟩, hbest, rfl⟩ := Option.map_eq_some_iff.1 h
  have hnone : BestPhase (peakAt bs i p v n) cost units [] none := fun r hr => absurd hr List.not_mem_nil
  have hspec := hnone.foldl (phasesTried v n)
  rw [hbest] at hspec
  obtain ⟨hmem, rfl, hroom, hleast⟩ := hspec
  exact ⟨hmem, hroom, hleast⟩

end Sys2Proof.Machine
end

section
/-! Booking (O36). -/
namespace Sys2Proof.Machine

variable {s : State} {slot : Nat} {i : InstNo} {p : PortNo} {cost n phase q : Nat}

/-- What is booked is a phase chosen or the one asked for, with room for the cost at its peak, and the pins fit with it. -/
theorem State.book_spec (h : s.book slot i p cost n phase = some q) :
    (if phase = 0xFFFF then choosePhase (s.bookings.filter fun b => b.slot != slot) i p (s.port p).reckon n cost (vget (s.inst i).units p) = some q
      else q = phase ∧
        peakAt (s.bookings.filter fun b => b.slot != slot) i p (s.port p).reckon n q + cost ≤ vget (s.inst i).units p) ∧
      s.pinsFit (⟨slot, i, p, cost, n, q⟩ :: s.bookings.filter fun b => b.slot != slot) = true := by
  unfold State.book at h
  obtain ⟨a, hphase, hpins⟩ := Option.bind_eq_some_iff.1 h
  obtain ⟨hfit, ha⟩ := Option.ite_none_right_eq_some.1 hpins
  obtain rfl := Option.some.inj ha
  refine ⟨?_, hfit⟩
  by_cases hfree : phase = 0xFFFF
  · rwa [if_pos hfree] at hphase ⊢
  · rw [if_neg hfree] at hphase ⊢
    obtain ⟨hroom, ha⟩ := Option.ite_none_right_eq_some.1 hphase
    obtain rfl := Option.some.inj ha
    exact ⟨rfl, hroom⟩

/-- Settles O36: the peak of the phase booked leaves room for the cost, and it bounds the load of every entry. -/
theorem booking : Obligations.Booking := by
  intro s slot i p cost n phase q h bs v
  obtain ⟨hphase, hpins⟩ := State.book_spec h
  have hload (hroom : peakAt bs i p v n q + cost ≤ vget (s.inst i).units p) (k : Nat) (hk : k < 256) (hb : bookedAt v n q k = true) :
      loadAt bs i p v k + cost ≤ vget (s.inst i).units p :=
    (Nat.add_le_add_right (loadAt_le_peakAt hk hb) cost).trans hroom
  by_cases hfree : phase = 0xFFFF
  · rw [if_pos hfree] at hphase
    obtain ⟨hmem, hroom, hleast⟩ := choosePhase_spec hphase
    obtain ⟨hlt, hreach⟩ := mem_phasesTried.1 hmem
    exact ⟨hload hroom, fun hne => absurd hfree hne,
      fun _ => ⟨hlt, hreach, fun r hr hr8 => hleast r (mem_phasesTried.2 ⟨hr, hr8⟩)⟩, hpins⟩
  · rw [if_neg hfree] at hphase
    obtain ⟨hq, hroom⟩ := hphase
    exact ⟨hload hroom, fun _ => hq, fun heq => absurd heq hfree, hpins⟩

end Sys2Proof.Machine
end

section
/-! The cut-off (O47). -/
namespace Sys2Proof.Machine

/-- A running controller at Express, no reservation given and no list begun. Port 0 has a list left that names endpoint 0, of cost 1. -/
def listLeft : State :=
  { State.reset with
    pw := { State.reset.pw with mode := .sole, perst := false }
    ports := vset (Vector.replicate 32 { st := .enabled, speed := .express }) 0
      { st := .enabled, speed := .express, list := [.ep 0] }
    eps := [(0, { haltedEp0 1 with kind := .periodic, st := .running, svcCost := 1 })]
    devs := [(1, tier1Dev .addressed)] }

/-- The cut-off leaves the list of the port, whose list was not begun. -/
theorem listLeft_stays : nextView (fun t => (t.port 0).list) (exec .plannerCutoff listLeft) = some [.ep 0] := by decide +kernel

/-- Refutes O47: the cut-off fixes the list of a port only if it was begun at the tick (R163), and nothing keeps what another port's list
holds within the reservations, as where an endpoint of cost 1 is left in it and its owner has no units; the clause has the sum within the
reservation on every port that carries services and whose span begins at the next tick. -/
theorem not_cutoff : ¬ Obligations.Cutoff := by
  intro h
  obtain ⟨t, hexec, -, -, -, -, hsum⟩ := h listLeft (by decide +kernel) (by decide +kernel)
  have hwithin := hsum 0 0 (by decide +kernel) (by decide +kernel)
  have hstays := listLeft_stays
  rw [hexec] at hstays
  have hlist : (t.port 0).list = [.ep 0] := Option.some.inj hstays
  rw [hlist] at hwithin
  exact absurd hwithin (by decide +kernel)

end Sys2Proof.Machine
end

section
/-!
SUPPORT. The conversion of reservations (R175): the units of all instances at the port are converted, and the costs of the port's periodic
endpoints reckoned again.
-/
namespace Sys2Proof.Machine

variable {s t : State} {p : PortNo} {v : Speed}

/-- A reservation of nothing stays one. -/
@[simp] theorem convertUnits_zero (a b : Speed) : convertUnits a b 0 = 0 := by cases a <;> cases b <;> rfl

/-- The record with its units at a port converted. -/
def Inst.convertedAt (n : Inst) (p : PortNo) (a b : Speed) : Inst :=
  { n with units := vset n.units p (convertUnits a b (vget n.units p)) }

theorem Inst.convertedAt_of_zero {n : Inst} {a b : Speed} (h : vget n.units p = 0) : n.convertedAt p a b = n := by
  simp only [Inst.convertedAt, h, convertUnits_zero]
  rw [← h, vset_vget]

/-- Reservations are no report. -/
theorem Inst.units_of_bare {m n : Inst} (h : m.bare = n.bare) : m.units = n.units := (congrArg Inst.units h : m.bare.units = n.bare.units)

/-- The conversion of one record, none where it holds no units at the port. -/
def State.convertInst (s : State) (p : PortNo) (a b : Speed) (i : InstNo) : State :=
  if vget (s.inst i).units p = 0 then s else s.modInst i fun n => n.convertedAt p a b

theorem State.convertInst_eq (s : State) (p : PortNo) (a b : Speed) (i : InstNo) :
    s.convertInst p a b i = s.modInst i fun n => n.convertedAt p a b := by
  unfold State.convertInst
  split
  case isTrue h =>
    rw [State.modInst, Inst.convertedAt_of_zero h]
    exact (congrArg (fun x => ({ s with insts := x } : State)) (vset_vget s.insts i)).symm
  case isFalse => rfl

/-- A change made to each of a list of instances is made to those instances alone. -/
theorem State.each_modInst (f : Inst → Inst) (l : List InstNo) (hl : l.Nodup) (s : State) :
    (∀ i, (s.each l fun s i => s.modInst i f).inst i = if i ∈ l then f (s.inst i) else s.inst i) ∧
      ∃ insts, (s.each l fun s i => s.modInst i f) = { s with insts := insts } := by
  refine ⟨fun i => ?_, State.each_insts (fun t i => ⟨_, rfl⟩) l s⟩
  induction l generalizing s with
  | nil => rfl
  | cons j l ih =>
    obtain ⟨hj, hl⟩ := List.nodup_cons.1 hl
    rw [State.each_cons, ih hl, State.modInst_inst]
    by_cases hi : i = j
    · simp [hi, hj]
    · simp [hi]

/-- The value at a key after every value of the map is changed. -/
theorem kget_map {α β : Type} (f : α → β) (m : KMap α) (k : Nat) : kget (m.map fun x => (x.1, f x.2)) k = (kget m k).map f := by
  induction m with
  | nil => rfl
  | cons x m ih =>
    rw [List.map_cons, kget, kget, ih]
    split <;> rfl

/-- An endpoint after the conversion: a periodic one of the port at its cost at the new speed. -/
def State.repriced (s : State) (p : PortNo) (v : Speed) (e : Ep) : Ep :=
  if e.kind == .periodic && s.epPort e == some p then { e with svcCost := svcCost v (s.epTier e) e.maxBlock e.inward } else e

theorem State.repriced_of_periodic {e : Ep} (hk : e.kind = .periodic) (hp : s.epPort e = some p) :
    (s.repriced p v e).svcCost = svcCost v (s.epTier e) e.maxBlock e.inward := by simp [State.repriced, hk, hp]

theorem State.repriced_of_elsewhere {e : Ep} (hp : s.epPort e ≠ some p) : s.repriced p v e = e := by simp [State.repriced, hp]

/-- No more than the cost is other. -/
theorem State.repriced_eq (e : Ep) : s.repriced p v e = { e with svcCost := (s.repriced p v e).svcCost } := by
  unfold State.repriced
  split <;> rfl

/-- The costs of the port's endpoints and the records of its devices at a new reckoning speed, and the port itself. -/
def State.reckonedAt (s : State) (p : PortNo) (v : Speed) : State :=
  State.modPort { s with
    eps := s.eps.map fun x => (x.1, s.repriced p v x.2)
    devs := s.devs.map fun x => (x.1, if x.2.port = p then { x.2 with speed := v } else x.2) } p fun x => { x with reckoned := v }

theorem State.convertPort_eq (s : State) (p : PortNo) (v : Speed) :
    s.convertPort p v = (s.each allInsts fun u i => u.convertInst p (s.port p).reckon v i).reckonedAt p v := rfl

/-- What the conversion of a port makes of instances, contexts and ports, and that it changes nothing else but device records. -/
theorem State.convertPort_spec (s : State) (p : PortNo) (v : Speed) : let t := s.convertPort p v
    (∀ i, t.inst i = (s.inst i).convertedAt p (s.port p).reckon v) ∧ (∀ k, t.ep k = (s.ep k).map (s.repriced p v)) ∧
      (t.port p).reckoned = v ∧ (∀ q, q ≠ p → t.port q = s.port q) ∧
      t = { s with ports := t.ports, insts := t.insts, eps := t.eps, devs := t.devs } := by
  obtain ⟨hinst, insts, heach⟩ := State.each_modInst (·.convertedAt p (s.port p).reckon v) allInsts (List.nodup_finRange 64) s
  simp only [State.convertPort_eq, State.convertInst_eq]
  rw [heach] at hinst ⊢
  refine ⟨fun i => (hinst i).trans (if_pos (List.mem_finRange i)), fun k => kget_map (s.repriced p v) s.eps k, ?_, fun q hq => ?_, rfl⟩
  · simp [State.reckonedAt]
  · rw [State.reckonedAt, State.modPort_port, if_neg hq]
    rfl

theorem execReservationConversion_of_converting (halive : s.alive = true) (hconv : (s.port p).converting = true) :
    exec (.reservationConversion p) s = .next (s.convertPort p (s.port p).speed).ended := by
  change execReservationConversion p s = _
  simp only [execReservationConversion, halive, hconv, Bool.and_self, if_true]
  rfl

/-- A state that differs from `s` in ports, instances, contexts, device records and reporting at most. -/
theorem State.bare_of_ports_insts_eps_devs {g u : State} (h : u.bare = g.bare)
    (hg : g = { s with ports := g.ports, insts := g.insts, eps := g.eps, devs := g.devs }) :
    u.bare = State.bare { s with ports := u.ports, insts := u.insts, eps := u.eps, devs := u.devs } := by
  have hports : u.ports = g.ports := (congrArg State.ports h : u.bare.ports = g.bare.ports)
  have heps : u.eps = g.eps := State.eps_of_bare h
  have hdevs : u.devs = g.devs := (congrArg State.devs h : u.bare.devs = g.bare.devs)
  have hinsts : u.insts.map Inst.bare = g.insts.map Inst.bare := (congrArg State.insts h : u.bare.insts = g.bare.insts)
  have hbare (t : State) : State.bare { s with ports := t.ports, insts := t.insts, eps := t.eps, devs := t.devs } =
    { s.bare with ports := t.ports, insts := t.insts.map Inst.bare, eps := t.eps, devs := t.devs } := rfl
  rw [hbare, hports, heps, hdevs, hinsts, ← hbare, ← hg]
  exact h

end Sys2Proof.Machine
end

section
/-! The conversion of reservations (O48). -/
namespace Sys2Proof.Machine

/-- Settles O48: the state answered is the converted one, but for what is reported. -/
theorem conversion : Obligations.Conversion := by
  intro s p halive hconv
  obtain ⟨hinst, hep, hreckoned, hports, hrest⟩ := s.convertPort_spec p (s.port p).speed
  have hbare := (s.convertPort p (s.port p).speed).bare_ended
  refine ⟨_, execReservationConversion_of_converting halive hconv, ?_⟩
  generalize (s.convertPort p (s.port p).speed).ended = t at hbare ⊢
  have hport (q : PortNo) : t.port q = (s.convertPort p (s.port p).speed).port q :=
    State.port_of_core (State.core_of_bare hbare) q
  have hinstBare (i : InstNo) : (t.inst i).bare = ((s.inst i).convertedAt p (s.port p).reckon (s.port p).speed).bare :=
    (State.inst_bare_of_bare hbare i).trans (congrArg Inst.bare (hinst i))
  have hunits (i : InstNo) : (t.inst i).units = ((s.inst i).convertedAt p (s.port p).reckon (s.port p).speed).units :=
    Inst.units_of_bare (hinstBare i)
  refine ⟨?_, fun q hq => ?_, fun i => ?_, fun i q hq => ?_, fun k e he => ⟨(s.repriced p (s.port p).speed e).svcCost, ?_,
    State.repriced_of_periodic, fun hp => congrArg Ep.svcCost (State.repriced_of_elsewhere hp)⟩, fun i => ?_,
    State.bare_of_ports_insts_eps_devs hbare hrest⟩
  · rw [hport, hreckoned]
  · rw [hport, hports q hq]
  · simp [hunits, Inst.convertedAt]
  · simp [hunits, Inst.convertedAt, hq]
  · rw [State.ep_of_bare hbare, hep, he, Option.map_some, ← State.repriced_eq]
  · rw [hunits, hinstBare]
    rfl

end Sys2Proof.Machine
end

section
/-!
SUPPORT. What few commands change: the queue, the two byte memories, and the bound of the snag log's buffer. Nearly every operation of the
model leaves all of it as it is. The sections below say so once for each operation, in the order of the model's files, as an equation
that `simp` uses; only the writes to a memory, the wipes, VDD_AON_LOSS and the snag log's flush need the weaker `Held.Keeps`.
-/
namespace Sys2Proof.Machine

/-- The part of a state that the invariant speaks of, with the queue. -/
structure Held where
  queue : List Instr
  hawk : List Host.Cell
  store : List Host.Cell
  /-- The snag log's buffer holds at most its 64 entries (R390). -/
  bounded : Bool

def State.held (s : State) : Held := ⟨s.pending, s.mem.hawk, s.mem.store, decide (s.snag.buffer.length ≤ 64)⟩

/-- What the state answered holds. -/
def Answer.held : Answer → Option Held
  | .next t => some t.held
  | _ => none

/-- What every state in a command's reply holds. -/
def Reply.All (P : Held → Prop) : Reply → Prop
  | .ends t _ _ => P t.held
  | .waits t => P t.held
  | .notYet => True

/-- What every state that an instruction leaves holds. -/
def Did.All (P : Held → Prop) : Did → Prop
  | .to t _ _ => P t.held
  | .bad t _ => P t.held
  | .left t => P t.held
  | .notYet => True

/-! The parentheses around `rfl` keep these out of `dsimp`: `State.held_each` needs a proof of its hypothesis. -/

@[simp] theorem State.held_mk (pending out freeIx nextId pw snag boot pl ports trowels insts eps devs deliveries commits tree chans
    disp cnt mem saveCount seqLast) :
    State.held ⟨pending, out, freeIx, nextId, pw, snag, boot, pl, ports, trowels, insts, eps, devs, deliveries, commits, tree, chans,
      disp, cnt, mem, saveCount, seqLast⟩ = ⟨pending, mem.hawk, mem.store, decide (snag.buffer.length ≤ 64)⟩ := (rfl)

@[simp] theorem State.held_eta (s : State) :
    Held.mk s.pending s.mem.hawk s.mem.store (decide (s.snag.buffer.length ≤ 64)) = s.held := (rfl)

@[simp] theorem Answer.held_next (t : State) : Answer.held (.next t) = some t.held := (rfl)

@[simp] theorem Reply.all_ends (P : Held → Prop) (t : State) (st : Status) (r : Nat) : (Reply.ends t st r).All P ↔ P t.held := .rfl
@[simp] theorem Reply.all_waits (P : Held → Prop) (t : State) : (Reply.waits t).All P ↔ P t.held := .rfl
@[simp] theorem Reply.all_notYet (P : Held → Prop) : Reply.notYet.All P := trivial

@[simp] theorem Did.all_to (P : Held → Prop) (t : State) (pc : Nat) (taken : Bool) : (Did.to t pc taken).All P ↔ P t.held := .rfl
@[simp] theorem Did.all_bad (P : Held → Prop) (t : State) (code : Nat) : (Did.bad t code).All P ↔ P t.held := .rfl
@[simp] theorem Did.all_left (P : Held → Prop) (t : State) : (Did.left t).All P ↔ P t.held := .rfl
@[simp] theorem Did.all_notYet (P : Held → Prop) : Did.notYet.All P := trivial

/-- Reporting is none of it. -/
theorem State.held_of_bare {s t : State} (h : t.bare = s.bare) : t.held = s.held :=
  (congrArg State.held h : t.bare.held = s.bare.held)

@[simp] theorem Answer.held_done (t : State) : Answer.held (done t) = some t.held := by
  rw [done_eq_ended, Answer.held_next, State.held_of_bare t.bare_ended]

section Branches

variable {c : Prop} [Decidable c]

@[simp] theorem State.held_ite (t u : State) : (if c then t else u).held = if c then t.held else u.held := apply_ite State.held c t u

@[simp] theorem Answer.held_ite (t u : Answer) : Answer.held (if c then t else u) = if c then Answer.held t else Answer.held u :=
  apply_ite Answer.held c t u

theorem State.held_of_ite {t u : State} {v : Held} (ht : t.held = v) (hu : u.held = v) : (if c then t else u).held = v := by
  split
  · exact ht
  · exact hu

end Branches

@[simp] theorem State.held_each {α : Type} {f : State → α → State} (h : ∀ t x, (f t x).held = t.held) (l : List α) (s : State) :
    (s.each l f).held = s.held :=
  State.each_keeps State.held h l s

theorem State.held_foldl {α : Type} {f : State → α → State} (h : ∀ t x, (f t x).held = t.held) (l : List α) (s : State) :
    (l.foldl f s).held = s.held :=
  State.held_each h l s

end Sys2Proof.Machine
end

section
/-!
SUPPORT. What is held stays as it is: the operations, counting, events, start-up and gates.
-/
namespace Sys2Proof.Machine

variable (s : State)

/-! ### Ops -/

@[simp] theorem State.held_setPort (p : PortNo) (x : Port) : (s.setPort p x).held = s.held := by simp [State.setPort]
@[simp] theorem State.held_modPort (p : PortNo) (f : Port → Port) : (s.modPort p f).held = s.held := by simp [State.modPort]
@[simp] theorem State.held_setTrowel (k : TrowelNo) (x : Trowel) : (s.setTrowel k x).held = s.held := by simp [State.setTrowel]

@[simp] theorem State.held_modTrowel (k : TrowelNo) (f : Trowel → Trowel) : (s.modTrowel k f).held = s.held := by
  simp [State.modTrowel]

@[simp] theorem State.held_setInst (i : InstNo) (x : Inst) : (s.setInst i x).held = s.held := by simp [State.setInst]
@[simp] theorem State.held_modInst (i : InstNo) (f : Inst → Inst) : (s.modInst i f).held = s.held := by simp [State.modInst]
@[simp] theorem State.held_setChan (c : ChanNo) (x : Chan) : (s.setChan c x).held = s.held := by simp [State.setChan]
@[simp] theorem State.held_modChan (c : ChanNo) (f : Chan → Chan) : (s.modChan c f).held = s.held := by simp [State.modChan]

@[simp] theorem State.held_setRing (i : InstNo) (e : RingNo) (x : EvtRing) : (s.setRing i e x).held = s.held := by
  simp [State.setRing]

@[simp] theorem State.held_modRing (i : InstNo) (e : RingNo) (f : EvtRing → EvtRing) : (s.modRing i e f).held = s.held := by
  simp [State.modRing]

@[simp] theorem State.held_setQueue (q : QueueNo) (x : Queue) : (s.setQueue q x).held = s.held := by simp [State.setQueue]
@[simp] theorem State.held_modQueue (q : QueueNo) (f : Queue → Queue) : (s.modQueue q f).held = s.held := by simp [State.modQueue]
@[simp] theorem State.held_setGroup (g : GroupNo) (x : Group) : (s.setGroup g x).held = s.held := by simp [State.setGroup]
@[simp] theorem State.held_modGroup (g : GroupNo) (f : Group → Group) : (s.modGroup g f).held = s.held := by simp [State.modGroup]
@[simp] theorem State.held_setEp (k : Nat) (x : Ep) : (s.setEp k x).held = s.held := by simp [State.setEp]
@[simp] theorem State.held_modEp (k : Nat) (f : Ep → Ep) : (s.modEp k f).held = s.held := by simp [State.modEp]
@[simp] theorem State.held_setDev (z : Nat) (x : DevRec) : (s.setDev z x).held = s.held := by simp [State.setDev]
@[simp] theorem State.held_modDev (z : Nat) (f : DevRec → DevRec) : (s.modDev z f).held = s.held := by simp [State.modDev]
@[simp] theorem State.held_modPw (f : Power → Power) : (s.modPw f).held = s.held := by simp [State.modPw]
@[simp] theorem State.held_modPl (f : Planner → Planner) : (s.modPl f).held = s.held := by simp [State.modPl]

theorem State.held_modMem {f : Mems → Mems} (hhawk : (f s.mem).hawk = s.mem.hawk) (hstore : (f s.mem).store = s.mem.store) :
    (s.modMem f).held = s.held := by
  simp [State.modMem, hhawk, hstore]

@[simp] theorem State.held_modTree (f : Tree → Tree) : (s.modTree f).held = s.held := by simp [State.modTree]
@[simp] theorem State.held_modDisp (f : Disp → Disp) : (s.modDisp f).held = s.held := by simp [State.modDisp]
@[simp] theorem State.held_modCnt (f : Cnt → Cnt) : (s.modCnt f).held = s.held := by simp [State.modCnt]
@[simp] theorem State.held_modBoot (f : Boot → Boot) : (s.modBoot f).held = s.held := by simp [State.modBoot]
@[simp] theorem State.held_emit (o : Out) : (s.emit o).held = s.held := by simp [State.emit]
@[simp] theorem State.held_takeFree : s.takeFree.held = s.held := by simp [State.takeFree]
@[simp] theorem State.held_takeFrees (k : Nat) : (s.takeFrees k).held = s.held := by simp [State.takeFrees]
@[simp] theorem State.held_takeId : s.takeId.held = s.held := by simp [State.takeId]
@[simp] theorem State.held_written (i : InstNo) : (s.written i).held = s.held := by simp [State.written]

/-- The buffer takes a new entry only while it holds fewer than 64 (R390, R392). -/
theorem SnagLog.add_bounded (l : SnagLog) (e : Snag) (within : Bool) :
    decide ((l.add e within).buffer.length ≤ 64) = decide (l.buffer.length ≤ 64) := by
  obtain ⟨buffer, flash, next, index⟩ := l
  rcases buffer with _ | ⟨x, b⟩
  · cases flash with
    | nil => rfl
    | cons x f =>
      simp only [SnagLog.add]
      split <;> rfl
  · simp only [SnagLog.add]
    split
    · rfl
    · split
      · rfl
      next h => simp at h ⊢; omega

@[simp] theorem State.held_record (code : BitVec 8) (detail : List Byte) : (s.record code detail).held = s.held := by
  simp [State.record, SnagLog.add_bounded]

/-! ### Flags -/

@[simp] theorem State.held_countDev (o : Occ) : (s.countDev o).held = s.held := by simp [State.countDev]

@[simp] theorem State.held_countInst (o : Occ) : (s.countInst o).held = s.held := by
  unfold State.countInst
  split <;> simp

@[simp] theorem State.held_count (o : Occ) : (s.count o).held = s.held := by simp [State.count]

@[simp] theorem State.held_countHawk (i : InstNo) (off len : Nat) (trowel chan : Option Nat) :
    (s.countHawk i off len trowel chan).held = s.held := by
  simp [State.countHawk]

@[simp] theorem State.held_noteEccBy (i : Option InstNo) (x : Ecc) (trowel chan : Option Nat) :
    (s.noteEccBy i x trowel chan).held = s.held := by
  unfold State.noteEccBy
  (repeat' split) <;> simp [State.held_modMem]

@[simp] theorem State.held_noteEcc (i : Option InstNo) (x : Ecc) : (s.noteEcc i x).held = s.held := by simp [State.noteEcc]

@[simp] theorem State.held_lineBytes (p : PortNo) (k : TrowelNo) (i : Option InstNo) (len : Nat) (inward : Bool) :
    (s.lineBytes p k i len inward).held = s.held := by
  simp [State.lineBytes]

/-! ### Events -/

@[simp] theorem State.held_logDirty (i : InstNo) (addr len : Nat) : (s.logDirty i addr len).held = s.held :=
  State.held_of_bare (s.bare_logDirty i addr len)

@[simp] theorem State.held_hostWriteBy (i : InstNo) (addr : Nat) (bytes : List Byte) (trowel chan : Option Nat) :
    (s.hostWriteBy i addr bytes trowel chan).held = s.held := by
  simp [State.hostWriteBy]

@[simp] theorem State.held_hostWrite (i : InstNo) (addr : Nat) (bytes : List Byte) : (s.hostWrite i addr bytes).held = s.held := by
  simp [State.hostWrite]

@[simp] theorem State.held_hostRead (i : InstNo) (addr len : Nat) (trowel chan : Option Nat) :
    (s.hostRead i addr len trowel chan).held = s.held := by
  simp [State.hostRead]

@[simp] theorem State.held_putData (i : InstNo) (addr : Nat) (bytes : List Byte) (trowel : Option Nat) :
    (s.putData i addr bytes trowel).held = s.held := by
  simp [State.putData]

@[simp] theorem State.held_sendMsg (i : InstNo) (v : Nat) : (s.sendMsg i v).held = s.held := by
  unfold State.sendMsg
  split <;> simp

@[simp] theorem State.held_sendPending (i : InstNo) : (s.sendPending i).held = s.held := by simp [State.sendPending]
@[simp] theorem State.held_writeMirror (i : InstNo) (e : RingNo) : (s.writeMirror i e).held = s.held := by simp [State.writeMirror]
@[simp] theorem State.held_fireRing (i : InstNo) (e : RingNo) : (s.fireRing i e).held = s.held := by simp [State.fireRing]

@[simp] theorem State.held_storeEvent (i : InstNo) (e : RingNo) (ev : Event) (own : Bool) :
    (s.storeEvent i e ev own).held = s.held := by
  simp [State.storeEvent]

@[simp] theorem State.held_putEvent (i : InstNo) (e : RingNo) (ev : Event) (irqNow : Bool) (vec : Option Nat) :
    (s.putEvent i e ev irqNow vec).held = s.held := by
  unfold State.putEvent
  split <;> simp

@[simp] theorem State.held_drainRing (n : Nat) (i : InstNo) (e : RingNo) : (drainRing n s i e).held = s.held :=
  State.held_of_bare (bare_drainRing n s i e)

@[simp] theorem State.held_drain (i : InstNo) (e : RingNo) : (s.drain i e).held = s.held := by simp [State.drain]
@[simp] theorem State.held_settle (i : InstNo) (e : RingNo) : (s.settle i e).held = s.held := by simp [State.settle]

@[simp] theorem State.held_unsolicited (i : InstNo) (e : RingNo) (src : UnsolSrc) (ev : Event) :
    (s.unsolicited i e src ev).held = s.held := by
  simp [State.unsolicited]

@[simp] theorem State.held_releaseNotices (i : InstNo) : (s.releaseNotices i).held = s.held := by simp [State.releaseNotices]
@[simp] theorem State.held_postPort (p : PortNo) : (s.postPort p).held = s.held := by simp [State.postPort]
@[simp] theorem State.held_reserve (i : InstNo) (e : RingNo) : (s.reserve i e).held = s.held := by simp [State.reserve]
@[simp] theorem State.held_unreserve (i : InstNo) (e : RingNo) : (s.unreserve i e).held = s.held := by simp [State.unreserve]
@[simp] theorem State.held_postWait (i : InstNo) (w : WaitEvt) : (s.postWait i w).held = s.held := by simp [State.postWait]

@[simp] theorem State.held_postVec (i : InstNo) (e : RingNo) (ev : Event) (irqNow : Bool) (vec : Option Nat) :
    (s.postVec i e ev irqNow vec).held = s.held := by
  simp [State.postVec]

@[simp] theorem State.held_post (i : InstNo) (e : RingNo) (ev : Event) (irqNow : Bool) : (s.post i e ev irqNow).held = s.held := by
  simp [State.post]

@[simp] theorem State.held_sendInstCtr (i : InstNo) : (s.sendInstCtr i).held = s.held := by simp [State.sendInstCtr]
@[simp] theorem State.held_sendDevCtr : s.sendDevCtr.held = s.held := by simp [State.sendDevCtr]

/-! ### Prime -/

@[simp] theorem State.held_allPowerLow : s.allPowerLow.held = s.held := by simp [State.allPowerLow]

@[simp] theorem State.held_toPrime (cause : BitVec 4) : (s.toPrime cause).held = s.held := by
  have h := s.held_allPowerLow
  simp only [State.held, Held.mk.injEq] at h
  obtain ⟨hq, hh, hs, hb⟩ := h
  simp only [State.toPrime, State.held, SnagLog.restart, List.length_map, hq, hh, hs, hb]

@[simp] theorem State.held_latch : s.latch.held = s.held := by
  unfold State.latch
  dsimp only
  (repeat' split) <;> simp

@[simp] theorem State.held_tryStart : s.tryStart.held = s.held := by
  unfold State.tryStart
  (repeat' split) <;> simp

@[simp] theorem State.held_resetPrime (cause : BitVec 4) : (s.resetPrime cause).held = s.held := by simp [State.resetPrime]
@[simp] theorem held_execVddAonRise : Answer.held (execVddAonRise s) = some s.held := by simp [execVddAonRise]

@[simp] theorem held_execPerstNAssert : Answer.held (execPerstNAssert s) = some s.held := by
  unfold execPerstNAssert
  dsimp only
  (repeat' split) <;> simp

@[simp] theorem held_execPerstNRelease : Answer.held (execPerstNRelease s) = some s.held := by simp [execPerstNRelease]
@[simp] theorem held_execMainSuppliesValid : Answer.held (execMainSuppliesValid s) = some s.held := by simp [execMainSuppliesValid]
@[simp] theorem held_execPllLock : Answer.held (execPllLock s) = some s.held := by simp [execPllLock]
@[simp] theorem held_execPcieLinkUp : Answer.held (execPcieLinkUp s) = some s.held := by simp [execPcieLinkUp]

@[simp] theorem held_execSequencerWatchdog : Answer.held (execSequencerWatchdog s) = some s.held := by
  unfold execSequencerWatchdog
  split <;> simp

@[simp] theorem State.held_lathReplay (block : BitVec 8) : (s.lathReplay block).held = s.held := by simp [State.lathReplay]

@[simp] theorem held_execLathParityError (block : BitVec 8) (replays : Nat) (recovered : Bool) :
    Answer.held (execLathParityError block replays recovered s) = some s.held := by
  unfold execLathParityError
  split <;> simp

@[simp] theorem State.held_writeDir (active : Bool) (trial : Option Bool) : (s.writeDir active trial).held = s.held := by
  simp [State.writeDir]

@[simp] theorem State.held_failPrime : s.failPrime.held = s.held := by simp [State.failPrime]

@[simp] theorem State.held_refuseSlot (reason : BitVec 8) : (s.refuseSlot reason).held = s.held := by
  unfold State.refuseSlot
  (repeat' split) <;> simp

@[simp] theorem held_execFirmwareSlotReadDone (ok : Bool) : Answer.held (execFirmwareSlotReadDone ok s) = some s.held := by
  simp [execFirmwareSlotReadDone]

@[simp] theorem held_execSignatureCheckDone (image : List Byte) : Answer.held (execSignatureCheckDone image s) = some s.held := by
  unfold execSignatureCheckDone
  (repeat' split) <;> simp

@[simp] theorem State.held_enterRetain : s.enterRetain.held = s.held := by simp [State.enterRetain]

@[simp] theorem held_execRetainWake (src : Option PortNo) : Answer.held (execRetainWake src s) = some s.held := by
  unfold execRetainWake
  split <;> simp

@[simp] theorem held_execSngIndexWrite (w : Word) : Answer.held (execSngIndexWrite w s) = some s.held := by simp [execSngIndexWrite]
@[simp] theorem held_execSmbusHealth : Answer.held (execSmbusHealth s) = some s.held := by simp [execSmbusHealth]

@[simp] theorem State.held_smbusRead (reply : List Byte) : (s.smbusRead reply).held = s.held := by
  unfold State.smbusRead
  split <;> simp

@[simp] theorem held_execSmbusSnagRange : Answer.held (execSmbusSnagRange s) = some s.held := by simp [execSmbusSnagRange]

@[simp] theorem held_execSmbusSnagEntry (sseq : BitVec 32) : Answer.held (execSmbusSnagEntry sseq s) = some s.held := by
  simp [execSmbusSnagEntry]

@[simp] theorem held_execSmbusReqResult : Answer.held (execSmbusReqResult s) = some s.held := by simp [execSmbusReqResult]

@[simp] theorem State.held_smbusRefuse (code port result : BitVec 8) : (s.smbusRefuse code port result).held = s.held := by
  simp [State.smbusRefuse]

@[simp] theorem held_execSmbusReset (data : BitVec 8) : Answer.held (execSmbusReset data s) = some s.held := by
  unfold execSmbusReset
  split <;> simp

@[simp] theorem held_execSmbusClockLowTimeout : Answer.held (execSmbusClockLowTimeout s) = some s.held := by
  simp [execSmbusClockLowTimeout]

@[simp] theorem held_execTapInstruction (ins : TapInstr) : Answer.held (execTapInstruction ins s) = some s.held := by
  simp [execTapInstruction]

@[simp] theorem held_execTapReset : Answer.held (execTapReset s) = some s.held := by simp [execTapReset]

/-! ### Gates -/

@[simp] theorem State.held_traceWrite (r : TraceRec) : (s.traceWrite r).held = s.held := by simp [State.traceWrite]
@[simp] theorem State.held_traceLose : s.traceLose.held = s.held := by simp [State.traceLose]
@[simp] theorem State.held_traceLost : s.traceLost.held = s.held := by simp [State.traceLost]
@[simp] theorem State.held_trace (r : TraceRec) : (s.trace r).held = s.held := by simp [State.trace]
@[simp] theorem State.held_reserveItem (x : Item) : (s.reserveItem x).held = s.held := by simp [State.reserveItem]
@[simp] theorem State.held_dropItem (k : Nat) : (s.dropItem k).held = s.held := by simp [State.dropItem]
@[simp] theorem State.held_pushItem (k : Nat) (x : Item) : (s.pushItem k x).held = s.held := by simp [State.pushItem]
@[simp] theorem State.held_parkItem (k : Nat) (x : Item) : (s.parkItem k x).held = s.held := by simp [State.parkItem]

@[simp] theorem State.held_itemReady (k : Nat) : (s.itemReady k).held = s.held := by
  unfold State.itemReady
  split <;> simp

@[simp] theorem State.held_unpark (x : Item) : (s.unpark x).held = s.held := by
  unfold State.unpark
  dsimp only
  (repeat' split) <;> simp

@[simp] theorem State.held_withdrawItem (k : Nat) : (s.withdrawItem k).held = s.held := by
  unfold State.withdrawItem
  split <;> simp

@[simp] theorem State.held_gateZero (g : Nat) (x : Gate) : (s.gateZero g x).held = s.held := by
  unfold State.gateZero
  split <;> simp

@[simp] theorem State.held_gateDec (i : InstNo) (g : Nat) (chan : Option Nat) : (s.gateDec i g chan).held = s.held := by
  unfold State.gateDec
  (repeat' split) <;> simp

@[simp] theorem State.held_passHead (i : InstNo) (h : HeadOf) : (s.passHead i h).held = s.held := by
  unfold State.passHead
  dsimp only
  (repeat' split) <;> simp

@[simp] theorem State.held_sendQueued (which : InstNo × Nat → Bool) : (s.sendQueued which).held = s.held := by
  simp [State.sendQueued]

@[simp] theorem State.held_after (i : InstNo) (w : WaitEvt) : (s.after i w).held = s.held := by
  unfold State.after
  (repeat' split) <;> simp

@[simp] theorem State.held_hostBack (i : InstNo) : (s.hostBack i).held = s.held := by simp [State.hostBack]

end Sys2Proof.Machine
end

section
/-!
SUPPORT. What is held stays as it is: schedules, transfers, rounds, transactions and halts.
-/
namespace Sys2Proof.Machine

variable (s : State)

/-! ### Sched -/

@[simp] theorem State.held_touch (k : Nat) : (s.touch k).held = s.held := by simp [State.touch, State.held_modMem]

@[simp] theorem State.held_touchOf (x1 : Holder) : (s.touchOf x1).held = s.held := by
  unfold State.touchOf
  split <;> simp

@[simp] theorem held_withContext (h : Holder) {f : State → Answer} (hf : ∀ t, Answer.held (f t) = some t.held) :
    Answer.held (s.withContext h f) = some s.held := by
  simp [State.withContext, hf]

/-! ### Transfers -/

@[simp] theorem State.held_completeAt (k : Nat) (st : Status) (stamp : Nat) : (s.completeAt k st stamp).held = s.held := by
  unfold State.completeAt
  (repeat' split) <;> simp

@[simp] theorem State.held_complete (k : Nat) (st : Status) : (s.complete k st).held = s.held := by simp [State.complete]

@[simp] theorem State.held_endCommit (n : Nat) (c : Commit) (st : Status) : (s.endCommit n c st).held = s.held := by
  simp [State.endCommit]

@[simp] theorem State.held_putCommit (n : Nat) (c : Commit) : (s.putCommit n c).held = s.held := by simp [State.putCommit]

@[simp] theorem State.held_endSlot (k : Nat) (st : Status) : (s.endSlot k st).held = s.held := by
  unfold State.endSlot
  split <;> simp

@[simp] theorem State.held_markSent (k : Nat) : (s.markSent k).held = s.held := by
  unfold State.markSent
  split <;> simp

@[simp] theorem State.held_missCommit (n : Nat) (c : Commit) : (s.missCommit n c).held = s.held := by simp [State.missCommit]

@[simp] theorem State.held_addDelivery (k off : Nat) (data : List Byte) (fin : Option Status) (txn : Option (TrowelNo × Nat)) :
    (s.addDelivery k off data fin txn).held = s.held := by
  simp [State.addDelivery]

@[simp] theorem State.held_freeSlot (t : Option (TrowelNo × Nat)) : (s.freeSlot t).held = s.held := by
  unfold State.freeSlot
  split <;> simp

@[simp] theorem State.held_writeDelivery (d : Delivery) : (s.writeDelivery d).held = s.held := by
  unfold State.writeDelivery
  split <;> simp

@[simp] theorem State.held_deliver (d : Delivery) : (s.deliver d).held = s.held := by
  unfold State.deliver
  split <;> simp

@[simp] theorem State.held_dropTxns (h : Holder) : (s.dropTxns h).held = s.held := by simp [State.dropTxns]

@[simp] theorem State.held_dropRound (h : Holder) : (s.dropRound h).held = s.held := by
  refine State.held_each (fun t p => ?_) _ s
  (repeat' split) <;> simp

@[simp] theorem State.held_stopEp (k : Nat) (st : Status) : (s.stopEp k st).held = s.held := by
  unfold State.stopEp
  dsimp only
  split <;> simp [State.held_foldl]

@[simp] theorem State.held_cutTxns (h : Holder) : (s.cutTxns h).held = s.held := by simp [State.cutTxns]

@[simp] theorem State.held_completeAfter (k : Nat) (st : Status) : (s.completeAfter k st).held = s.held := by
  simp [State.completeAfter]

@[simp] theorem State.held_abortEntry (k : Nat) : (s.abortEntry k).held = s.held := by simp [State.abortEntry]
@[simp] theorem State.held_discardEp (k : Nat) : (s.discardEp k).held = s.held := by simp [State.discardEp]

@[simp] theorem State.held_haltEp (k : Nat) (st : Status) : (s.haltEp k st).held = s.held := by
  unfold State.haltEp
  split <;> simp

@[simp] theorem State.held_resetDevice (z : Nat) : (s.resetDevice z).held = s.held := by
  unfold State.resetDevice
  split <;> simp

/-! ### Rounds -/

@[simp] theorem State.held_modOwn (id : Nat) (f : OwnXfer → OwnXfer) : (s.modOwn id f).held = s.held := by simp [State.modOwn]
@[simp] theorem State.held_send (p : PortNo) (bytes : List Byte) : (s.send p bytes).held = s.held := by simp [State.send]

@[simp] theorem State.held_sendData (p : PortNo) (k : TrowelNo) (i : Option InstNo) (seq : BitVec 5) (last eot : Bool)
    (pay : List Byte) : (s.sendData p k i seq last eot pay).held = s.held := by
  simp [State.sendData]

@[simp] theorem State.held_noteMiss (p : PortNo) (h : Holder) : (s.noteMiss p h).held = s.held := by
  unfold State.noteMiss
  dsimp only
  (repeat' split) <;> simp

@[simp] theorem State.held_missed (p : PortNo) (h : Holder) : (s.missed p h).held = s.held := by
  unfold State.missed
  (repeat' split) <;> simp

@[simp] theorem State.held_countEnd (p : PortNo) (k : TrowelNo) (i : Option InstNo) (o : RoundEnd) :
    (s.countEnd p k i o).held = s.held := by
  unfold State.countEnd
  split <;> simp

@[simp] theorem State.held_epOutcome (x : Nat) (p : PortNo) (k : TrowelNo) (o : RoundEnd) :
    (s.epOutcome x p k o).held = s.held := by
  unfold State.epOutcome
  (repeat' split) <;> simp

@[simp] theorem State.held_noteOverrun (p : PortNo) : (s.noteOverrun p).held = s.held := by simp [State.noteOverrun]
@[simp] theorem State.held_overrunAtEnd (p : PortNo) : (s.overrunAtEnd p).held = s.held := by simp [State.overrunAtEnd]

@[simp] theorem State.held_leaveLine (p : PortNo) (r : Round) (now : Nat) : (s.leaveLine p r now).held = s.held := by
  unfold State.leaveLine
  dsimp only
  (repeat' split) <;> simp

@[simp] theorem State.held_endPerIn (p : PortNo) (r : Round) (o : RoundEnd) (now : Nat) : (s.endPerIn p r o now).held = s.held := by
  unfold State.endPerIn
  split <;> simp

@[simp] theorem State.held_endPerOut (p : PortNo) (r : Round) (o : RoundEnd) (now : Nat) :
    (s.endPerOut p r o now).held = s.held := by
  unfold State.endPerOut
  (repeat' split) <;> simp

@[simp] theorem State.held_modTxn (k : TrowelNo) (id : Nat) (f : Txn → Txn) : (s.modTxn k id f).held = s.held := by
  simp [State.modTxn]

@[simp] theorem State.held_unpick (x1 : Holder) : (s.unpick x1).held = s.held := by
  unfold State.unpick
  split <;> simp

@[simp] theorem State.held_cutStaged (h : Holder) : (s.cutStaged h).held = s.held := by simp [State.cutStaged]
@[simp] theorem State.held_endTxn (k : TrowelNo) (id : Nat) (h : Holder) : (s.endTxn k id h).held = s.held := by simp [State.endTxn]

@[simp] theorem State.held_leaveTxn (x : Nat) (k : TrowelNo) (id : Nat) (d : Option Nat) : (s.leaveTxn x k id d).held = s.held := by
  unfold State.leaveTxn
  split <;> simp

@[simp] theorem State.held_endEpRound (x : Nat) (p : PortNo) (r : Round) (id : Nat) (o : RoundEnd) (acked : Nat) :
    (s.endEpRound x p r id o acked).held = s.held := by
  unfold State.endEpRound
  dsimp only
  (repeat' split) <;> simp

@[simp] theorem State.held_cutEp (k : Nat) : (s.cutEp k).held = s.held := by
  unfold State.cutEp
  dsimp only
  split
  · simp
  · split <;> split <;> simp

@[simp] theorem State.held_endOwnRound (q : Nat) (p : PortNo) (r : Round) (id : Nat) (o : RoundEnd) (acked : Nat) :
    (s.endOwnRound q p r id o acked).held = s.held := by
  unfold State.endOwnRound
  split <;> simp

@[simp] theorem State.held_endWork (p : PortNo) (r : Round) (o : RoundEnd) (acked now : Nat) :
    (s.endWork p r o acked now).held = s.held := by
  unfold State.endWork
  split <;> simp

@[simp] theorem State.held_endRound (p : PortNo) (r : Round) (o : RoundEnd) (acked now : Nat) :
    (s.endRound p r o acked now).held = s.held := by
  unfold State.endRound
  split <;> simp

@[simp] theorem State.held_watchGap (p : PortNo) (r : Round) (before : Nat × Nat) (made now : Nat) :
    (s.watchGap p r before made now).held = s.held := by
  simp [State.watchGap]

@[simp] theorem State.held_closeBurst (p : PortNo) (r : Round) (ended : Bool) (now : Nat) :
    (s.closeBurst p r ended now).held = s.held := by
  simp [State.closeBurst]

@[simp] theorem State.held_ackPacketIn (p : PortNo) (r : Round) (pkt : Received) (now : Nat) :
    (s.ackPacketIn p r pkt now).held = s.held := by
  unfold State.ackPacketIn
  split <;> simp

@[simp] theorem State.held_strayPkt (p : PortNo) : (s.strayPkt p).held = s.held := by simp [State.strayPkt]
@[simp] theorem State.held_endWire (h : Holder) : (s.endWire h).held = s.held := by simp [State.endWire]

@[simp] theorem State.held_cutHere (p : PortNo) : (s.cutHere p).held = s.held := by
  unfold State.cutHere
  (repeat' split) <;> simp

@[simp] theorem held_execStrayPacket (p : PortNo) : Answer.held (execStrayPacket p s) = some s.held := by simp [execStrayPacket]

@[simp] theorem held_execTurnaroundTimeout (p : PortNo) (now : Nat) :
    Answer.held (execTurnaroundTimeout p now s) = some s.held := by
  unfold execTurnaroundTimeout
  split <;> simp

@[simp] theorem held_execBabbleDetected (p : PortNo) (now : Nat) : Answer.held (execBabbleDetected p now s) = some s.held := by
  unfold execBabbleDetected
  dsimp only
  (repeat' split) <;> simp

@[simp] theorem State.held_trimSkim (p : PortNo) : (s.trimSkim p).held = s.held := by simp [State.trimSkim]
@[simp] theorem State.held_popSkim (p : PortNo) : (s.popSkim p).held = s.held := by simp [State.popSkim]

@[simp] theorem State.held_given (p : PortNo) (h : Holder) (w : Wire) : (s.given p h w).held = s.held := by
  unfold State.given
  split <;> simp

@[simp] theorem State.held_beginRound (p : PortNo) (kind : RoundKind) (h : Holder) (k : TrowelNo) (txn : Option Nat)
    (now n : Nat) (seq : BitVec 5) (sent : Nat) (src : PayloadSrc) :
    (s.beginRound p kind h k txn now n seq sent src).held = s.held := by
  simp [State.beginRound]

@[simp] theorem held_execPeriodicInRound (p : PortNo) (now : Nat) : Answer.held (execPeriodicInRound p now s) = some s.held := by
  unfold execPeriodicInRound
  dsimp only
  (repeat' split) <;> simp

@[simp] theorem held_execPeriodicOutRound (p : PortNo) (now : Nat) (ecc : Ecc) :
    Answer.held (execPeriodicOutRound p now ecc s) = some s.held := by
  unfold execPeriodicOutRound
  dsimp only
  split
  · rfl
  · split
    · split
      · split
        · simp
        · rw [held_withContext _ _ fun t => ?_]
          · simp
          · (repeat' split) <;> simp
      · simp
    · simp

/-! ### Bulk -/

@[simp] theorem State.held_pick (p : PortNo) (r : Ready) (n : Nat) (arb : Bool) : (s.pick p r n arb).held = s.held := by
  unfold State.pick
  split <;> simp

@[simp] theorem State.held_zeroIdle (p : PortNo) : (s.zeroIdle p).held = s.held := by simp [State.zeroIdle]

@[simp] theorem State.held_chargeTurns (p : PortNo) (ts : List Turn) (best : Turn) : (s.chargeTurns p ts best).held = s.held := by
  refine State.held_each (fun t i => ?_) _ s
  split <;> simp

@[simp] theorem State.held_arbitrate (p : PortNo) (rs : List Ready) (t0 : Nat) : (s.arbitrate p rs t0).held = s.held := by
  unfold State.arbitrate
  dsimp only
  split
  · simp
  · split <;> simp

@[simp] theorem held_execBulkPick (p : PortNo) (now : Nat) : Answer.held (execBulkPick p now s) = some s.held := by
  unfold execBulkPick
  dsimp only
  (repeat' split) <;> simp

@[simp] theorem State.held_stage (k : TrowelNo) (t : Txn) : (s.stage k t).held = s.held := by
  unfold State.stage
  (repeat' split) <;> simp

@[simp] theorem State.held_takeHead (k : TrowelNo) (p : PortNo) (levelled : Bool) : (s.takeHead k p levelled).held = s.held := by
  unfold State.takeHead
  split <;> simp

@[simp] theorem held_execTrowelTakeWork (k : TrowelNo) : Answer.held (execTrowelTakeWork k s) = some s.held := by
  unfold execTrowelTakeWork
  (repeat' split) <;> simp

@[simp] theorem State.held_startIn (p : PortNo) (k : TrowelNo) (t : Txn) (w : Wire) (now : Nat) :
    (s.startIn p k t w now).held = s.held := by
  simp [State.startIn]

@[simp] theorem State.held_readBlock (t : Txn) (k : TrowelNo) (j len : Nat) : (s.readBlock t k j len).held = s.held := by
  unfold State.readBlock
  (repeat' split) <;> simp

@[simp] theorem State.held_sendBlocks (p : PortNo) (k : TrowelNo) (t : Txn) (w : Wire) (m : Nat) :
    (s.sendBlocks p k t w m).held = s.held := by
  simp [State.sendBlocks]

@[simp] theorem State.held_chargeSegment (p : PortNo) (t : Txn) (len : Nat) : (s.chargeSegment p t len).held = s.held := by
  simp [State.chargeSegment]

@[simp] theorem State.held_startOut (p : PortNo) (k : TrowelNo) (t : Txn) (w : Wire) (now : Nat) :
    (s.startOut p k t w now).held = s.held := by
  simp [State.startOut]

@[simp] theorem held_execBulkInRound (p : PortNo) (now : Nat) : Answer.held (execBulkInRound p now s) = some s.held := by
  unfold execBulkInRound
  split <;> simp

@[simp] theorem held_execBulkOutBurst (p : PortNo) (now : Nat) : Answer.held (execBulkOutBurst p now s) = some s.held := by
  unfold execBulkOutBurst
  split <;> simp

@[simp] theorem held_execOutSegmentContinue (p : PortNo) (now : Nat) :
    Answer.held (execOutSegmentContinue p now s) = some s.held := by
  unfold execOutSegmentContinue
  split <;> simp

@[simp] theorem State.held_setupSeq (h : Holder) : (s.setupSeq h).held = s.held := by
  unfold State.setupSeq
  split <;> simp

@[simp] theorem held_execControlSetupStage (p : PortNo) (now : Nat) :
    Answer.held (execControlSetupStage p now s) = some s.held := by
  unfold execControlSetupStage
  split <;> simp

@[simp] theorem held_execControlDataStage (p : PortNo) (now : Nat) : Answer.held (execControlDataStage p now s) = some s.held := by
  unfold execControlDataStage
  split <;> simp

@[simp] theorem held_execControlStatusStage (p : PortNo) (now : Nat) :
    Answer.held (execControlStatusStage p now s) = some s.held := by
  unfold execControlStatusStage
  split <;> simp

@[simp] theorem held_execSilenceBackoffExpiry (who : Holder) : Answer.held (execSilenceBackoffExpiry who s) = some s.held := by
  unfold execSilenceBackoffExpiry
  split <;> simp

@[simp] theorem held_execTransactionDeliveryDone (d : Nat) : Answer.held (execTransactionDeliveryDone d s) = some s.held := by
  unfold execTransactionDeliveryDone
  (repeat' split) <;> simp

@[simp] theorem State.held_returnTxns (k : TrowelNo) (which : Txn → Bool) : (s.returnTxns k which).held = s.held := by
  simp [State.returnTxns]

@[simp] theorem State.held_drainTrowel (k : TrowelNo) : (s.drainTrowel k).held = s.held := by simp [State.drainTrowel]
@[simp] theorem State.held_gateIdle : s.gateIdle.held = s.held := by simp [State.gateIdle]

@[simp] theorem State.held_oosRequest (k : TrowelNo) : (s.oosRequest k).held = s.held := by
  unfold State.oosRequest
  dsimp only
  (repeat' split) <;> simp

@[simp] theorem held_execTrowelOosRequest (k : TrowelNo) : Answer.held (execTrowelOosRequest k s) = some s.held := by
  simp [execTrowelOosRequest]

@[simp] theorem held_execTrowelReturnRequest (k : TrowelNo) : Answer.held (execTrowelReturnRequest k s) = some s.held := by
  simp [execTrowelReturnRequest]

@[simp] theorem held_execTrowelDrainComplete (k : TrowelNo) : Answer.held (execTrowelDrainComplete k s) = some s.held := by
  simp [execTrowelDrainComplete]

@[simp] theorem held_execTrowelSelfCheckEnd (k : TrowelNo) (pass : Bool) :
    Answer.held (execTrowelSelfCheckEnd k pass s) = some s.held := by
  simp [execTrowelSelfCheckEnd]

@[simp] theorem State.held_faultTxn (k : TrowelNo) (t : Txn) : (s.faultTxn k t).held = s.held := by
  unfold State.faultTxn
  (repeat' split) <;> simp

@[simp] theorem held_execTrowelFault (k : TrowelNo) (watchdog : Bool) :
    Answer.held (execTrowelFault k watchdog s) = some s.held := by
  unfold execTrowelFault
  dsimp only
  (repeat' split) <;> simp

@[simp] theorem held_execHawkScrubRead (ecc : Ecc) : Answer.held (execHawkScrubRead ecc s) = some s.held := by
  unfold execHawkScrubRead
  split <;> simp

@[simp] theorem held_execHwkRegionWrite (i : InstNo) (d : Nat) (w : Word) :
    Answer.held (execHwkRegionWrite i d w s) = some s.held := by
  simp [execHwkRegionWrite]

/-! ### Halts -/

@[simp] theorem State.held_withdrawInst (i : InstNo) : (s.withdrawInst i).held = s.held := by simp [State.withdrawInst]
@[simp] theorem State.held_cutInst (i : InstNo) : (s.cutInst i).held = s.held := by simp [State.cutInst]
@[simp] theorem State.held_dropWaiting (i : InstNo) : (s.dropWaiting i).held = s.held := by simp [State.dropWaiting]
@[simp] theorem State.held_pauseChans (i : InstNo) : (s.pauseChans i).held = s.held := by simp [State.pauseChans]
@[simp] theorem State.held_unpauseChans (i : InstNo) : (s.unpauseChans i).held = s.held := by simp [State.unpauseChans]

@[simp] theorem State.held_haltWork (i : InstNo) : (s.haltWork i).held = s.held := by
  unfold State.haltWork
  simp [State.held_foldl]

@[simp] theorem State.held_malformedAt (i : InstNo) (code kind target index : Nat) (store : Option Nat) :
    (s.malformedAt i code kind target index store).held = s.held := by
  simp [State.malformedAt]

@[simp] theorem State.held_malformed (i : InstNo) (code kind target index : Nat) :
    (s.malformed i code kind target index).held = s.held := by
  simp [State.malformed]

end Sys2Proof.Machine
end

section
/-!
SUPPORT. What is held stays as it is: commands, rings, devices and ports.
-/
namespace Sys2Proof.Machine

variable (s : State)

/-! ### Commands -/

@[simp] theorem State.held_setPhase (i : InstNo) (slot : BitVec 16) (ph : CmdPhase) : (s.setPhase i slot ph).held = s.held := by
  simp [State.setPhase]

@[simp] theorem State.held_finish (i : InstNo) (slot : BitVec 16) (st : Status) (result : Nat) :
    (s.finish i slot st result).held = s.held := by
  unfold State.finish
  split <;> simp

@[simp] theorem State.held_seqServed (i : InstNo) (op : Nat) : (s.seqServed i op).held = s.held := by simp [State.seqServed]

/-- What holds of the state given and of every state that the body answers holds of the state answered: the rest is reporting. -/
theorem carryOut_all {P : Held → Prop} {i : InstNo} {slot : BitVec 16} {op : Nat} {form : CEntry → Bool} {body : CEntry → Reply}
    (hs : P s.held) (hbody : ∀ e, (body e).All P) : ∃ v, Answer.held (carryOut i slot op form s body) = some v ∧ P v := by
  unfold carryOut
  split
  · exact ⟨_, rfl, hs⟩
  next e _ =>
    split
    · exact ⟨_, by simp, hs⟩
    · have h := hbody e
      split <;> rename_i hb <;> rw [hb] at h
      · exact ⟨_, by simp, h⟩
      · exact ⟨_, by simp, h⟩
      · exact ⟨_, rfl, hs⟩

@[simp] theorem held_carryOut {i : InstNo} {slot : BitVec 16} {op : Nat} {form : CEntry → Bool} {body : CEntry → Reply}
    (hbody : ∀ e, (body e).All (· = s.held)) : Answer.held (carryOut i slot op form s body) = some s.held := by
  obtain ⟨v, hv, rfl⟩ := carryOut_all (P := (· = s.held)) s rfl hbody
  exact hv

@[simp] theorem held_execCommandFetch (i : InstNo) (entry : CEntry) : Answer.held (execCommandFetch i entry s) = some s.held := by
  unfold execCommandFetch
  split <;> simp

@[simp] theorem held_execNop (i : InstNo) (slot : BitVec 16) : Answer.held (execNop i slot s) = some s.held := by simp [execNop]

/-! ### Rings -/

@[simp] theorem State.held_stray (i : InstNo) : (s.stray i).held = s.held := by simp [State.stray]
@[simp] theorem State.held_rung (i : InstNo) : (s.rung i).held = s.held := by simp [State.rung]

@[simp] theorem State.held_ring' (i : InstNo) (w : Word) : (s.ring' i w).held = s.held := by
  unfold State.ring'
  dsimp only
  (repeat' split) <;> simp

@[simp] theorem held_execStrayDoorbellPageWrite (i : InstNo) : Answer.held (execStrayDoorbellPageWrite i s) = some s.held := by
  simp [execStrayDoorbellPageWrite]

@[simp] theorem State.held_serveHeld (k : Nat) (ecc : Ecc) : (s.serveHeld k ecc).held = s.held := by
  unfold State.serveHeld
  split <;> simp

@[simp] theorem State.held_functionBack (i : InstNo) : (s.functionBack i).held = s.held := by simp [State.functionBack]

@[simp] theorem State.held_serveCarry (k : Nat) : (s.serveCarry k).held = s.held := by
  unfold State.serveCarry
  split <;> simp

@[simp] theorem State.held_beginEntry (k : Nat) (e : Ep) (t : TEntry) (ecc : Ecc) : (s.beginEntry k e t ecc).held = s.held := by
  unfold State.beginEntry
  split <;> simp

@[simp] theorem held_execTransferEntryTake (k : Nat) (entry : TEntry) (ecc : Ecc) :
    Answer.held (execTransferEntryTake k entry ecc s) = some s.held := by
  unfold execTransferEntryTake
  split
  · rfl
  · split
    · rfl
    · refine held_withContext s _ fun t => ?_
      dsimp only
      (repeat' split) <;> simp

@[simp] theorem held_execIndexMirrorWrite (i : InstNo) (e : RingNo) : Answer.held (execIndexMirrorWrite i e s) = some s.held := by
  simp [execIndexMirrorWrite]

@[simp] theorem held_execModerationIntervalExpiry (i : InstNo) (e : RingNo) :
    Answer.held (execModerationIntervalExpiry i e s) = some s.held := by
  simp [execModerationIntervalExpiry]

@[simp] theorem held_execMsixVectorUnmask (i : InstNo) (v : Fin 64) : Answer.held (execMsixVectorUnmask i v s) = some s.held := by
  simp [execMsixVectorUnmask]

@[simp] theorem held_execL1ExitComplete : Answer.held (execL1ExitComplete s) = some s.held := by
  unfold execL1ExitComplete
  split <;> simp

@[simp] theorem held_execAspmL1Entry (sub : L1State) : Answer.held (execAspmL1Entry sub s) = some s.held := by
  simp [execAspmL1Entry]

@[simp] theorem held_execEventRingHeadWrite (i : InstNo) (e : RingNo) (head : BitVec 16) :
    Answer.held (execEventRingHeadWrite i e head s) = some s.held := by
  simp [execEventRingHeadWrite]

@[simp] theorem State.held_startCmdRing (i : InstNo) : (s.startCmdRing i).held = s.held := by simp [State.startCmdRing]

@[simp] theorem held_execCommandRingEnable (i : InstNo) : Answer.held (execCommandRingEnable i s) = some s.held := by
  simp [execCommandRingEnable]

@[simp] theorem State.held_stopCmdRing (i : InstNo) : (s.stopCmdRing i).held = s.held := by simp [State.stopCmdRing]

@[simp] theorem held_execCommandRingDisable (i : InstNo) : Answer.held (execCommandRingDisable i s) = some s.held := by
  simp [execCommandRingDisable]

@[simp] theorem State.held_startEvtRing (i : InstNo) (e : RingNo) : (s.startEvtRing i e).held = s.held := by
  simp [State.startEvtRing]

@[simp] theorem held_execEventRingEnable (i : InstNo) (e : RingNo) : Answer.held (execEventRingEnable i e s) = some s.held := by
  simp [execEventRingEnable]

@[simp] theorem State.held_stopEvtRing (i : InstNo) (e : RingNo) : (s.stopEvtRing i e).held = s.held := by simp [State.stopEvtRing]

@[simp] theorem held_execEventRingDisable (i : InstNo) (e : RingNo) : Answer.held (execEventRingDisable i e s) = some s.held := by
  simp [execEventRingDisable]

@[simp] theorem State.held_writeBstore (w : Word) : (s.writeBstore w).held = s.held := by
  simp [State.writeBstore, State.held_modMem]

@[simp] theorem held_execBackingStoreLock (w : Word) : Answer.held (execBackingStoreLock w s) = some s.held := by
  simp [execBackingStoreLock]

@[simp] theorem State.held_writeBack (k : Nat) : (s.writeBack k).held = s.held := by
  unfold State.writeBack
  split <;> simp

@[simp] theorem State.held_cacheIn (k : Nat) : (s.cacheIn k).held = s.held := by
  unfold State.cacheIn
  dsimp only
  (repeat' split) <;> simp [State.held_modMem]

@[simp] theorem held_execContextReadComplete (slot : Nat) (bytes : List Byte) :
    Answer.held (execContextReadComplete slot bytes s) = some s.held := by
  simp [execContextReadComplete, State.held_modMem]

/-! ### Devices -/

@[simp] theorem State.held_postDetached (owners : List InstNo) (dev cause : Nat) (q : Pos) :
    (s.postDetached owners dev cause q).held = s.held := by
  unfold State.postDetached
  split <;> simp

@[simp] theorem State.held_postDevice (what : What) (status dev detail : Nat) (q : Pos) :
    (s.postDevice what status dev detail q).held = s.held := by
  simp [State.postDevice]

@[simp] theorem State.held_postTenant (i : InstNo) (what : What) (dev detail : Nat) (q : Pos) :
    (s.postTenant i what dev detail q).held = s.held := by
  simp [State.postTenant]

@[simp] theorem State.held_endOwn (which : OwnXfer → Bool) (st : Status) : (s.endOwn which st).held = s.held := by
  simp [State.endOwn]

@[simp] theorem State.held_unmark (q : Pos) : (s.unmark q).held = s.held := by simp [State.unmark]
@[simp] theorem State.held_mark (q : Pos) : (s.mark q).held = s.held := by simp [State.mark]

@[simp] theorem State.held_joinFrom (q : Pos) (zone : Option Nat) (since : Nat) : (s.joinFrom q zone since).held = s.held := by
  simp [State.joinFrom]

@[simp] theorem State.held_joinEnum (q : Pos) (zone : Option Nat) : (s.joinEnum q zone).held = s.held := by simp [State.joinEnum]
@[simp] theorem State.held_forgive (q : Pos) : (s.forgive q).held = s.held := by simp [State.forgive]
@[simp] theorem State.held_attachAt (q : Pos) : (s.attachAt q).held = s.held := by simp [State.attachAt]
@[simp] theorem State.held_leaveEnum (q : Pos) : (s.leaveEnum q).held = s.held := by simp [State.leaveEnum]

@[simp] theorem State.held_dropRecord0 (q : Pos) : (s.dropRecord0 q).held = s.held := by
  unfold State.dropRecord0
  split <;> simp

@[simp] theorem State.held_detachDev (z cause : Nat) : (s.detachDev z cause).held = s.held := by
  unfold State.detachDev
  split <;> simp

@[simp] theorem State.held_finishFor (x : Proc) (i : InstNo) (slot : BitVec 16) (st : Status) (result : Nat) :
    (s.finishFor x i slot st result).held = s.held := by
  simp [State.finishFor]

@[simp] theorem State.held_endWaits (which : Pos → Bool) (st : Status) : (s.endWaits which st).held = s.held := by
  refine State.held_each (fun t x => ?_) _ s
  dsimp only
  split <;> simp

@[simp] theorem State.held_detachBranch (q : Pos) (cause : Nat) : (s.detachBranch q cause).held = s.held := by
  simp [State.detachBranch]

@[simp] theorem State.held_resetBranch (q : Pos) : (s.resetBranch q).held = s.held := by simp [State.resetBranch]

@[simp] theorem State.held_modHPort (hub hport : Nat) (f : HPort → HPort) : (s.modHPort hub hport f).held = s.held := by
  simp [State.modHPort]

@[simp] theorem State.held_resetPos (q : Pos) : (s.resetPos q).held = s.held := by simp [State.resetPos]

/-! ### Ports -/

@[simp] theorem State.held_flag (p : PortNo) (bit : Nat) : (s.flag p bit).held = s.held := by simp [State.flag]

@[simp] theorem State.held_settlePort (p : PortNo) : (s.settlePort p).held = s.held := by
  refine State.held_each (fun t i => State.held_each (fun u c => ?_) _ t) _ s
  (repeat' split) <;> simp

@[simp] theorem State.held_withdraw (p : PortNo) : (s.withdraw p).held = s.held := by simp [State.withdraw]

@[simp] theorem State.held_setPortSt (p : PortNo) (st : PortState) (sr : Bool) : (s.setPortSt p st sr).held = s.held := by
  simp [State.setPortSt]

@[simp] theorem State.held_zeroDeficits (p : PortNo) : (s.zeroDeficits p).held = s.held := by simp [State.zeroDeficits]
@[simp] theorem State.held_drivePower (p : PortNo) (v : Bool) : (s.drivePower p v).held = s.held := by simp [State.drivePower]

@[simp] theorem State.held_takeHolder (p : PortNo) : (s.takeHolder p).held = s.held := by
  unfold State.takeHolder
  (repeat' split) <;> simp

@[simp] theorem State.held_dropHolder (p : PortNo) : (s.dropHolder p).held = s.held := by simp [State.dropHolder]
@[simp] theorem State.held_powerOn (p : PortNo) : (s.powerOn p).held = s.held := by simp [State.powerOn]
@[simp] theorem State.held_powerOff (p : PortNo) : (s.powerOff p).held = s.held := by simp [State.powerOff]
@[simp] theorem State.held_rootDetach (p : PortNo) : (s.rootDetach p).held = s.held := by simp [State.rootDetach]
@[simp] theorem State.held_endResets (p : PortNo) : (s.endResets p).held = s.held := by simp [State.endResets]
@[simp] theorem State.held_startReset (p : PortNo) : (s.startReset p).held = s.held := by simp [State.startReset]
@[simp] theorem State.held_enableAt (p : PortNo) (v : Speed) : (s.enableAt p v).held = s.held := by simp [State.enableAt]
@[simp] theorem State.held_fallBack (p : PortNo) : (s.fallBack p).held = s.held := by simp [State.fallBack]

@[simp] theorem State.held_disablePort (p : PortNo) (cause : BitVec 3) : (s.disablePort p cause).held = s.held := by
  simp [State.disablePort]

@[simp] theorem State.held_backEnabled (p : PortNo) : (s.backEnabled p).held = s.held := by simp [State.backEnabled]
@[simp] theorem State.held_resumeEarly (p : PortNo) : (s.resumeEarly p).held = s.held := by simp [State.resumeEarly]
@[simp] theorem State.held_startResume (p : PortNo) : (s.startResume p).held = s.held := by simp [State.startResume]

@[simp] theorem held_execLineStateChange (p : PortNo) (line : Line) : Answer.held (execLineStateChange p line s) = some s.held := by
  unfold execLineStateChange
  dsimp only
  (repeat' split) <;> simp

@[simp] theorem held_execPresenceWindow (p : PortNo) (low : Bool) : Answer.held (execPresenceWindow p low s) = some s.held := by
  simp [execPresenceWindow]

@[simp] theorem held_execDetachLowTimeout (p : PortNo) : Answer.held (execDetachLowTimeout p s) = some s.held := by
  simp [execDetachLowTimeout]

@[simp] theorem held_execResetLowEnd (o : PortLine) : Answer.held (execResetLowEnd o s) = some s.held := by
  unfold execResetLowEnd
  dsimp only
  (repeat' split) <;> simp

@[simp] theorem held_execChirpReplyReceived (p : PortNo) : Answer.held (execChirpReplyReceived p s) = some s.held := by
  simp [execChirpReplyReceived]

@[simp] theorem held_execChirpReplyTimeout (p : PortNo) : Answer.held (execChirpReplyTimeout p s) = some s.held := by
  simp [execChirpReplyTimeout]

@[simp] theorem held_execTrainingLock (p : PortNo) : Answer.held (execTrainingLock p s) = some s.held := by simp [execTrainingLock]

@[simp] theorem held_execTrainingLockFail (p : PortNo) : Answer.held (execTrainingLockFail p s) = some s.held := by
  simp [execTrainingLockFail]

@[simp] theorem held_execTrainDoneEcho (p : PortNo) : Answer.held (execTrainDoneEcho p s) = some s.held := by
  simp [execTrainDoneEcho]

@[simp] theorem held_execTrainDoneEchoTimeout (p : PortNo) : Answer.held (execTrainDoneEchoTimeout p s) = some s.held := by
  simp [execTrainDoneEchoTimeout]

@[simp] theorem held_execFallbackReleaseEnd (p : PortNo) : Answer.held (execFallbackReleaseEnd p s) = some s.held := by
  simp [execFallbackReleaseEnd]

@[simp] theorem State.held_recoveryEnd (p : PortNo) : (s.recoveryEnd p).held = s.held := by simp [State.recoveryEnd]
@[simp] theorem held_execDownshift (p : PortNo) : Answer.held (execDownshift p s) = some s.held := by simp [execDownshift]
@[simp] theorem State.held_shiftDown (p : PortNo) : (s.shiftDown p).held = s.held := by simp [State.shiftDown]
@[simp] theorem State.held_suspendEnter (p : PortNo) : (s.suspendEnter p).held = s.held := by simp [State.suspendEnter]
@[simp] theorem held_execSuspendEnter (p : PortNo) : Answer.held (execSuspendEnter p s) = some s.held := by simp [execSuspendEnter]

@[simp] theorem held_execSuspendIdleDone (p : PortNo) : Answer.held (execSuspendIdleDone p s) = some s.held := by
  simp [execSuspendIdleDone]

@[simp] theorem held_execResumeWakeEnd (p : PortNo) : Answer.held (execResumeWakeEnd p s) = some s.held := by
  simp [execResumeWakeEnd]

@[simp] theorem held_execResumeLowEnd (o : PortWait) : Answer.held (execResumeLowEnd o s) = some s.held := by
  simp [execResumeLowEnd]

@[simp] theorem held_execFirstTokenAfterResume (p : PortNo) : Answer.held (execFirstTokenAfterResume p s) = some s.held := by
  simp [execFirstTokenAfterResume]

@[simp] theorem State.held_wakeHost : s.wakeHost.held = s.held := by simp [State.wakeHost]

@[simp] theorem held_execRemoteWakeRecognised (p : PortNo) : Answer.held (execRemoteWakeRecognised p s) = some s.held := by
  simp [execRemoteWakeRecognised]

@[simp] theorem held_execRemoteWakeResumeStart (p : PortNo) : Answer.held (execRemoteWakeResumeStart p s) = some s.held := by
  simp [execRemoteWakeResumeStart]

@[simp] theorem held_execPortBlankingEnd (p : PortNo) : Answer.held (execPortBlankingEnd p s) = some s.held := by
  simp [execPortBlankingEnd]

@[simp] theorem held_execPortPowerFault (o : PortLevel) : Answer.held (execPortPowerFault o s) = some s.held := by
  simp [execPortPowerFault]

@[simp] theorem held_execPortPowerRetry (p : PortNo) : Answer.held (execPortPowerRetry p s) = some s.held := by
  simp [execPortPowerRetry]

@[simp] theorem held_execLineActiveTooLong (p : PortNo) : Answer.held (execLineActiveTooLong p s) = some s.held := by
  unfold execLineActiveTooLong
  (repeat' split) <;> simp

@[simp] theorem held_execBabbleAutoReset (p : PortNo) : Answer.held (execBabbleAutoReset p s) = some s.held := by
  simp [execBabbleAutoReset]

@[simp] theorem held_execPrtChangeClear (p : PortNo) (w : Word) : Answer.held (execPrtChangeClear p w s) = some s.held := by
  simp [execPrtChangeClear]

/-! ### Orders -/

@[simp] theorem State.portEnds_all (P : Held → Prop) (p : PortNo) (st : Status) : (s.portEnds p st).All P ↔ P s.held := (Iff.rfl)
@[simp] theorem State.held_powerOrdered (p : PortNo) : (s.powerOrdered p).held = s.held := by simp [State.powerOrdered]

@[simp] theorem State.orderPowerOn_all (p : PortNo) : (s.orderPowerOn p).All (· = s.held) := by
  unfold State.orderPowerOn
  (repeat' split) <;> simp

@[simp] theorem held_execPortControlPowerOn (i : InstNo) (o : RankedSlot) :
    Answer.held (execPortControlPowerOn i o s) = some s.held := by
  refine held_carryOut s fun e => ?_
  (repeat' split) <;> simp

@[simp] theorem held_execPortControlPowerOff (i : InstNo) (o : RankedSlot) :
    Answer.held (execPortControlPowerOff i o s) = some s.held := by
  refine held_carryOut s fun e => ?_
  dsimp only
  (repeat' split) <;> simp

@[simp] theorem held_execPortControlReset (i : InstNo) (o : RankedSlot) :
    Answer.held (execPortControlReset i o s) = some s.held := by
  refine held_carryOut s fun e => ?_
  dsimp only
  (repeat' split) <;> simp

@[simp] theorem held_execPortControlSuspend (i : InstNo) (o : RankedSlot) :
    Answer.held (execPortControlSuspend i o s) = some s.held := by
  refine held_carryOut s fun e => ?_
  dsimp only
  (repeat' split) <;> simp

@[simp] theorem held_execPortControlResume (i : InstNo) (o : RankedSlot) (idleUs : Nat) :
    Answer.held (execPortControlResume i o idleUs s) = some s.held := by
  refine held_carryOut s fun e => ?_
  dsimp only
  (repeat' split) <;> simp

@[simp] theorem held_execPortControlDisable (i : InstNo) (o : RankedSlot) :
    Answer.held (execPortControlDisable i o s) = some s.held := by
  refine held_carryOut s fun e => ?_
  dsimp only
  (repeat' split) <;> simp

end Sys2Proof.Machine
end

section
/-!
SUPPORT. What is held stays as it is: the tree, endpoints and stencil programs.
-/
namespace Sys2Proof.Machine

variable (s : State)

/-! ### Tree -/

@[simp] theorem State.held_startOwn (proc : Nat) (port : PortNo) (addr tier mb req tgt sel arg xlen : Nat) :
    (s.startOwn proc port addr tier mb req tgt sel arg xlen).held = s.held := by
  simp [State.startOwn]

@[simp] theorem State.held_ask (proc z req tgt sel arg xlen : Nat) : (s.ask proc z req tgt sel arg xlen).held = s.held := by
  unfold State.ask
  split <;> simp

@[simp] theorem State.held_askDefault (proc : Nat) (q : Pos) (req tgt sel arg xlen : Nat) :
    (s.askDefault proc q req tgt sel arg xlen).held = s.held := by
  simp [State.askDefault]

@[simp] theorem State.held_newProc (pu : Purpose) (q : Pos) (step addr : Nat) (todo : List (Nat × Nat)) :
    (s.newProc pu q step addr todo).1.held = s.held := (rfl)

@[simp] theorem State.held_modProc (id : Nat) (f : Proc → Proc) : (s.modProc id f).held = s.held := by simp [State.modProc]
@[simp] theorem State.held_endProc (id : Nat) : (s.endProc id).held = s.held := by simp [State.endProc]

@[simp] theorem State.held_fire (z req tgt sel arg : Nat) : (s.fire z req tgt sel arg).held = s.held := by
  unfold State.fire
  split <;> simp [State.newProc]

@[simp] theorem State.held_openStatus (z : Nat) : (s.openStatus z).1.held = s.held := by
  unfold State.openStatus
  dsimp only
  (repeat' split) <;> simp

@[simp] theorem State.held_step7 (z : Nat) (q : Pos) : (s.step7 z q).held = s.held := by
  have hopen := s.held_openStatus z
  unfold State.step7
  (repeat' split) <;> simp_all

@[simp] theorem State.held_moveRecord (q : Pos) (z : Nat) : (s.moveRecord q z).held = s.held := by
  unfold State.moveRecord
  split <;> simp

@[simp] theorem State.held_readdressed (z : Nat) (q : Pos) : (s.readdressed z q).held = s.held := by simp [State.readdressed]

@[simp] theorem State.held_postReaddressed (z : Nat) (q : Pos) : (s.postReaddressed z q).held = s.held := by
  unfold State.postReaddressed
  split <;> simp

@[simp] theorem State.held_treeAct (cmd : Option (InstNo × BitVec 16)) (hub hport action : Nat) :
    (s.treeAct cmd hub hport action).held = s.held := by
  unfold State.treeAct
  split <;> simp [State.newProc]

@[simp] theorem State.held_wakeBranch (q : Pos) : (s.wakeBranch q).held = s.held := by
  unfold State.wakeBranch
  dsimp only
  (repeat' split) <;> simp

@[simp] theorem State.held_wakeWork (p : PortNo) : (s.wakeWork p).held = s.held := by simp [State.wakeWork]

@[simp] theorem held_execAdmitDevice (i : InstNo) (slot : BitVec 16) : Answer.held (execAdmitDevice i slot s) = some s.held := by
  refine held_carryOut s fun e => ?_
  (repeat' split) <;> simp

@[simp] theorem held_execAssignAddress (i : InstNo) (slot : BitVec 16) :
    Answer.held (execAssignAddress i slot s) = some s.held := by
  refine held_carryOut s fun e => ?_
  dsimp only
  (repeat' split) <;> simp

@[simp] theorem held_execAssignAddressReaddress (i : InstNo) (slot : BitVec 16) :
    Answer.held (execAssignAddressReaddress i slot s) = some s.held := by
  refine held_carryOut s fun e => ?_
  dsimp only
  (repeat' split) <;> simp

@[simp] theorem State.held_tellWaiting : s.tellWaiting.held = s.held := by simp [State.tellWaiting]
@[simp] theorem State.held_beginAdmit (id : Nat) (q : Pos) : (s.beginAdmit id q).held = s.held := by simp [State.beginAdmit]

@[simp] theorem State.held_admitNext : s.admitNext.held = s.held := by
  unfold State.admitNext
  split <;> simp

@[simp] theorem State.held_ackAttach (q : Pos) : (s.ackAttach q).held = s.held := by simp [State.ackAttach]

@[simp] theorem held_execEnumerationStart : Answer.held (execEnumerationStart s) = some s.held := by
  unfold execEnumerationStart
  dsimp only
  (repeat' split) <;> simp

@[simp] theorem State.held_enumFail (x : Proc) (status step : Nat) : (s.enumFail x status step).held = s.held := by
  simp [State.enumFail]

@[simp] theorem held_execEnumRetry (pos : Pos) : Answer.held (execEnumRetry pos s) = some s.held := by simp [execEnumRetry]

@[simp] theorem held_execHubResetWaitEnd : Answer.held (execHubResetWaitEnd s) = some s.held := by
  unfold execHubResetWaitEnd
  split <;> simp

@[simp] theorem State.held_routeNext (x : Proc) (rest : List (Nat × Nat)) (h : Nat × Nat) :
    (s.routeNext x rest h).held = s.held := by
  simp [State.routeNext]

@[simp] theorem State.held_addressed (x : Proc) : (s.addressed x).held = s.held := by
  unfold State.addressed
  dsimp only
  cases x.purpose with
  | enum =>
    dsimp only
    split <;> simp
  | _ => simp

@[simp] theorem State.held_admitted (x : Proc) : (s.admitted x).held = s.held := by
  unfold State.admitted
  split <;> simp

@[simp] theorem State.held_identRead (x : Proc) (data : List Byte) : (s.identRead x data).held = s.held := by
  unfold State.identRead
  split <;> simp

@[simp] theorem State.held_unhalted (k : Nat) : (s.unhalted k).held = s.held := by simp [State.unhalted]

@[simp] theorem State.held_noteWord (hub hport : Nat) (word : BitVec 32) : (s.noteWord hub hport word).held = s.held := by
  simp [State.noteWord]

@[simp] theorem State.held_treeNext (x : Proc) : (s.treeNext x).held = s.held := by
  unfold State.treeNext
  (repeat' split) <;> simp

@[simp] theorem State.held_hubLoss (q : Pos) (word : BitVec 32) : (s.hubLoss q word).held = s.held := by simp [State.hubLoss]
@[simp] theorem State.held_hubDisable (q : Pos) : (s.hubDisable q).held = s.held := by simp [State.hubDisable]

@[simp] theorem State.held_hubAct (q : Pos) (word : BitVec 32) (owner : InstNo) : (s.hubAct q word owner).held = s.held := by
  simp [State.hubAct]

@[simp] theorem State.held_hubTell (q : Pos) (word before : BitVec 32) : (s.hubTell q word before).held = s.held := by
  simp [State.hubTell]

@[simp] theorem State.held_hubWord (hub hport : Nat) (hw : Bool) (word : BitVec 32) :
    (s.hubWord hub hport hw word).held = s.held := by
  unfold State.hubWord
  split <;> simp

@[simp] theorem held_execHubPortQuery (hub hport : Nat) : Answer.held (execHubPortQuery hub hport s) = some s.held := by
  unfold execHubPortQuery
  split <;> simp

@[simp] theorem State.held_treePortDone (p : PortNo) (hub hport action : Nat) :
    (s.treePortDone p hub hport action).held = s.held := by
  simp [State.treePortDone]

@[simp] theorem State.held_treeUndo (x : Proc) : (s.treeUndo x).held = s.held := by simp [State.treeUndo]

@[simp] theorem State.held_endJoined (q : Pos) (st : Status) (result : Nat) : (s.endJoined q st result).held = s.held := by
  refine State.held_each (fun t x => ?_) _ s
  split <;> simp

@[simp] theorem State.held_procOk (x : Proc) (data : List Byte) : (s.procOk x data).held = s.held := by
  unfold State.procOk
  (repeat' split) <;> simp

@[simp] theorem State.held_leftOver (q : Pos) : (s.leftOver q).held = s.held := by simp [State.leftOver]

@[simp] theorem State.held_procFail (x : Proc) (st : Status) : (s.procFail x st).held = s.held := by
  unfold State.procFail
  split <;> simp

@[simp] theorem held_execControllerControlTransferEnd (id : Nat) :
    Answer.held (execControllerControlTransferEnd id s) = some s.held := by
  unfold execControllerControlTransferEnd
  dsimp only
  (repeat' split) <;> simp

@[simp] theorem held_execAttachDebounceDone (p : PortNo) : Answer.held (execAttachDebounceDone p s) = some s.held := by
  simp [execAttachDebounceDone]

@[simp] theorem State.held_queueReaddress (p : PortNo) : (s.queueReaddress p).held = s.held := by simp [State.queueReaddress]

@[simp] theorem held_execResetRecoveryEnd (p : PortNo) : Answer.held (execResetRecoveryEnd p s) = some s.held := by
  unfold execResetRecoveryEnd
  dsimp only
  (repeat' split) <;> simp

@[simp] theorem held_execReaddressTimeout (zone : Nat) : Answer.held (execReaddressTimeout zone s) = some s.held := by
  unfold execReaddressTimeout
  split <;> simp

@[simp] theorem State.held_managerOrder (z setup : Nat) : (s.managerOrder z setup).held = s.held := by
  unfold State.managerOrder
  split <;> simp

@[simp] theorem treePower_all (i : InstNo) (slot : BitVec 16) (outranked : Bool) (e : CEntry) (action : Nat) :
    (treePower i slot outranked s e action).All (· = s.held) := by
  unfold treePower
  dsimp only
  (repeat' split) <;> simp

@[simp] theorem held_execTreePowerSuspend (i : InstNo) (o : RankedSlot) :
    Answer.held (execTreePowerSuspend i o s) = some s.held := by
  simp [execTreePowerSuspend]

@[simp] theorem held_execTreePowerResume (i : InstNo) (o : RankedSlot) : Answer.held (execTreePowerResume i o s) = some s.held := by
  simp [execTreePowerResume]

@[simp] theorem held_execTreePowerPowerOff (i : InstNo) (o : RankedSlot) :
    Answer.held (execTreePowerPowerOff i o s) = some s.held := by
  simp [execTreePowerPowerOff]

@[simp] theorem held_execTreePowerPowerOn (i : InstNo) (o : RankedSlot) :
    Answer.held (execTreePowerPowerOn i o s) = some s.held := by
  refine held_carryOut s fun e => ?_
  (repeat' split) <;> simp

@[simp] theorem held_execHubBranchUsable (hub hport : Nat) : Answer.held (execHubBranchUsable hub hport s) = some s.held := by
  simp [execHubBranchUsable]

@[simp] theorem held_execTreeIdleExpiry (pos : Pos) : Answer.held (execTreeIdleExpiry pos s) = some s.held := by
  unfold execTreeIdleExpiry
  (repeat' split) <;> simp

@[simp] theorem held_execPortControlDeviceReset (i : InstNo) (o : RankedSlot) :
    Answer.held (execPortControlDeviceReset i o s) = some s.held := by
  refine held_carryOut s fun e => ?_
  dsimp only
  (repeat' split) <;> simp

@[simp] theorem State.held_startUnhalt (pu : Purpose) (e : Ep) : (s.startUnhalt pu e).held = s.held := by
  unfold State.startUnhalt
  split <;> simp [State.newProc]

@[simp] theorem State.held_recoverWhenUp : s.recoverWhenUp.held = s.held := by simp [State.recoverWhenUp]

@[simp] theorem held_execRecoveryBackoffExpiry (ep : Nat) : Answer.held (execRecoveryBackoffExpiry ep s) = some s.held := by
  unfold execRecoveryBackoffExpiry
  dsimp only
  (repeat' split) <;> simp

@[simp] theorem State.held_wakeFor (i : InstNo) (w : Word) : (s.wakeFor i w).held = s.held := by
  unfold State.wakeFor
  (repeat' split) <;> simp

@[simp] theorem held_execDoorbell (i : InstNo) (w : Word) : Answer.held (execDoorbell i w s) = some s.held := by simp [execDoorbell]
@[simp] theorem held_execFDoorbell (w : BitVec 32) : Answer.held (execFDoorbell w s) = some s.held := by simp [execFDoorbell]

/-! ### Endpoints -/

@[simp] theorem held_execOpenEndpoint (i : InstNo) (slot : BitVec 16) : Answer.held (execOpenEndpoint i slot s) = some s.held := by
  refine held_carryOut s fun e => ?_
  dsimp only
  (repeat' split) <;> simp

@[simp] theorem held_execModifyEndpoint (i : InstNo) (slot : BitVec 16) :
    Answer.held (execModifyEndpoint i slot s) = some s.held := by
  refine held_carryOut s fun e => ?_
  dsimp only
  (repeat' split) <;> simp

@[simp] theorem State.held_forgetRecovery (k : Nat) : (s.forgetRecovery k).held = s.held := by simp [State.forgetRecovery]
@[simp] theorem State.held_unlist (gone : Holder → Bool) : (s.unlist gone).held = s.held := by simp [State.unlist]
@[simp] theorem State.held_dropEp (k : Nat) : (s.dropEp k).held = s.held := by simp [State.dropEp, State.held_modMem]

@[simp] theorem held_execCloseEndpoint (i : InstNo) (slot : BitVec 16) :
    Answer.held (execCloseEndpoint i slot s) = some s.held := by
  refine held_carryOut s fun e => ?_
  (repeat' split) <;> simp

@[simp] theorem held_execResetEndpoint (i : InstNo) (slot : BitVec 16) :
    Answer.held (execResetEndpoint i slot s) = some s.held := by
  refine held_carryOut s fun e => ?_
  (repeat' split) <;> simp

@[simp] theorem held_execHaltClear (i : InstNo) (slot : BitVec 16) : Answer.held (execHaltClear i slot s) = some s.held := by
  refine held_carryOut s fun e => ?_
  (repeat' split) <;> simp

@[simp] theorem held_execSetDequeue (i : InstNo) (slot : BitVec 16) : Answer.held (execSetDequeue i slot s) = some s.held := by
  refine held_carryOut s fun e => ?_
  dsimp only
  (repeat' split) <;> simp

@[simp] theorem held_execReleaseDevice (i : InstNo) (slot : BitVec 16) :
    Answer.held (execReleaseDevice i slot s) = some s.held := by
  refine held_carryOut s fun e => ?_
  dsimp only
  (repeat' split) <;> simp

/-! ### Stencil -/

@[simp] theorem State.held_endChan (c : ChanNo) (kind mark fault : Nat) : (s.endChan c kind mark fault).held = s.held := by
  unfold State.endChan
  dsimp only
  (repeat' split) <;> simp

@[simp] theorem State.held_countInstr (c : ChanNo) : (s.countInstr c).held = s.held := by simp [State.countInstr]
@[simp] theorem State.held_faultChan (c : ChanNo) (code : Nat) : (s.faultChan c code).held = s.held := by simp [State.faultChan]

@[simp] theorem State.held_stopChan (c : ChanNo) (kind : Nat) : (s.stopChan c kind).held = s.held := by
  unfold State.stopChan
  split <;> simp

@[simp] theorem State.held_raise (c : ChanNo) (kind mark : Nat) : (s.raise c kind mark).held = s.held := by simp [State.raise]

@[simp] theorem held_execStencilStart (i : InstNo) (c : ChanNo) : Answer.held (execStencilStart i c s) = some s.held := by
  simp [execStencilStart]

@[simp] theorem held_execStencilBegin (c : ChanNo) : Answer.held (execStencilBegin c s) = some s.held := by simp [execStencilBegin]

@[simp] theorem held_execParamBlockReadDone (c : ChanNo) (bytes : List Byte) :
    Answer.held (execParamBlockReadDone c bytes s) = some s.held := by
  simp [execParamBlockReadDone]

@[simp] theorem held_execStencilStop (i : InstNo) (c : ChanNo) : Answer.held (execStencilStop i c s) = some s.held := by
  simp [execStencilStop]

@[simp] theorem held_execStencilManagerStop (c : ChanNo) : Answer.held (execStencilManagerStop c s) = some s.held := by
  simp [execStencilManagerStop]

@[simp] theorem held_execStnOwnerWrite (c : ChanNo) (w : Word) : Answer.held (execStnOwnerWrite c w s) = some s.held := by
  simp [execStnOwnerWrite]

@[simp] theorem held_execStnCountWrite (i : InstNo) (c : ChanNo) (o : CountWrite) :
    Answer.held (execStnCountWrite i c o s) = some s.held := by
  simp [execStnCountWrite]

@[simp] theorem State.held_lineRead (c : ChanNo) (line : List Byte) : (s.lineRead c line).held = s.held := by simp [State.lineRead]

/-- What holds of the state given and of every state that the instruction leaves holds of the state answered. -/
theorem stencilStep_all {P : Held → Prop} {c : ChanNo} {op : Nat} {line : List Byte} {body : State → Word → Did} (hs : P s.held)
    (hbody : ∀ t w, t.held = s.held → (body t w).All P) : ∃ v, Answer.held (stencilStep c op line s body) = some v ∧ P v := by
  have hline : (s.lineRead c line).held = s.held := by simp
  unfold stencilStep
  dsimp only
  split
  · exact ⟨_, rfl, hs⟩
  · split
    · exact ⟨_, by simp, hs⟩
    · split
      · exact ⟨_, rfl, hs⟩
      · split
        · exact ⟨_, by simp, hs⟩
        · split
          · exact ⟨_, rfl, hs⟩
          · split
            · exact ⟨_, by simp, hs⟩
            · have h := hbody (s.lineRead c line) (s.progWord (s.chan c) line) hline
              split <;> rename_i hb <;> rw [hb] at h
              · exact ⟨_, by simp, h⟩
              · exact ⟨_, by simp, h⟩
              · exact ⟨_, by simp, h⟩
              · exact ⟨_, rfl, hs⟩

theorem held_stencilStep {c : ChanNo} {op : Nat} {line : List Byte} {body : State → Word → Did}
    (hbody : ∀ t w, (body t w).All (· = t.held)) : Answer.held (stencilStep c op line s body) = some s.held := by
  obtain ⟨v, hv, rfl⟩ := stencilStep_all (P := (· = s.held)) s rfl fun t w ht => ht ▸ hbody t w
  exact hv

@[simp] theorem State.burstDone_all (P : Held → Prop) (c : ChanNo) (off len : Nat) (f : Chan → Chan) :
    (s.burstDone c off len f).All P ↔ P s.held := by
  unfold State.burstDone
  split <;> simp

@[simp] theorem State.held_areaRead (c : ChanNo) (k off len : Nat) : (s.areaRead c k off len).held = s.held := by
  simp [State.areaRead]

@[simp] theorem held_execStencilCmp (c : ChanNo) (row : StnRow) (a b : List Byte) (ecc : Ecc) :
    Answer.held (execStencilCmp c row a b ecc s) = some s.held := by
  refine held_stencilStep s fun t w => ?_
  dsimp only
  (repeat' split) <;> simp

@[simp] theorem held_execStencilLoop (c : ChanNo) (line : List Byte) : Answer.held (execStencilLoop c line s) = some s.held := by
  refine held_stencilStep s fun t w => ?_
  dsimp only
  (repeat' split) <;> simp

@[simp] theorem held_execStencilWait (c : ChanNo) (line : List Byte) : Answer.held (execStencilWait c line s) = some s.held := by
  refine held_stencilStep s fun t w => ?_
  dsimp only
  (repeat' split) <;> simp

@[simp] theorem State.held_endWait (c : ChanNo) (flag : Bool) : (s.endWait c flag).held = s.held := by simp [State.endWait]

@[simp] theorem held_execStencilWaitSatisfied (c : ChanNo) : Answer.held (execStencilWaitSatisfied c s) = some s.held := by
  unfold execStencilWaitSatisfied
  dsimp only
  (repeat' split) <;> simp

@[simp] theorem held_execStencilWaitTimeout (c : ChanNo) : Answer.held (execStencilWaitTimeout c s) = some s.held := by
  simp [execStencilWaitTimeout]

@[simp] theorem State.held_countDown (d : ChanNo) : (s.countDown d).held = s.held := by simp [State.countDown]

@[simp] theorem held_execStencilSignal (c : ChanNo) (line : List Byte) :
    Answer.held (execStencilSignal c line s) = some s.held := by
  refine held_stencilStep s fun t w => ?_
  dsimp only
  (repeat' split) <;> simp

@[simp] theorem held_execStencilJump (c : ChanNo) (line : List Byte) : Answer.held (execStencilJump c line s) = some s.held := by
  refine held_stencilStep s fun t w => ?_
  dsimp only
  (repeat' split) <;> simp

@[simp] theorem held_execStencilEnd (c : ChanNo) (line : List Byte) : Answer.held (execStencilEnd c line s) = some s.held := by
  refine held_stencilStep s fun t w => ?_
  dsimp only
  split
  · split <;> simp
  · simp

@[simp] theorem State.held_gateGone (g : Nat) (zero : Bool) : (s.gateGone g zero).held = s.held := by simp [State.gateGone]
@[simp] theorem State.held_settleCtrs : s.settleCtrs.held = s.held := by simp [State.settleCtrs]
@[simp] theorem State.held_cycleEnds : s.cycleEnds.held = s.held := by simp [State.cycleEnds]

@[simp] theorem State.held_tickWaits : s.tickWaits.held = s.held := by
  refine State.held_each (fun t c => ?_) _ s
  (repeat' split) <;> simp

end Sys2Proof.Machine
end

section
/-!
SUPPORT. What is held stays as it is: shares, the dispatcher, frames and the management of instances.
-/
namespace Sys2Proof.Machine

variable (s : State)

/-! ### Shares -/

@[simp] theorem held_execStencilLoad (i : InstNo) (slot : BitVec 16) : Answer.held (execStencilLoad i slot s) = some s.held := by
  refine held_carryOut s fun e => ?_
  dsimp only
  (repeat' split) <;> simp

@[simp] theorem held_execGateCreate (i : InstNo) (slot : BitVec 16) : Answer.held (execGateCreate i slot s) = some s.held := by
  refine held_carryOut s fun e => ?_
  dsimp only
  (repeat' split) <;> simp

@[simp] theorem held_execGateCancel (i : InstNo) (o : CancelSlot) : Answer.held (execGateCancel i o s) = some s.held := by
  refine held_carryOut s fun e => ?_
  dsimp only
  (repeat' split) <;> simp

@[simp] theorem State.held_bindCommit (i : InstNo) (e : CEntry) (data : List Byte) : (s.bindCommit i e data).1.held = s.held := by
  unfold State.bindCommit
  dsimp only
  (repeat' split) <;> simp

theorem State.held_of_armOn {s t : State} {i : InstNo} {c : Cmd} (h : s.armOn i c = some t) : t.held = s.held := by
  unfold State.armOn at h
  split at h
  next data _ =>
    have hbind := s.held_bindCommit i c.entry data
    generalize s.bindCommit i c.entry data = r at h hbind
    obtain ⟨u, st, num⟩ := r
    split at h
    · rw [← Option.some.inj h, State.held_finish, hbind]
    · cases h
  · cases h

@[simp] theorem held_execCommitArm (i : InstNo) (slot : BitVec 16) : Answer.held (execCommitArm i slot s) = some s.held := by
  unfold execCommitArm
  split
  next t ht =>
    obtain ⟨c, -, hc⟩ := Option.bind_eq_some_iff.1 ht
    simp [State.held_of_armOn hc]
  · refine held_carryOut s fun e => ?_
    split <;> simp

@[simp] theorem held_execCounterGrantManager (i : InstNo) (slot : BitVec 16) :
    Answer.held (execCounterGrantManager i slot s) = some s.held := by
  unfold execCounterGrantManager
  split
  · rfl
  · refine held_carryOut s fun e => ?_
    dsimp only
    split <;> simp

@[simp] theorem held_execCounterGrantTenant (i : InstNo) (slot : BitVec 16) :
    Answer.held (execCounterGrantTenant i slot s) = some s.held := by
  refine held_carryOut s fun e => ?_
  dsimp only
  (repeat' split) <;> simp

@[simp] theorem held_execSetReservation (i : InstNo) (slot : BitVec 16) : Answer.held (execSetReservation i slot s) = some s.held := by
  refine held_carryOut s fun e => ?_
  dsimp only
  split
  · rfl
  · generalize periodicLimit _ = limit, s.bookedPeak _ _ = peak, List.sum (α := Nat) _ = sum
    (repeat' split) <;> simp

@[simp] theorem held_execAssignDevice (i : InstNo) (slot : BitVec 16) : Answer.held (execAssignDevice i slot s) = some s.held := by
  refine held_carryOut s fun e => ?_
  dsimp only
  (repeat' split) <;> simp

/-! ### Dispatcher -/

@[simp] theorem State.held_noteStall (g : GroupNo) (k : Nat) (x : Item) : (s.noteStall g k x).held = s.held := by
  unfold State.noteStall
  (repeat' split) <;> simp

@[simp] theorem State.held_deliverItem (g : GroupNo) (k : Nat) (x : Item) (q : QueueNo) : (s.deliverItem g k x q).held = s.held := by
  refine (State.held_each (fun t j => ?_) _ _).trans (by simp)
  (repeat' split) <;> simp

@[simp] theorem State.held_tryGroup (g : GroupNo) : (s.tryGroup g).1.held = s.held := by
  unfold State.tryGroup
  (repeat' split) <;> simp

@[simp] theorem State.held_dispatchCycle (l : List GroupNo) : (dispatchCycle l s).held = s.held := by
  induction l generalizing s with
  | nil => rfl
  | cons g l ih => simp [dispatchCycle, ih]

@[simp] theorem held_execDispatchDeliver : Answer.held (execDispatchDeliver s) = some s.held := by simp [execDispatchDeliver]

@[simp] theorem held_execDspRelease (i : InstNo) (w : Word) : Answer.held (execDspRelease i w s) = some s.held := by
  unfold execDspRelease
  dsimp only
  (repeat' split) <;> simp

@[simp] theorem held_execDspGroupWrite (g : GroupNo) (w : Word) : Answer.held (execDspGroupWrite g w s) = some s.held := by
  simp [execDspGroupWrite]

@[simp] theorem held_execDspQmapWrite (q : QueueNo) (w : Word) : Answer.held (execDspQmapWrite q w s) = some s.held := by
  simp [execDspQmapWrite]

@[simp] theorem held_execDspQcfgWrite (i : InstNo) (q : QueueNo) (w : Word) :
    Answer.held (execDspQcfgWrite i q w s) = some s.held := by
  simp [execDspQcfgWrite]

@[simp] theorem held_execDspTraceEnable (w : Word) : Answer.held (execDspTraceEnable w s) = some s.held := by
  simp [execDspTraceEnable]

@[simp] theorem held_execDspTraceHeadWrite (w : Word) : Answer.held (execDspTraceHeadWrite w s) = some s.held := by
  simp [execDspTraceHeadWrite]

@[simp] theorem held_execDspStatsWindowEnd : Answer.held (execDspStatsWindowEnd s) = some s.held := by simp [execDspStatsWindowEnd]

/-! ### Counters -/

@[simp] theorem State.held_modCtr (set : CtrSet) (j : Fin 8) (f : Counter → Counter) : (s.modCtr set j f).held = s.held := by
  unfold State.modCtr
  split <;> simp

@[simp] theorem held_execCntValWrite (set : CtrSet) (j : Fin 8) (o : CountWrite) :
    Answer.held (execCntValWrite set j o s) = some s.held := by
  simp [execCntValWrite]

@[simp] theorem held_execCntSelWrite (set : CtrSet) (j : Fin 8) (w : Word) :
    Answer.held (execCntSelWrite set j w s) = some s.held := by
  unfold execCntSelWrite
  (repeat' split) <;> simp

@[simp] theorem held_execCounterSampleClear (set : CtrSet) (w : Word) :
    Answer.held (execCounterSampleClear set w s) = some s.held := by
  unfold execCounterSampleClear
  (repeat' split) <;> simp

@[simp] theorem State.held_zeroMeters : s.zeroMeters.held = s.held := by simp [State.zeroMeters]
@[simp] theorem State.held_writeMtrCfg (w : Word) : (s.writeMtrCfg w).held = s.held := by simp [State.writeMtrCfg]
@[simp] theorem held_execMtrCfgWrite (w : Word) : Answer.held (execMtrCfgWrite w s) = some s.held := by simp [execMtrCfgWrite]
@[simp] theorem held_execMtrWindowEnd : Answer.held (execMtrWindowEnd s) = some s.held := by simp [execMtrWindowEnd]

/-! ### Frames -/

@[simp] theorem State.held_loseSkim (p : PortNo) : (s.loseSkim p).held = s.held := by simp [State.loseSkim]

@[simp] theorem State.held_buildPort (p : PortNo) (n : Nat) (hw : Bool) : (s.buildPort p n hw).held = s.held := by
  simp [State.buildPort]

@[simp] theorem State.held_beginWalk (i : InstNo) (n : Nat) : (s.beginWalk i n).held = s.held := by simp [State.beginWalk]
@[simp] theorem State.held_beginBuild (n : Nat) (hw : Bool) : (s.beginBuild n hw).held = s.held := by simp [State.beginBuild]

@[simp] theorem State.held_visit (i : InstNo) (n : Nat) (d : BitVec 256) : (s.visit i n d).held = s.held := by
  unfold State.visit
  dsimp only
  (repeat' split) <;> simp

@[simp] theorem State.held_visitRun (i : InstNo) (n : Nat) (ds : List (BitVec 256)) : (s.visitRun i n ds).held = s.held := by
  unfold State.visitRun
  split <;> simp

@[simp] theorem held_execFrameListReadComplete (i : InstNo) (rd : ListRead) :
    Answer.held (execFrameListReadComplete i rd s) = some s.held := by
  unfold execFrameListReadComplete
  (repeat' split) <;> simp

theorem State.held_of_pin {s t : State} {k : Nat} (h : s.pin k = some t) : t.held = s.held := by
  unfold State.pin at h
  dsimp only at h
  split at h
  · simp [← Option.some.inj h]
  · split at h
    · simp [← Option.some.inj h, State.held_modMem]
    · cases h

@[simp] theorem State.held_leftOut (p : PortNo) (n : Nat) (h : Holder) : (s.leftOut p n h).held = s.held := by
  unfold State.leftOut
  split <;> simp

@[simp] theorem State.held_listOne (p : PortNo) (n : Nat) (a : State × Used × List Holder) (h : Holder) :
    (State.listOne p n a h).1.held = a.1.held := by
  unfold State.listOne
  dsimp only
  split
  · split
    · rfl
    · split
      · simp
      · split
        · simp
        next t ht => exact State.held_of_pin ht
  · split
    · rfl
    · split <;> simp
  · rfl

/-- Candidates listed one after another. -/
theorem State.held_foldl_listOne (p : PortNo) (n : Nat) (hs : List Holder) (a : State × Used × List Holder) :
    (hs.foldl (State.listOne p n) a).1.held = a.1.held := by
  induction hs generalizing a with
  | nil => rfl
  | cons h hs ih => rw [List.foldl_cons, ih, State.held_listOne]

@[simp] theorem State.held_fixList (p : PortNo) (n : Nat) : (s.fixList p n).held = s.held := by
  unfold State.fixList
  split
  · rfl
  · exact State.held_foldl_listOne p n _ (s, Vector.replicate 64 0, [])

@[simp] theorem State.held_decideCommit (n : Nat) (x : Nat × Commit) : (s.decideCommit n x).held = s.held := by
  simp [State.decideCommit]

@[simp] theorem State.held_decideServed (i : InstNo) : (s.decideServed i).held = s.held := by simp [State.decideServed]
@[simp] theorem State.held_cutWalks : s.cutWalks.held = s.held := by simp [State.cutWalks]

@[simp] theorem State.held_haltAfterEgress : s.haltAfterEgress.held = s.held := by
  unfold State.haltAfterEgress
  split
  · rfl
  · refine State.held_each (fun t x => ?_) _ s
    dsimp only
    split <;> simp

@[simp] theorem held_execPlannerCutoff : Answer.held (execPlannerCutoff s) = some s.held := by simp [execPlannerCutoff]

@[simp] theorem held_execCommitMissed (c : Fin 256) : Answer.held (execCommitMissed c s) = some s.held := by
  unfold execCommitMissed
  split <;> simp

@[simp] theorem State.held_endSpan (p : PortNo) (n : Nat) : (s.endSpan p n).held = s.held := by simp [State.endSpan]
@[simp] theorem State.held_passPort (p : PortNo) (k j : TrowelNo) : (s.passPort p k j).held = s.held := by simp [State.passPort]

@[simp] theorem State.held_handOver (p : PortNo) (n : Nat) : (s.handOver p n).held = s.held := by
  unfold State.handOver
  (repeat' split) <;> simp

@[simp] theorem State.held_beginSpan (p : PortNo) (n : Nat) : (s.beginSpan p n).held = s.held := by simp [State.beginSpan]
@[simp] theorem State.held_unserve (n : Nat) : (s.unserve n).held = s.held := by simp [State.unserve]
@[simp] theorem State.held_rotatePins (n : Nat) : (s.rotatePins n).held = s.held := by simp [State.rotatePins, State.held_modMem]
@[simp] theorem State.held_frameBegins : s.frameBegins.held = s.held := by simp [State.frameBegins]
@[simp] theorem State.held_countTick : s.countTick.held = s.held := by simp [State.countTick]
@[simp] theorem State.held_advance (n : Nat) : (s.advance n).held = s.held := by simp [State.advance]
@[simp] theorem State.held_openTick : s.openTick.held = s.held := by simp [State.openTick]
@[simp] theorem State.held_workTick : s.workTick.held = s.held := by simp [State.workTick]
@[simp] theorem State.held_portsTick (n : Nat) : (s.portsTick n).held = s.held := by simp [State.portsTick]
@[simp] theorem held_execSubframeTick : Answer.held (execSubframeTick s) = some s.held := by simp [execSubframeTick]
@[simp] theorem State.held_convertPort (p : PortNo) (v : Speed) : (s.convertPort p v).held = s.held := by simp [State.convertPort]

@[simp] theorem held_execReservationConversion (p : PortNo) : Answer.held (execReservationConversion p s) = some s.held := by
  simp [execReservationConversion]

/-! ### Manage -/

@[simp] theorem State.held_stopCommits (i : InstNo) : (s.stopCommits i).held = s.held := by simp [State.stopCommits]
@[simp] theorem State.held_flushRings (i : InstNo) : (s.flushRings i).held = s.held := by simp [State.flushRings]
@[simp] theorem State.held_abortInst (i : InstNo) : (s.abortInst i).held = s.held := by simp [State.abortInst]
@[simp] theorem State.held_stopWork (i : InstNo) : (s.stopWork i).held = s.held := by simp [State.stopWork]
@[simp] theorem State.held_freeze (i : InstNo) : (s.freeze i).held = s.held := by simp [State.freeze]

@[simp] theorem held_execQuiesceInstance (i : InstNo) (slot : BitVec 16) :
    Answer.held (execQuiesceInstance i slot s) = some s.held := by
  refine held_carryOut s fun e => ?_
  (repeat' split) <;> simp

@[simp] theorem State.held_endQuiesce (j : InstNo) : (s.endQuiesce j).held = s.held := by
  unfold State.endQuiesce
  split <;> simp

@[simp] theorem held_execQuiesceComplete (j : InstNo) : Answer.held (execQuiesceComplete j s) = some s.held := by
  unfold execQuiesceComplete
  (repeat' split) <;> simp

@[simp] theorem held_execResumeInstance (i : InstNo) (slot : BitVec 16) :
    Answer.held (execResumeInstance i slot s) = some s.held := by
  refine held_carryOut s fun e => ?_
  (repeat' split) <;> simp

@[simp] theorem State.held_orphanProcs (i : InstNo) (gone : List Nat) : (s.orphanProcs i gone).held = s.held := by
  simp [State.orphanProcs]

@[simp] theorem State.held_closeEps (ks : List Nat) : (s.closeEps ks).held = s.held := by simp [State.closeEps]

@[simp] theorem State.held_clearItems (i : InstNo) : (s.clearItems i).held = s.held := by
  refine State.held_each (fun t x => ?_) _ s
  split <;> simp

@[simp] theorem State.held_stopUnits (i : InstNo) : (s.stopUnits i).held = s.held := by simp [State.stopUnits]
@[simp] theorem State.held_stopAll (i : InstNo) : (s.stopAll i).held = s.held := by simp [State.stopAll]
@[simp] theorem State.held_returnShares (i : InstNo) : (s.returnShares i).held = s.held := by simp [State.returnShares]
@[simp] theorem State.held_askFlr (i : InstNo) : (s.askFlr i).held = s.held := by simp [State.askFlr]

@[simp] theorem held_execVfFunctionLevelReset (i : InstNo) : Answer.held (execVfFunctionLevelReset i s) = some s.held := by
  simp [execVfFunctionLevelReset]

@[simp] theorem State.held_leaveShared : s.leaveShared.held = s.held := by simp [State.leaveShared]
@[simp] theorem State.held_enableVf (i : InstNo) : (s.enableVf i).held = s.held := by simp [State.enableVf]
@[simp] theorem held_execVfEnableSet : Answer.held (execVfEnableSet s) = some s.held := by simp [execVfEnableSet]
@[simp] theorem held_execNumvfsWrite (v : Nat) : Answer.held (execNumvfsWrite v s) = some s.held := by simp [execNumvfsWrite]

@[simp] theorem held_execDirtyLogStart (i : InstNo) (slot : BitVec 16) :
    Answer.held (execDirtyLogStart i slot s) = some s.held := by
  refine held_carryOut s fun e => ?_
  (repeat' split) <;> simp

@[simp] theorem held_execDirtyLogSync (i : InstNo) (slot : BitVec 16) : Answer.held (execDirtyLogSync i slot s) = some s.held := by
  refine held_carryOut s fun e => ?_
  (repeat' split) <;> simp

@[simp] theorem held_execDirtyLogStop (i : InstNo) (slot : BitVec 16) : Answer.held (execDirtyLogStop i slot s) = some s.held := by
  refine held_carryOut s fun e => ?_
  (repeat' split) <;> simp

/-! ### Control -/

@[simp] theorem held_execSetSplit (i : InstNo) (slot : BitVec 16) : Answer.held (execSetSplit i slot s) = some s.held := by
  refine held_carryOut s fun e => ?_
  (repeat' split) <;> simp

@[simp] theorem State.held_moveEnum (p : PortNo) (x : Split) : (s.moveEnum p x).held = s.held := by
  unfold State.moveEnum
  dsimp only
  (repeat' split) <;> simp

@[simp] theorem State.held_moveHubs (p : PortNo) (hw : Bool) : (s.moveHubs p hw).held = s.held := by simp [State.moveHubs]
@[simp] theorem State.held_moveTree (p : PortNo) (hw : Bool) : (s.moveTree p hw).held = s.held := by simp [State.moveTree]

@[simp] theorem State.held_applySplit (x : Split) : (s.applySplit x).held = s.held := by
  unfold State.applySplit
  split <;> simp

@[simp] theorem held_execSetSplitTakeEffect : Answer.held (execSetSplitTakeEffect s) = some s.held := by
  simp [execSetSplitTakeEffect]

@[simp] theorem State.held_loadEgress (l : List EgrEntry) : (s.loadEgress l).held = s.held := by simp [State.loadEgress]

@[simp] theorem State.held_egressData (e : CEntry) (data : List Byte) : (s.egressData e data).1.held = s.held := by
  unfold State.egressData
  (repeat' split) <;> simp

@[simp] theorem held_execEgressProgram (i : InstNo) (slot : BitVec 16) :
    Answer.held (execEgressProgram i slot s) = some s.held := by
  refine held_carryOut s fun e => ?_
  (repeat' split) <;> simp

@[simp] theorem State.held_recordStage (slot : Bool) (svn : BitVec 6) (what : BitVec 8) :
    (s.recordStage slot svn what).held = s.held := by
  simp [State.recordStage]

@[simp] theorem held_execFirmwareStage (i : InstNo) (slot : BitVec 16) :
    Answer.held (execFirmwareStage i slot s) = some s.held := by
  refine held_carryOut s fun e => ?_
  (repeat' split) <;> simp

@[simp] theorem State.held_stageData (cmd : BitVec 16) (data : List Byte) : (s.stageData cmd data).1.held = s.held := by
  unfold State.stageData
  split <;> simp

@[simp] theorem held_execFlashWriteComplete (ok : Bool) : Answer.held (execFlashWriteComplete ok s) = some s.held := by
  unfold execFlashWriteComplete
  (repeat' split) <;> simp

@[simp] theorem held_execFirmwareActivate (i : InstNo) (slot : BitVec 16) :
    Answer.held (execFirmwareActivate i slot s) = some s.held := by
  refine held_carryOut s fun e => ?_
  (repeat' split) <;> simp

@[simp] theorem held_execFirmwareDiscard (i : InstNo) (slot : BitVec 16) :
    Answer.held (execFirmwareDiscard i slot s) = some s.held := by
  refine held_carryOut s fun e => ?_
  (repeat' split) <;> simp

@[simp] theorem State.held_changeLife (b : LcState) (key : Option (BitVec 256)) : (s.changeLife b key).held = s.held := by
  simp [State.changeLife]

@[simp] theorem State.held_wahusFail (code : BitVec 8) : (s.wahusFail code).held = s.held := by simp [State.wahusFail]

@[simp] theorem State.held_lifeData (i : InstNo) (slot : BitVec 16) (b : LcState) (t : Nat) (r : List Byte) :
    (s.lifeData i slot b t r).held = s.held := by
  unfold State.lifeData
  split <;> simp

@[simp] theorem held_execLifecycle (i : InstNo) (slot : BitVec 16) : Answer.held (execLifecycle i slot s) = some s.held := by
  refine held_carryOut s fun e => ?_
  dsimp only
  (repeat' split) <;> simp

end Sys2Proof.Machine
end

section
/-!
SUPPORT. What is held stays as it is: registers, power, images and host accesses.
-/
namespace Sys2Proof.Machine

variable (s : State)

/-! ### Registers -/

@[simp] theorem State.held_through {f : State → Answer} (h : Answer.held (f s) = some s.held) : (s.through f).held = s.held := by
  unfold State.through
  split
  next t ht => simpa [ht] using h
  · rfl

@[simp] theorem State.held_writeCmdCfg (i : InstNo) (w : Word) : (s.writeCmdCfg i w).held = s.held := by simp [State.writeCmdCfg]

@[simp] theorem State.held_writeEvtCfg (i : InstNo) (e : RingNo) (w : Word) : (s.writeEvtCfg i e w).held = s.held := by
  simp [State.writeEvtCfg]

@[simp] theorem State.held_writeRng (i : InstNo) (off : Nat) (w : Word) : (s.writeRng i off w).held = s.held := by
  unfold State.writeRng
  (repeat' split) <;> simp [State.held_modMem]

@[simp] theorem State.held_writeSkm (i : InstNo) (off : Nat) (w : Word) : (s.writeSkm i off w).held = s.held := by
  simp [State.writeSkm]

@[simp] theorem State.held_writeDspCfg (w : Word) : (s.writeDspCfg w).held = s.held := by simp [State.writeDspCfg]

@[simp] theorem State.held_writeDsp (i : InstNo) (off : Nat) (w : Word) : (s.writeDsp i off w).held = s.held := by
  unfold State.writeDsp
  (repeat' split) <;> simp

@[simp] theorem State.held_writeStn (i : InstNo) (off : Nat) (w : Word) : (s.writeStn i off w).held = s.held := by
  unfold State.writeStn
  (repeat' split) <;> simp

@[simp] theorem State.held_writeScrub (w : Word) : (s.writeScrub w).held = s.held := by simp [State.writeScrub, State.held_modMem]

@[simp] theorem State.held_writeHwk (i : InstNo) (off : Nat) (w : Word) : (s.writeHwk i off w).held = s.held := by
  unfold State.writeHwk
  (repeat' split) <;> simp [State.held_modMem]

@[simp] theorem State.held_writeICnt (i : InstNo) (off : Nat) (w : Word) : (s.writeICnt i off w).held = s.held := by
  unfold State.writeICnt
  split
  · dsimp only
    split <;> simp
  · (repeat' split) <;> simp

@[simp] theorem State.held_writeMsix (i : InstNo) (count off : Nat) (w : BitVec 32) :
    (s.writeMsix i count off w).held = s.held := by
  unfold State.writeMsix
  split <;> simp

@[simp] theorem State.held_writeWindow (i : InstNo) (off : Nat) (w : Word) : (s.writeWindow i off w).held = s.held := by
  unfold State.writeWindow
  (repeat' split) <;> simp

@[simp] theorem State.held_convertIdle (p : PortNo) (a b : Speed) : (s.convertIdle p a b).held = s.held := by
  simp [State.convertIdle]

@[simp] theorem State.held_writePrtCtrl (p : PortNo) (w : Word) : (s.writePrtCtrl p w).held = s.held := by simp [State.writePrtCtrl]

@[simp] theorem State.held_writePrt (off : Nat) (w : Word) : (s.writePrt off w).held = s.held := by
  unfold State.writePrt
  (repeat' split) <;> simp

@[simp] theorem State.held_writeTre (off : Nat) (w : Word) : (s.writeTre off w).held = s.held := by simp [State.writeTre]

@[simp] theorem State.held_writeTrw (off : Nat) (w : Word) : (s.writeTrw off w).held = s.held := by
  unfold State.writeTrw
  (repeat' split) <;> simp

@[simp] theorem State.held_writeCnt (off : Nat) (w : Word) : (s.writeCnt off w).held = s.held := by
  unfold State.writeCnt
  (repeat' split) <;> simp

@[simp] theorem State.held_writePwr (off : Nat) (w : Word) : (s.writePwr off w).held = s.held := by simp [State.writePwr]

@[simp] theorem State.held_writePf (off : Nat) (w : Word) : (s.writePf off w).held = s.held := by
  unfold State.writePf
  split <;> simp

@[simp] theorem State.held_writeNative (i : InstNo) (off : Nat) (w : Word) : (s.writeNative i off w).held = s.held := by
  simp [State.writeNative]

@[simp] theorem State.held_writeForerunnerRing (e : RingNo) (reg : Nat) (w : BitVec 32) :
    (s.writeForerunnerRing e reg w).held = s.held := by
  unfold State.writeForerunnerRing
  split <;> simp

@[simp] theorem State.held_writeForerunner (off : Nat) (w : BitVec 32) : (s.writeForerunner off w).held = s.held := by
  have hrng (reg : Nat) (x : Word) := s.held_writeRng 0 reg x
  unfold State.writeForerunner
  refine State.held_of_ite rfl (State.held_of_ite (hrng _ _) (State.held_of_ite (hrng _ _) (State.held_of_ite (hrng _ _)
    (State.held_of_ite (hrng _ _) (State.held_of_ite (hrng _ _) (State.held_of_ite (s.held_writeForerunnerRing _ _ _)
    (State.held_of_ite ?_ (State.held_of_ite ?_ (State.held_of_ite (s.held_writeHwk _ _ _)
    (State.held_of_ite (s.held_writeMsix _ _ _ _) rfl))))))))))
  · dsimp only
    split <;> simp
  · simp

@[simp] theorem State.held_signalPme (i : InstNo) : (s.signalPme i).held = s.held := by simp [State.signalPme]
@[simp] theorem State.held_writeBars (off : Nat) (w : BitVec 32) : (s.writeBars off w).held = s.held := by simp [State.writeBars]

@[simp] theorem State.held_writeConfig (i : InstNo) (off : Nat) (w : Word) : (s.writeConfig i off w).held = s.held := by
  unfold State.writeConfig
  split <;> simp

@[simp] theorem held_execRegisterWrite (i : InstNo) (off : Nat) (w : Word) : Answer.held (execRegisterWrite i off w s) = some s.held := by
  unfold execRegisterWrite
  (repeat' split) <;> simp

/-! ### Power -/

@[simp] theorem State.held_egressPower : s.egressPower.held = s.held := by simp [State.egressPower]

@[simp] theorem State.held_egressResume (p : PortNo) : (s.egressResume p).held = s.held := by
  unfold State.egressResume
  (repeat' split) <;> simp

@[simp] theorem State.held_egressBranch (x : EgrEntry) : (s.egressBranch x).held = s.held := by
  unfold State.egressBranch
  split <;> simp

@[simp] theorem State.held_egressUnhalt (k : Nat) (e : Ep) : (s.egressUnhalt k e).held = s.held := by simp [State.egressUnhalt]

@[simp] theorem State.held_egressBegin : s.egressBegin.held = s.held := by
  unfold State.egressBegin
  dsimp only
  split
  · simp
  · rw [State.held_each fun t x => ?_]
    · simp
    · split <;> simp

@[simp] theorem held_execEgressNAssert : Answer.held (execEgressNAssert s) = some s.held := by
  unfold execEgressNAssert
  dsimp only
  (repeat' split) <;> simp

@[simp] theorem held_execEgressNDeassert : Answer.held (execEgressNDeassert s) = some s.held := by simp [execEgressNDeassert]

@[simp] theorem held_execEgressUnhaltRetry (ep : Nat) : Answer.held (execEgressUnhaltRetry ep s) = some s.held := by
  unfold execEgressUnhaltRetry
  (repeat' split) <;> simp

@[simp] theorem State.held_sense (v : Sensors) : (s.sense v).held = s.held := by simp [State.sense]

@[simp] theorem State.held_recordShed (old new causes : Nat) : (s.recordShed old new causes).held = s.held := by
  simp [State.recordShed]

@[simp] theorem State.held_recordThermal (k : Nat) (engaged : Bool) : (s.recordThermal k engaged).held = s.held := by
  simp [State.recordThermal]

@[simp] theorem State.held_gateFour : s.gateFour.held = s.held := by simp [State.gateFour, State.held_modMem]
@[simp] theorem State.held_ungateFour : s.ungateFour.held = s.held := by simp [State.ungateFour, State.held_modMem]

@[simp] theorem State.held_actStep (k : Nat) : (s.actStep k).held = s.held := by
  unfold State.actStep
  split <;> simp

@[simp] theorem State.held_undoStep (k : Nat) : (s.undoStep k).held = s.held := by
  unfold State.undoStep
  split <;> simp

@[simp] theorem State.held_actPending : s.actPending.held = s.held := by simp [State.actPending]
@[simp] theorem State.held_engage (k causes : Nat) : (s.engage k causes).held = s.held := by simp [State.engage]

@[simp] theorem held_execSheddingStepEngage (sens : Sensors) : Answer.held (execSheddingStepEngage sens s) = some s.held := by
  simp [execSheddingStepEngage]

@[simp] theorem State.held_pendUpshift : s.pendUpshift.held = s.held := by simp [State.pendUpshift]
@[simp] theorem State.held_retrace (k : Nat) : (s.retrace k).held = s.held := by simp [State.retrace]

@[simp] theorem held_execSheddingStepRetrace (sens : Sensors) : Answer.held (execSheddingStepRetrace sens s) = some s.held := by
  simp [execSheddingStepRetrace]

@[simp] theorem held_execMainSuppliesRemoved (rail : Rail) : Answer.held (execMainSuppliesRemoved rail s) = some s.held := by
  unfold execMainSuppliesRemoved
  split <;> simp

@[simp] theorem State.held_enterStandby : s.enterStandby.held = s.held := by simp [State.enterStandby]

@[simp] theorem held_execFunctionD3hot (fn : InstNo) : Answer.held (execFunctionD3hot fn s) = some s.held := by
  simp [execFunctionD3hot]

@[simp] theorem State.held_leaveStandby : s.leaveStandby.held = s.held := by simp [State.leaveStandby]
@[simp] theorem held_execFunctionD0 (fn : InstNo) : Answer.held (execFunctionD0 fn s) = some s.held := by simp [execFunctionD0]

@[simp] theorem held_execBusMasterEnableWrite (fn : InstNo) (v : Bool) :
    Answer.held (execBusMasterEnableWrite fn v s) = some s.held := by
  simp [execBusMasterEnableWrite]

@[simp] theorem State.held_applyRecord (img : List Byte) (k : Nat) : (s.applyRecord img k).held = s.held := by
  simp [State.applyRecord]

@[simp] theorem State.held_applyImage (img : List Byte) : (s.applyImage img).held = s.held := by
  unfold State.applyImage
  dsimp only
  (repeat' split) <;> simp

@[simp] theorem held_execConfigImageReadDone (image : List Byte) : Answer.held (execConfigImageReadDone image s) = some s.held := by
  simp [execConfigImageReadDone]

@[simp] theorem State.held_fixCompat : s.fixCompat.held = s.held := by simp [State.fixCompat]

@[simp] theorem held_execConfigImageApplied : Answer.held (execConfigImageApplied s) = some s.held := by
  simp [execConfigImageApplied]

@[simp] theorem State.held_keepEgressEps (keep : List Nat) : (s.keepEgressEps keep).held = s.held := by simp [State.keepEgressEps]
@[simp] theorem State.held_stopManager : s.stopManager.held = s.held := by simp [State.stopManager]
@[simp] theorem State.held_warmRegs : s.warmRegs.held = s.held := by simp [State.warmRegs]

@[simp] theorem State.held_portOffRefuse (p result : BitVec 8) (shown : Option PortNo) :
    (s.portOffRefuse p result shown).held = s.held := by
  unfold State.portOffRefuse
  split <;> simp

@[simp] theorem held_execSmbusPortOff (port : BitVec 8) (outranked : Bool) :
    Answer.held (execSmbusPortOff port outranked s) = some s.held := by
  unfold execSmbusPortOff
  (repeat' split) <;> simp

/-! ### Image -/

@[simp] theorem State.held_writeImage (j : InstNo) (dest : Nat) : (s.writeImage j dest).held = s.held := by simp [State.writeImage]

@[simp] theorem held_execSaveInstance (i : InstNo) (slot : BitVec 16) : Answer.held (execSaveInstance i slot s) = some s.held := by
  refine held_carryOut s fun e => ?_
  dsimp only
  (repeat' split) <;> simp

theorem State.held_of_restoreEp {s t : State} {j : InstNo} {devs : List ImgDev} {here : Bool} {b : List Byte}
    (h : s.restoreEp j devs here b = some t) : t.held = s.held := by
  have hall : ∀ u ∈ s.restoreEp j devs here b, u.held = s.held := by
    unfold State.restoreEp
    dsimp only
    (repeat' split) <;> simp
  exact hall t h

@[simp] theorem State.held_restoreRings (j : InstNo) (f : List Nat) (events : List (List Byte)) :
    (s.restoreRings j f events).held = s.held := by
  simp [State.restoreRings]

theorem State.held_of_restoreQueues {s t : State} {j : InstNo} {groups : Nat} {recs : List (List Byte)}
    (h : s.restoreQueues j groups recs = some t) : t.held = s.held := by
  unfold State.restoreQueues at h
  dsimp only at h
  split at h <;> cases h
  simp

theorem State.held_of_restoreGate {s t : State} {j : InstNo} {b : List Byte} (h : s.restoreGate j b = some t) : t.held = s.held := by
  unfold State.restoreGate at h
  dsimp only at h
  split at h <;> cases h
  simp

theorem State.held_of_restoreItem {s t : State} {j : InstNo} {f : List Nat} (h : s.restoreItem j f = some t) : t.held = s.held := by
  unfold State.restoreItem at h
  dsimp only at h
  split at h <;> cases h
  simp

theorem State.held_of_restoreChan {s t : State} {j : InstNo} {b : List Byte} (h : s.restoreChan j b = some t) : t.held = s.held := by
  unfold State.restoreChan at h
  dsimp only at h
  split at h <;> cases h
  simp

@[simp] theorem State.held_restoreCounters (j : InstNo) (b : List Byte) : (s.restoreCounters j b).held = s.held := by
  simp [State.restoreCounters]

@[simp] theorem State.held_endOp (j : InstNo) : (s.endOp j).held = s.held := by simp [State.endOp]

/-! ### Host -/

@[simp] theorem State.held_listData (i : InstNo) (slot : BitVec 16) (e : CEntry) (data : List Byte) :
    (s.listData i slot e data).held = s.held := by
  unfold State.listData
  split
  · simp
  · dsimp only
    cases h : ((s.setPhase i slot (.read data)).cmd i slot).bind ((s.setPhase i slot (.read data)).armOn i) with
    | none => simp
    | some t =>
      obtain ⟨c, -, hc⟩ := Option.bind_eq_some_iff.1 h
      simp [State.held_of_armOn hc]

@[simp] theorem State.held_recordData (i : InstNo) (slot : BitVec 16) (e : CEntry) (data : List Byte) :
    (s.recordData i slot e data).held = s.held := by
  unfold State.recordData
  (repeat' split) <;> simp

@[simp] theorem State.held_refuse (acc : HostAccess) : (s.refuse acc).held = s.held := by
  unfold State.refuse
  (repeat' split) <;> simp

@[simp] theorem held_execHostAccessRefused (acc : HostAccess) : Answer.held (execHostAccessRefused acc s) = some s.held := by
  simp [execHostAccessRefused]

@[simp] theorem held_execHostAccessTimeout (acc : HostAccess) : Answer.held (execHostAccessTimeout acc s) = some s.held := by
  simp [execHostAccessTimeout]

end Sys2Proof.Machine
end
section
/-!
SUPPORT. What is held keeps the invariant: the operations that write to a memory, wipe one or empty the snag log's buffer, and the commands
that come to them.
-/
namespace Sys2Proof.Machine

/-- The invariant, of what is held. -/
def Held.Sound (v : Held) : Prop := Memory.wf v.hawk = true ∧ Memory.wf v.store = true ∧ v.bounded = true

theorem State.inv_iff_sound (s : State) : s.Inv ↔ s.held.Sound := by
  simp only [State.Inv, Held.Sound, State.held, decide_eq_true_eq]

/-- From `v` to `w` the queue is untouched and the invariant is kept. -/
def Held.Keeps (v w : Held) : Prop := w.queue = v.queue ∧ (v.Sound → w.Sound)

theorem Held.Keeps.refl (v : Held) : v.Keeps v := ⟨rfl, id⟩

theorem Held.Keeps.trans {u v w : Held} (huv : u.Keeps v) (hvw : v.Keeps w) : u.Keeps w :=
  ⟨hvw.1.trans huv.1, fun hu => hvw.2 (huv.2 hu)⟩

@[simp] theorem Held.keeps_self (v : Held) : v.Keeps v := .refl v

variable {s : State} {v : Held}

theorem wf_filter {m : List Host.Cell} (p : Host.Cell → Bool) (h : Memory.wf m = true) : Memory.wf (m.filter p) = true := by
  induction m with
  | nil => rfl
  | cons e m ih =>
    obtain ⟨a, b⟩ := e
    obtain ⟨hb, hlt, hm⟩ := (wf_cons a b m).1 h
    rw [List.filter_cons]
    split
    · exact (wf_cons a b _).2 ⟨hb, fun e he => hlt e (List.mem_of_mem_filter he), ih hm⟩
    · exact ih hm

theorem State.keeps_each {α : Type} {f : State → α → State} (h : v.Keeps s.held)
    (hf : ∀ t x, v.Keeps t.held → v.Keeps (f t x).held) (l : List α) : v.Keeps (s.each l f).held := by
  unfold State.each
  induction l generalizing s with
  | nil => exact h
  | cons x l ih => exact ih (hf s x h)

@[simp] theorem State.keeps_hawkWrite (h : v.Keeps s.held) (i : InstNo) (off : Nat) (bs : List Byte) :
    v.Keeps (s.hawkWrite i off bs).held :=
  h.trans ⟨rfl, fun ⟨hhawk, hstore, hb⟩ => ⟨hawkWrite_wf s i off bs hhawk, hstore, hb⟩⟩

@[simp] theorem State.keeps_storeWrite (h : v.Keeps s.held) (off : Nat) (bs : List Byte) : v.Keeps (s.storeWrite off bs).held :=
  h.trans ⟨rfl, fun ⟨hhawk, hstore, hb⟩ => ⟨hhawk, storeWrite_wf s off bs hstore, hb⟩⟩

@[simp] theorem State.keeps_zeroUnits (h : v.Keeps s.held) (us : List Nat) : v.Keeps (s.zeroUnits us).held :=
  h.trans ⟨rfl, fun ⟨hhawk, hstore, hb⟩ => ⟨wf_filter _ hhawk, hstore, hb⟩⟩

/-- Bytes of the stencil store are zeroed. -/
theorem State.keeps_filterStore (h : v.Keeps s.held) (p : Host.Cell → Bool) :
    v.Keeps (s.modMem fun m => { m with store := m.store.filter p }).held :=
  h.trans ⟨rfl, fun ⟨hhawk, hstore, hb⟩ => ⟨hhawk, wf_filter _ hstore, hb⟩⟩

@[simp] theorem State.keeps_wipe (h : v.Keeps s.held) : v.Keeps s.wipe.held :=
  h.trans ⟨rfl, fun ⟨_, _, hb⟩ => ⟨rfl, rfl, hb⟩⟩

/-- An empty buffer is within its bound. -/
theorem State.keeps_emptyBuffer (h : v.Keeps s.held) {t : State} (hq : t.pending = s.pending) (hm : t.mem = s.mem)
    (hb : t.snag.buffer = []) : v.Keeps t.held := by
  refine h.trans ⟨hq, fun ⟨hhawk, hstore, _⟩ => ?_⟩
  unfold State.held
  rw [hm, hb]
  exact ⟨hhawk, hstore, rfl⟩

@[simp] theorem State.keeps_toOff (h : v.Keeps s.held) : v.Keeps s.toOff.held := by
  have hlow : v.Keeps (if s.allPowerLow.pw.wakeN then s.allPowerLow.emit (.wakeN false) else s.allPowerLow).held := by simp [h]
  rw [← State.held_toPrime _ 1] at hlow
  unfold State.toOff
  dsimp only
  generalize State.toPrime _ 1 = t at hlow ⊢
  exact State.keeps_emptyBuffer hlow rfl rfl rfl

@[simp] theorem State.keeps_regionWrite (h : v.Keeps s.held) (e : Ep) (off : Nat) (bs : List Byte) (k : TrowelNo) :
    v.Keeps (s.regionWrite e off bs k).held := by
  unfold State.regionWrite
  split <;> simp [h]

@[simp] theorem State.keeps_streamWrite (h : v.Keeps s.held) (x : Nat) (bs : List Byte) (k : TrowelNo) :
    v.Keeps (s.streamWrite x bs k).held := by
  unfold State.streamWrite
  split <;> simp [h]

@[simp] theorem State.keeps_periodicIn (h : v.Keeps s.held) (x : Nat) (d : DataBlock) (k : TrowelNo) :
    v.Keeps (s.periodicIn x d k).held := by
  unfold State.periodicIn
  dsimp only
  (repeat' split) <;> simp [h]

@[simp] theorem State.keeps_acceptBlock (h : v.Keeps s.held) (w : Holder) (d : DataBlock) (k : TrowelNo) :
    v.Keeps (s.acceptBlock w d k).held := by
  cases w <;> simp [State.acceptBlock, h]

@[simp] theorem State.keeps_inPacket (h : v.Keeps s.held) (p : PortNo) (r : Round) (pkt : Received) (now : Nat) :
    v.Keeps (s.inPacket p r pkt now).held := by
  unfold State.inPacket
  dsimp only
  (repeat' split) <;> simp [h]

@[simp] theorem State.keeps_packetIn (h : v.Keeps s.held) (p : PortNo) (pkt : Received) (now : Nat) :
    v.Keeps (s.packetIn p pkt now).held := by
  unfold State.packetIn
  (repeat' split) <;> simp [h]

@[simp] theorem State.keeps_received (h : v.Keeps s.held) (p : PortNo) (pkt : List Byte) (now : Nat) :
    v.Keeps (s.received p pkt now).held := by
  unfold State.received
  dsimp only
  (repeat' split) <;> simp [h]

@[simp] theorem State.keeps_areaWrite (h : v.Keeps s.held) (c : ChanNo) (k off : Nat) (bs : List Byte) :
    v.Keeps (s.areaWrite c k off bs).held := by
  unfold State.areaWrite
  dsimp only
  (repeat' split) <;> simp [h]

@[simp] theorem State.keeps_overlapWrite (h : v.Keeps s.held) (c : ChanNo) (k off : Nat) (bs : List Byte) :
    v.Keeps (s.overlapWrite c k off bs).held := by
  refine State.keeps_each h (fun t x ht => ?_) _
  split <;> simp [ht]

@[simp] theorem State.keeps_setQuota (h : v.Keeps s.held) (i : InstNo) (units regions : Nat) :
    v.Keeps (s.setQuota i units regions).held := by
  simp [State.setQuota, h]

@[simp] theorem State.keeps_clearUnits (h : v.Keeps s.held) (i : InstNo) : v.Keeps (s.clearUnits i).held := by
  simp [State.clearUnits, State.keeps_filterStore, h]

@[simp] theorem State.keeps_wipeInst (h : v.Keeps s.held) (i : InstNo) : v.Keeps (s.wipeInst i).held := by
  simp [State.wipeInst, h]

@[simp] theorem State.keeps_disableInst (h : v.Keeps s.held) (i : InstNo) : v.Keeps (s.disableInst i).held := by
  simp [State.disableInst, h]

@[simp] theorem State.keeps_flrWiped (h : v.Keeps s.held) (i : InstNo) : v.Keeps (s.flrWiped i).held := by
  simp [State.flrWiped, h]

@[simp] theorem State.keeps_disableVf (h : v.Keeps s.held) (i : InstNo) : v.Keeps (s.disableVf i).held := by
  unfold State.disableVf
  dsimp only
  (repeat' split) <;> simp [h]

@[simp] theorem State.keeps_warmReset (h : v.Keeps s.held) (cause : BitVec 4) (down : Bool) :
    v.Keeps (s.warmReset cause down).held := by
  simp only [State.warmReset, State.held_warmRegs, State.held_stopManager, State.held_leaveShared]
  refine State.keeps_each (by simp [h]) (fun t x ht => ?_) _
  split <;> simp [ht]

@[simp] theorem State.keeps_warmFrom (h : v.Keeps s.held) (cause : BitVec 4) (down : Bool) :
    v.Keeps (s.warmFrom cause down).held := by
  unfold State.warmFrom
  (repeat' split) <;> simp [h]

theorem State.keeps_of_grantShare {t : State} {j : InstNo} {f : List Nat} {devs : List ImgDev} (h : v.Keeps s.held)
    (ht : s.grantShare j f devs = some t) : v.Keeps t.held := by
  unfold State.grantShare at ht
  dsimp only at ht
  split at ht
  · cases ht
  · obtain ⟨base, -, hbase⟩ := Option.bind_eq_some_iff.1 ht
    obtain ⟨st, -, rfl⟩ := Option.map_eq_some_iff.1 hbase
    simp [h]

/-- Grants one after another, none of which changes what is held. -/
theorem State.held_of_grantEach {α : Type} {f : State → α → Option State} (hf : ∀ {t u x}, f t x = some u → u.held = t.held)
    {l : List α} {t : State} (ht : s.grantEach l f = some t) : t.held = s.held := by
  have hfold (l : List α) : ∀ o : Option State, l.foldl (fun a x => a.bind fun s => f s x) o = some t →
      ∃ u, o = some u ∧ t.held = u.held := by
    induction l with
    | nil => exact fun o ho => ⟨t, ho, rfl⟩
    | cons x l ih =>
      intro o ho
      obtain ⟨w, hw, htw⟩ := ih _ ho
      obtain ⟨u, rfl, hu⟩ := Option.bind_eq_some_iff.1 hw
      exact ⟨u, rfl, htw.trans (hf hu)⟩
  obtain ⟨u, hu, htu⟩ := hfold l (some s) ht
  rw [htu, ← Option.some.inj hu]

theorem State.keeps_of_applyInstance {t : State} {j : InstNo} {img : List Byte} (h : v.Keeps s.held)
    (ht : s.applyInstance j img = some t) : v.Keeps t.held := by
  unfold State.applyInstance at ht
  dsimp only at ht
  obtain ⟨s1, h1, ht⟩ := Option.bind_eq_some_iff.1 ht
  obtain ⟨s2, h2, ht⟩ := Option.bind_eq_some_iff.1 ht
  obtain ⟨s3, h3, ht⟩ := Option.bind_eq_some_iff.1 ht
  obtain ⟨s4, h4, ht⟩ := Option.bind_eq_some_iff.1 ht
  obtain ⟨s5, h5, ht⟩ := Option.bind_eq_some_iff.1 ht
  obtain ⟨s6, h6, rfl⟩ := Option.map_eq_some_iff.1 ht
  rw [State.held_restoreCounters]
  refine State.keeps_each ?_ (fun u x hu => by simp [hu]) _
  rw [State.held_of_grantEach State.held_of_restoreChan h6, State.held_of_grantEach State.held_of_restoreItem h5,
    State.held_of_grantEach State.held_of_restoreGate h4, State.held_of_restoreQueues h3, State.held_restoreRings,
    State.held_of_grantEach State.held_of_restoreEp h2]
  refine State.keeps_each ?_ (fun u x hu => by simp [hu]) _
  rw [State.held_each fun u x => ?_]
  · exact State.keeps_of_grantShare h h1
  · split <;> simp

@[simp] theorem State.keeps_unRestore (h : v.Keeps s.held) (j : InstNo) : v.Keeps (s.unRestore j).held := by
  simp [State.unRestore, h]

@[simp] theorem State.keeps_restoreData (h : v.Keeps s.held) (slot : BitVec 16) (e : CEntry) (data : List Byte) :
    v.Keeps (s.restoreData slot e data).held := by
  unfold State.restoreData
  dsimp only
  split
  · simp [h]
  · split
    · simp [h]
    · split
      · simp [h]
      · split
        · simp [h]
        · split
          · simp [h]
          next t ht => simp [State.keeps_of_applyInstance (v := v) (by simp [h]) ht]

theorem State.keeps_of_restoreOn {t : State} {i : InstNo} {slot : BitVec 16} (h : v.Keeps s.held)
    (ht : s.restoreOn i slot = some t) : v.Keeps t.held := by
  unfold State.restoreOn at ht
  split at ht
  · split at ht
    · rw [← Option.some.inj ht]
      exact State.keeps_restoreData h _ _ _
    · cases ht
  · cases ht

@[simp] theorem State.keeps_loadData (h : v.Keeps s.held) (i : InstNo) (slot : BitVec 16) (e : CEntry) (data : List Byte) :
    v.Keeps (s.loadData i slot e data).held := by
  simp [State.loadData, h]

@[simp] theorem State.keeps_commandData (h : v.Keeps s.held) (i : InstNo) (slot : BitVec 16) (e : CEntry) (data : List Byte) :
    v.Keeps (s.commandData i slot e data).held := by
  have hstage := s.held_stageData slot data
  unfold State.commandData
  split
  · simp [h]
  · simp [h]
  · simp [h]
  · simp [h]
  · split
    · exact h
    · split
      next t st ht =>
        rw [ht] at hstage
        simp [hstage, h]
      next t ht =>
        rw [ht] at hstage
        simp [hstage, h]
  · simp [h]
  · exact h

/-! ### Commands -/

/-- A command answers a next state; from the state given to it the queue is untouched and the invariant is kept. -/
def Answer.KeptFrom (s : State) (o : Answer) : Prop := ∃ w, Answer.held o = some w ∧ s.held.Keeps w

theorem Answer.keptFrom_of_held {o : Answer} (h : Answer.held o = some s.held) : Answer.KeptFrom s o := ⟨_, h, .refl _⟩

@[simp] theorem Answer.keptFrom_next {t : State} : Answer.KeptFrom s (.next t) ↔ s.held.Keeps t.held := by
  simp [Answer.KeptFrom]

@[simp] theorem Answer.keptFrom_done {t : State} : Answer.KeptFrom s (done t) ↔ s.held.Keeps t.held := by
  simp [Answer.KeptFrom]

theorem keptFrom_vddAonLoss : Answer.KeptFrom s (execVddAonLoss s) := by
  unfold execVddAonLoss
  split <;> simp

theorem keptFrom_firstWipeComplete : Answer.KeptFrom s (execFirstWipeComplete s) := by
  unfold execFirstWipeComplete
  split <;> simp

theorem keptFrom_selfTestComplete (failed : Option (BitVec 8)) (dir0 dir1 : List Byte) :
    Answer.KeptFrom s (execSelfTestComplete failed dir0 dir1 s) := by
  unfold execSelfTestComplete
  dsimp only
  (repeat' split) <;> simp

theorem keptFrom_snagLogFlush : Answer.KeptFrom s (execSnagLogFlush s) := by
  unfold execSnagLogFlush
  split
  · simp
  · have hput : s.held.Keeps (s.each s.snag.buffer.reverse fun s e =>
        s.emit (.flash (0x450000 + 32 * (e.sseq.toNat % 8192)) e.bytes)).held := by simp
    exact Answer.keptFrom_next.2 (State.keeps_emptyBuffer hput rfl rfl rfl)

theorem keptFrom_stagingComplete (txn : Nat) (data : List Byte) (ecc : Ecc) :
    Answer.KeptFrom s (execStagingComplete txn data ecc s) := by
  have hstream (bs : List (List Byte)) (x : Nat) (k : TrowelNo) : s.held.Keeps (bs.foldl (fun s b => s.streamWrite x b k) s).held :=
    State.keeps_each (.refl _) (fun t b ht => State.keeps_streamWrite ht x b k) bs
  unfold execStagingComplete
  dsimp only
  (repeat' split) <;> simp [hstream]

theorem keptFrom_stencilMove (c : ChanNo) (row : StnRow) (src : List Byte) (ecc : Ecc) :
    Answer.KeptFrom s (execStencilMove c row src ecc s) := by
  refine stencilStep_all s (.refl _) fun t w ht => ?_
  dsimp only
  (repeat' split) <;> simp [ht]

theorem keptFrom_stencilFill (c : ChanNo) (row : StnRow) : Answer.KeptFrom s (execStencilFill c row s) := by
  refine stencilStep_all s (.refl _) fun t w ht => ?_
  dsimp only
  (repeat' split) <;> simp [ht]

theorem keptFrom_setShare (i : InstNo) (slot : BitVec 16) : Answer.KeptFrom s (execSetShare i slot s) := by
  refine carryOut_all s (.refl _) fun e => ?_
  dsimp only
  (repeat' split) <;> simp [State.keeps_filterStore]

theorem keptFrom_hawkQuota (i : InstNo) (slot : BitVec 16) : Answer.KeptFrom s (execHawkQuota i slot s) := by
  refine carryOut_all s (.refl _) fun e => ?_
  dsimp only
  (repeat' split) <;> simp

theorem keptFrom_resetInstance (i : InstNo) (slot : BitVec 16) : Answer.KeptFrom s (execResetInstance i slot s) := by
  refine carryOut_all s (.refl _) fun e => ?_
  dsimp only
  (repeat' split) <;> simp

theorem keptFrom_flrWipe (i : InstNo) : Answer.KeptFrom s (execFlrWipe i s) := by
  unfold execFlrWipe
  dsimp only
  (repeat' split) <;> simp

theorem keptFrom_vfEnableClear : Answer.KeptFrom s (execVfEnableClear s) := by
  unfold execVfEnableClear
  split
  · simp
  · simp only [Answer.keptFrom_done, State.held_leaveShared]
    exact State.keeps_each (by simp) (fun t i ht => State.keeps_disableVf ht i) _

theorem keptFrom_restoreInstance (i : InstNo) (slot : BitVec 16) : Answer.KeptFrom s (execRestoreInstance i slot s) := by
  unfold execRestoreInstance
  split
  next t ht => exact Answer.keptFrom_done.2 (State.keeps_of_restoreOn (.refl _) ht)
  · refine carryOut_all s (.refl _) fun e => ?_
    (repeat' split) <;> simp

theorem keptFrom_commandHostReadComplete (i : InstNo) (slot : BitVec 16) (data : List Byte) :
    Answer.KeptFrom s (execCommandHostReadComplete i slot data s) := by
  unfold execCommandHostReadComplete
  (repeat' split) <;> simp

end Sys2Proof.Machine
end

section
/-! The invariant (O2). -/
namespace Sys2Proof.Machine

/-- Every command, in every state. -/
theorem exec_keptFrom (c : Instr) (s : State) : Answer.KeptFrom s (exec c s) := by
  cases c with
  | vddAonLoss => exact keptFrom_vddAonLoss
  | firstWipeComplete => exact keptFrom_firstWipeComplete
  | selfTestComplete failed dir0 dir1 => exact keptFrom_selfTestComplete failed dir0 dir1
  | snagLogFlush => exact keptFrom_snagLogFlush
  | pcieHotReset | pcieLinkDown | pfFunctionLevelReset => exact Answer.keptFrom_next.2 (State.keeps_warmFrom (.refl _) _ _)
  | stagingComplete txn data ecc => exact keptFrom_stagingComplete txn data ecc
  | dataBlockReceived p pkt now | ackReceived p pkt now | stallReceived p pkt now | corruptPacketReceived p pkt now =>
    exact Answer.keptFrom_done.2 (State.keeps_received (.refl _) p pkt now)
  | stencilMove c row src ecc => exact keptFrom_stencilMove c row src ecc
  | stencilFill c row => exact keptFrom_stencilFill c row
  | setShare i slot => exact keptFrom_setShare i slot
  | hawkQuota i slot => exact keptFrom_hawkQuota i slot
  | resetInstance i slot => exact keptFrom_resetInstance i slot
  | flrWipe i => exact keptFrom_flrWipe i
  | vfEnableClear => exact keptFrom_vfEnableClear
  | restoreInstance i slot => exact keptFrom_restoreInstance i slot
  | commandHostReadComplete i slot data => exact keptFrom_commandHostReadComplete i slot data
  | _ => exact Answer.keptFrom_of_held (by simp [exec])

/-- Settles O2: every command keeps what is held, in every state. -/
theorem invKept : Obligations.InvKept := by
  intro s t hs ht
  unfold step at ht
  split at ht
  · cases ht
    exact hs
  next c rest _ =>
    obtain ⟨w, hw, -, hsound⟩ := exec_keptFrom c { s with pending := rest }
    rw [ht, Answer.held_next, Option.some.injEq] at hw
    rw [State.inv_iff_sound, hw]
    exact hsound ((State.inv_iff_sound _).1 hs)

end Sys2Proof.Machine
end

section
/-! Hawk regions: what a descriptor write needs (O21), and the carved extent (O22). -/
namespace Sys2Proof.Machine

/-- Regions share no unit where one ends at or before the other's base. -/
theorem Region.overlaps_eq_false {a b : Region} : a.overlaps b = false ↔ b.base + b.units ≤ a.base ∨ a.base + a.units ≤ b.base := by
  simp only [Region.overlaps, Bool.and_eq_false_iff, decide_eq_false_iff_not, Nat.not_lt]

/-- What `regionOk` checks (R228). -/
theorem State.regionOk_iff (s : State) (i : InstNo) (d : Nat) (r : Region) :
    s.regionOk i d r = true ↔
      d < (s.inst i).regionQuota ∧ s.regionInUse i d = false ∧
      (r.valid = true → 0 < r.units ∧ r.base + r.units ≤ (s.inst i).unitMap.length ∧
        ∀ k x, (k, x) ∈ (s.inst i).regions → k ≠ d → x.valid = true → x.overlaps r = false) := by
  have hmeets : (∀ k x, (k, x) ∈ (s.inst i).regions → k ≠ d → x.valid = true → x.overlaps r = false) ↔
      ((s.inst i).regions.any fun (k, x) => k != d && x.valid && x.overlaps r) = false := by
    simp
  rw [hmeets]
  cases hr : r.valid <;> simp [State.regionOk, hr, Nat.pos_iff_ne_zero, and_assoc]

/-- Settles O21: two regions that share no unit stand one above the other. -/
theorem regionsDisjoint : Obligations.RegionsDisjoint := by
  intro s i d r h
  obtain ⟨hquota, hfree, hvalid⟩ := (s.regionOk_iff i d r).1 h
  refine ⟨hquota, hfree, fun hr => ?_⟩
  obtain ⟨hunits, hfits, hapart⟩ := hvalid hr
  exact ⟨hunits, hfits, fun k x hx hk hxv => (Region.overlaps_eq_false.1 (hapart k x hx hk hxv)).symm⟩

/-! ### The carved extent (R227) -/

/-- The greatest of `f` over the members of a list that pass is where it began, or is `f` of one that passes. -/
theorem foldl_max_attained {α : Type} (pass : α → Bool) (f : α → Nat) (l : List α) (a : Nat) :
    l.foldl (fun a k => if pass k then max a (f k) else a) a = a ∨
      ∃ k ∈ l, pass k = true ∧ l.foldl (fun a k => if pass k then max a (f k) else a) a = f k := by
  induction l generalizing a with
  | nil => exact .inl rfl
  | cons x l ih =>
    rw [List.foldl_cons]
    obtain h | ⟨k, hk, hpass, h⟩ := ih (if pass x then max a (f x) else a)
    · rw [h]
      by_cases hx : pass x = true
      · obtain hmax | hmax := max_choice a (f x)
        · exact .inl (by rw [if_pos hx, hmax])
        · exact .inr ⟨x, List.mem_cons_self, hx, by rw [if_pos hx, hmax]⟩
      · exact .inl (if_neg hx)
    · exact .inr ⟨k, List.mem_cons_of_mem _ hk, hpass, h⟩

variable {n : Inst} {d : Nat} {r : Region}

theorem Inst.end_le_carved (hr : (d, r) ∈ n.regions) (hv : r.valid = true) : r.base + r.units ≤ n.carved :=
  (foldl_max_ge (fun x : Nat × Region => x.2.valid) (fun x => x.2.base + x.2.units) n.regions 0).2 (d, r) hr hv

theorem Inst.lt_highRegion (hr : (d, r) ∈ n.regions) (hv : r.valid = true) : d < n.highRegion :=
  (foldl_max_ge (fun x : Nat × Region => x.2.valid) (fun x => x.1 + 1) n.regions 0).2 (d, r) hr hv

/-- An extent above 0 is the end of a valid region. -/
theorem Inst.carved_eq_end (h : n.carved ≠ 0) : ∃ d r, (d, r) ∈ n.regions ∧ r.valid = true ∧ n.carved = r.base + r.units := by
  obtain h0 | ⟨⟨d, r⟩, hr, hv, hend⟩ := foldl_max_attained (fun x : Nat × Region => x.2.valid) (fun x => x.2.base + x.2.units) n.regions 0
  · exact absurd h0 h
  · exact ⟨d, r, hr, hv, hend⟩

variable {s : State} {i j : InstNo} {slot : BitVec 16} {e : CEntry}

theorem execHawkQuota_of_below (hj : s.instOf (fld e 69 64) = some j) (ho : s.Ordered i slot 0x43 anyForm e) (hu : fld e 95 80 ≤ 32768)
    (hr : fld e 106 96 ≤ 1024) (hfit : ((othersOf j).map fun k => (s.inst k).unitMap.length).sum + fld e 95 80 ≤ 32768)
    (hrfit : ((othersOf j).map fun k => (s.inst k).regionQuota).sum + fld e 106 96 ≤ 1024)
    (hbelow : fld e 95 80 < (s.inst j).carved ∨ fld e 106 96 < (s.inst j).highRegion) :
    exec (.hawkQuota i slot) s = .next (s.replied i slot .shareBelowReserved 0) := by
  refine carryOut_ends ho rfl ?_
  simp only [hj]
  refine (if_neg ?_).trans ((if_neg ?_).trans (if_pos ?_))
  · simp [hu, hr]
  · change ¬ (decide (32768 < ((othersOf j).map fun k => (s.inst k).unitMap.length).sum + fld e 95 80) ||
      decide (1024 < ((othersOf j).map fun k => (s.inst k).regionQuota).sum + fld e 106 96)) = true
    simp [hfit, hrfit]
  · simpa using hbelow

/-- Settles O22: the extent bounds the end of every valid region and, above 0, is the end of one; a quota below it is refused. -/
theorem carvedExtent : Obligations.CarvedExtent := by
  refine ⟨fun n d r x hr hv _ hend => hend.trans_le (Inst.end_le_carved hr hv), fun n hunits hn => ?_, ?_⟩
  · obtain ⟨d, r, hr, hv, hend⟩ := Inst.carved_eq_end hn
    have := hunits d r hr hv
    exact ⟨d, r, hr, hv, by omega, by omega⟩
  · intro s i slot e j ho hj others hu hr hfit hrfit hbelow
    exact execHawkQuota_of_below hj ho hu hr hfit hrfit
      (hbelow.imp_right fun ⟨d, r, hr, hv, hle⟩ => hle.trans_lt (Inst.lt_highRegion hr hv))

end Sys2Proof.Machine
end

section
/-! SUPPORT. Picks (R203, R208): what joins a port's queue, and what the use of a context reads. -/
namespace Sys2Proof.Machine

variable {s t u : State} {p : PortNo} {r : Ready} {n : Nat} {rs : List Ready} {t0 : Nat}

/-- A context that is not cached is read from the store, unless its read is under way (R102). -/
theorem State.out_touch (s : State) (k : Nat) :
    (s.touch k).out = s.out ∨
      s.cachedOf (.ep k) = false ∧ (s.touch k).out = .hostRead 0 (s.mem.bsBase.toNat + 64 * k) 64 :: s.out := by
  by_cases hc : s.cachedOf (.ep k) = true
  · obtain ⟨m, hm⟩ := s.touchOf_of_cached hc
    exact .inl (congrArg State.out hm :)
  · have hmiss : ¬ ((!s.mem.bsLock) = true) ∧ ¬ (s.mem.cache.contains k = true) := by simpa [State.cachedOf] using hc
    obtain ⟨hlock, hcache⟩ := hmiss
    have hbase (u : State) (o : Occ) : (u.count o).mem.bsBase = u.mem.bsBase :=
      (congrArg (·.mem.bsBase) (u.bare_count o) : (u.count o).bare.mem.bsBase = u.bare.mem.bsBase)
    simp only [State.touch, if_neg hlock, if_neg hcache]
    split
    · exact .inl rfl
    · refine .inr ⟨by simpa using hc, ?_⟩
      simp only [State.hostRead, State.out_count, State.emit, hbase]
      rfl

theorem State.ports_touch (s : State) (k : Nat) : (s.touch k).ports = s.ports := by
  obtain ⟨m, hm⟩ := s.bare_touch k
  exact (State.ports_of_bare hm :)

theorem State.pl_touch (s : State) (k : Nat) : (s.touch k).pl = s.pl := by
  obtain ⟨m, hm⟩ := s.bare_touch k
  exact (congrArg State.pl hm : (s.touch k).bare.pl = _)

/-- What the picks of a port work on. -/
def State.desk (s : State) (p : PortNo) : Planner × List Out × Mems × Nat × List Txn := (s.pl, s.out, s.mem, s.nextId, (s.port p).queue)

/-- From `s` to `t` at most one transaction joins the end of the port's queue, and at most one context is read from the store. -/
def State.MayPick (p : PortNo) (s t : State) : Prop :=
  t.pl = s.pl ∧
  (t.out = s.out ∨ ∃ z, s.cachedOf (.ep z) = false ∧ t.out = .hostRead 0 (s.mem.bsBase.toNat + 64 * z) 64 :: s.out) ∧
  ((t.port p).queue = (s.port p).queue ∨
    ∃ x : Txn, (t.port p).queue = (s.port p).queue ++ [x] ∧ x.id = s.nextId ∧ x.port = p ∧ x.phase = .queued ∧ x.sent = 0 ∧ 0 < x.n)

theorem State.MayPick.refl (s : State) : State.MayPick p s s := ⟨rfl, .inl rfl, .inl rfl⟩

theorem State.MayPick.of_desk (h : u.desk p = s.desk p) (hu : State.MayPick p u t) : State.MayPick p s t := by
  obtain ⟨hpl, hout, hmem, hid, hqueue⟩ : u.pl = s.pl ∧ u.out = s.out ∧ u.mem = s.mem ∧ u.nextId = s.nextId ∧
      (u.port p).queue = (s.port p).queue := by simpa [State.desk] using h
  have hcached (z : Nat) : u.cachedOf (.ep z) = s.cachedOf (.ep z) := by rw [State.cachedOf, hmem]; rfl
  simpa only [State.MayPick, hpl, hout, hmem, hid, hqueue, hcached] using hu

theorem State.MayPick.desk_eq (hu : State.MayPick p s u) (h : t.desk p = u.desk p) : State.MayPick p s t := by
  obtain ⟨hpl, hout, -, -, hqueue⟩ : t.pl = u.pl ∧ t.out = u.out ∧ t.mem = u.mem ∧ t.nextId = u.nextId ∧
      (t.port p).queue = (u.port p).queue := by simpa [State.desk] using h
  simpa only [State.MayPick, hpl, hout, hqueue] using hu

theorem State.MayPick.length_le (h : State.MayPick p s t) : (t.port p).queue.length ≤ (s.port p).queue.length + 1 := by
  obtain ⟨-, -, hq | ⟨x, hq, -⟩⟩ := h <;> simp [hq]

/-- The transaction that a pick makes of a ready round (R203). -/
def State.pickedTxn (s : State) (p : PortNo) (r : Ready) (n : Nat) (arb : Bool) : Txn :=
  { id := s.nextId, port := p, inst := r.inst, who := r.who, kind := r.want.kind, n := n, s := r.want.s
    sent := 0, phase := .queued, arb := arb, data := [], started := false, resent := false }

/-- The state with that transaction in the port's queue, before its holder is marked as picked. -/
def State.queuing (s : State) (p : PortNo) (r : Ready) (n : Nat) (arb : Bool) : State :=
  (s.takeId.modPort p fun x => { x with queue := x.queue ++ [s.pickedTxn p r n arb] }).modInst r.inst fun i =>
    { i with turns := vset i.turns p (r.key + 1) }

theorem State.pick_eq (s : State) (p : PortNo) (r : Ready) (n : Nat) (arb : Bool) :
    s.pick p r n arb = match r.who with
      | .ep k => ((s.queuing p r n arb).touch k).modEp k fun e => { e with picked := true }
      | .own q => (s.queuing p r n arb).modOwn q fun x => { x with picked := true }
      | .hub _ => s.queuing p r n arb := rfl

theorem State.queue_queuing (s : State) (p : PortNo) (r : Ready) (n : Nat) (arb : Bool) :
    ((s.queuing p r n arb).port p).queue = (s.port p).queue ++ [s.pickedTxn p r n arb] := by
  simp [State.queuing]

/-- A round with blocks is picked. -/
theorem State.mayPick_pick (s : State) (p : PortNo) (r : Ready) (arb : Bool) (hn : 0 < n) : State.MayPick p s (s.pick p r n arb) := by
  have hjoins (t : State) (ht : t.ports = (s.queuing p r n arb).ports) : ∃ x : Txn, (t.port p).queue = (s.port p).queue ++ [x] ∧
      x.id = s.nextId ∧ x.port = p ∧ x.phase = .queued ∧ x.sent = 0 ∧ 0 < x.n :=
    ⟨s.pickedTxn p r n arb, (congrArg (fun v => (vget v p).queue) ht).trans (s.queue_queuing p r n arb), rfl, rfl, rfl, rfl, hn⟩
  rw [State.pick_eq]
  cases r.who with
  | ep k =>
    let u := s.queuing p r n arb
    exact ⟨u.pl_touch k, (u.out_touch k).imp_right fun h => ⟨k, h⟩, .inr (hjoins _ (u.ports_touch k))⟩
  | own q => exact ⟨rfl, .inl rfl, .inr (hjoins _ rfl)⟩
  | hub z => exact ⟨rfl, .inl rfl, .inr (hjoins _ rfl)⟩

/-- A control round that is picked has blocks. -/
theorem State.controlPick_pos (h : s.controlPick p rs t0 = some (r, n)) : 0 < n := by
  obtain ⟨i, -, hi⟩ := List.exists_of_findSome?_eq_some h
  obtain ⟨r', -, hr⟩ := Option.bind_eq_some_iff.1 hi
  dsimp only at hr
  split at hr
  · cases hr
  next hn =>
    obtain ⟨-, rfl⟩ := Prod.mk.inj (Option.some.inj hr)
    exact Nat.pos_of_ne_zero hn

theorem State.desk_modPort (s : State) (p : PortNo) {f : Port → Port} (hf : ∀ x : Port, (f x).queue = x.queue) :
    (s.modPort p f).desk p = s.desk p := by
  simp [State.desk, hf]

/-! ### The deficit arbitration (R187) -/

theorem State.desk_zeroIdle (s : State) (p : PortNo) : (s.zeroIdle p).desk p = s.desk p := by
  refine State.each_keeps (State.desk · p) (fun t i => ?_) _ s
  split <;> rfl

theorem State.desk_chargeTurns (s : State) (p : PortNo) (ts : List Turn) (b : Turn) : (s.chargeTurns p ts b).desk p = s.desk p := by
  refine State.each_keeps (State.desk · p) (fun t i => ?_) _ s
  dsimp only
  split <;> rfl

theorem State.mayPick_arbitrate (s : State) (p : PortNo) (rs : List Ready) (t0 : Nat) : State.MayPick p s (s.arbitrate p rs t0) := by
  unfold State.arbitrate
  dsimp only
  split
  · exact (State.MayPick.refl s).desk_eq (s.desk_zeroIdle p)
  next b _ =>
    have hdesk (f : Port → Port) (hf : ∀ x : Port, (f x).queue = x.queue) :
        (((s.zeroIdle p).chargeTurns p ((s.zeroIdle p).turnsOf p rs t0) b).modPort p f).desk p = s.desk p :=
      (State.desk_modPort _ p hf).trans ((State.desk_chargeTurns _ p _ b).trans (s.desk_zeroIdle p))
    split
    · exact (State.MayPick.refl s).desk_eq (hdesk _ fun _ => rfl)
    next hn =>
      refine State.MayPick.of_desk ?_ (State.mayPick_pick _ p b.ready true (Nat.pos_of_ne_zero hn))
      exact hdesk _ fun _ => rfl

/-! ### BULK_PICK -/

/-- A pick adds one transaction at most to a queue that has room for it, and none to any other. -/
theorem execBulkPick_mayPick (s : State) (p : PortNo) (now : Nat) : ∃ t, exec (.bulkPick p now) s = .next t ∧ State.MayPick p s t ∧
    (4 ≤ (s.port p).queue.length → t = s) := by
  simp only [exec, execBulkPick]
  split
  · exact ⟨s, rfl, .refl s, fun _ => rfl⟩
  next hopen =>
    have hroom : ¬ 4 ≤ (s.port p).queue.length := fun h => hopen (by simp [h])
    split
    next r n hr =>
      split at hr
      · exact ⟨_, rfl, (s.mayPick_pick p r false (State.controlPick_pos hr)).desk_eq (State.desk_modPort _ p fun _ => rfl),
          (absurd · hroom)⟩
      · cases hr
    · split
      · exact ⟨s, rfl, .refl s, fun _ => rfl⟩
      · exact ⟨_, rfl, s.mayPick_arbitrate p _ _, (absurd · hroom)⟩

theorem execBulkPick_of_control {now : Nat} (hen : (s.port p).st = .enabled) (ha : s.alive = true) (hrec : (s.port p).recovering = false)
    (htok : (s.port p).tokenWait = false) (hroom : (s.port p).queue.length < 4) (hst : s.pw.mode ≠ .standby) (hact : s.pw.acted < 6)
    (hshare : (s.port p).ctrlUsed < controlShare (s.port p).speed)
    (hpick : s.controlPick p (s.readyOn p) (s.startEstimate p now) = some (r, n)) :
    exec (.bulkPick p now) s = .next ((s.pick p r n false).modPort p fun x => { x with ctrlTurn := r.inst }) := by
  have hexempt : (s.pw.mode == .standby || decide (6 ≤ s.pw.acted)) = false := by simp [hst, hact]
  simp [exec, execBulkPick, hen, ha, hrec, htok, hroom, hexempt, hshare, hpick]

end Sys2Proof.Machine
end

section
/-! SUPPORT. Taking work (R205, R210 to R212) and staged data (R204). -/
namespace Sys2Proof.Machine

variable {s : State} {k : TrowelNo} {p : PortNo} {x : Txn} {q : List Txn} {z : Nat} {e : Ep} {data : List Byte}

/-- What has no payload to send is staged at once (R204). -/
theorem State.stage_of_no_payload (hk : x.kind = .bulkIn ∨ x.kind = .ctlIn ∨ x.kind = .setup ∨ x.kind = .stIn ∨ x.kind = .stOut) :
    s.stage k x = s.modTrowel k fun w => { w with slots := w.slots ++ [{ x with phase := .staged }] } := by
  have hbytes (e : Ep) (c : Xfer) : x.stageBytes e c = 0 := by
    obtain h | h | h | h | h := hk <;> simp [Txn.stageBytes, h]
  unfold State.stage
  split
  · split
    · simp [hbytes]
    · rfl
  · rfl

/-- A trowel with room takes the head of its own port's queue before it levels (R210). -/
theorem execTrowelTakeWork_own (hpk : p.val = k.val) (hhome : s.isHome k = true) (ha : s.alive = true) (hopen : (s.trowel k).open = true)
    (hgated : s.standbyGated k = false) (hq : (s.port p).queue = x :: q) :
    exec (.trowelTakeWork k) s = .next (s.takeHead k p false).ended := by
  have hlt : k.val < 32 := hpk ▸ p.isLt
  obtain rfl : p = ⟨k.val, hlt⟩ := Fin.ext hpk
  simp [exec, execTrowelTakeWork, ha, hopen, hgated, hlt, hhome, hq, done_eq_ended]

theorem State.takeHead_live (hq : (s.port p).queue = x :: q) (hlive : s.txnLive x = true) :
    s.takeHead k p false = ((s.modPort p fun y => { y with queue := q }).stage k x).modTrowel k fun w =>
      { w with taken := satInc w.taken } := by
  have hlive' : (s.modPort p fun y => { y with queue := q }).txnLive x = true := hlive
  simp [State.takeHead, hq, hlive']

theorem State.takeHead_dead (hq : (s.port p).queue = x :: q) (hdead : s.txnLive x = false) :
    s.takeHead k p false = (s.modPort p fun y => { y with queue := q }).unpick x.who := by
  have hdead' : (s.modPort p fun y => { y with queue := q }).txnLive x = false := hdead
  simp [State.takeHead, hq, hdead']

theorem State.bare_of_ports_trowels {t u : State} (h : t.bare = u.bare) (hu : u = { s with ports := u.ports, trowels := u.trowels }) :
    t.bare = State.bare { s with ports := t.ports, trowels := t.trowels } := by
  rw [State.ports_of_bare h, State.trowels_of_bare h, ← hu]
  exact h

/-! ### Staged data -/

/-- The state without the endpoint contexts and the hawk's bytes, the two that a write to a region changes. -/
def State.unstaged (s : State) : State := { s.bare with eps := [], mem := { s.bare.mem with hawk := [] } }

/-- A block written to an endpoint's region changes the hawk and the stream's count. -/
theorem State.unstaged_streamWrite (s : State) (z : Nat) (bs : List Byte) (k : TrowelNo) :
    (s.streamWrite z bs k).unstaged = s.unstaged := by
  have hof {t u : State} (h : t.bare = u.bare) : t.unstaged = u.unstaged :=
    congrArg (fun v : State => { v with eps := [], mem := { v.mem with hawk := [] } }) h
  unfold State.streamWrite
  split
  · rfl
  next e _ =>
    unfold State.regionWrite
    split
    · rfl
    · exact (hof (State.bare_countHawk ..) :)

/-- States that agree but for contexts and the hawk agree once these are put in. -/
theorem State.bare_of_unstaged {t u : State} (h : u.unstaged = t.unstaged) :
    u.bare = State.bare { t with eps := u.eps, mem := { t.mem with hawk := u.mem.hawk } } :=
  congrArg (fun v : State => { v with eps := u.eps, mem := { v.mem with hawk := u.mem.hawk } }) h

/-- The same with a transaction changed too. -/
theorem State.bare_of_restaged {t u : State} {id : Nat} {f : Txn → Txn} (ht : t.bare = (u.modTxn k id f).bare)
    (hu : u.bare = State.bare { s with eps := u.eps, mem := { s.mem with hawk := u.mem.hawk } }) :
    t.bare = State.bare { s with trowels := t.trowels, eps := t.eps, mem := { s.mem with hawk := t.mem.hawk } } := by
  have hhawk : t.mem.hawk = u.mem.hawk := (congrArg (·.mem.hawk) ht : t.bare.mem.hawk = (u.modTxn k id f).bare.mem.hawk)
  have heps : t.eps = u.eps := (State.eps_of_bare ht :)
  rw [hhawk, heps, State.trowels_of_bare ht]
  exact ht.trans (congrArg (fun v : State => { v with trowels := (u.modTxn k id f).trowels }) hu)

/-- The blocks of an entry's payload as they stand once read: all of them in the region of endpoint `z`. -/
def State.withBlocks (s : State) (z : Nat) (k : TrowelNo) (bs : List (List Byte)) : State := bs.foldl (fun s b => s.streamWrite z b k) s

theorem State.unstaged_withBlocks (s : State) (z : Nat) (k : TrowelNo) (bs : List (List Byte)) :
    (s.withBlocks z k bs).unstaged = s.unstaged :=
  State.each_keeps State.unstaged (fun t b => t.unstaged_streamWrite z b k) bs s

/-- The transaction of a number whose payload is still to be staged, with its trowel. -/
def State.takenTxn (s : State) (id : Nat) : Option (TrowelNo × Txn) :=
  allTrowels.findSome? fun k => ((s.trowel k).slots.find? fun t => t.id == id && t.phase == .taken).map fun t => (k, t)

theorem State.mem_slots_of_takenTxn {id : Nat} (h : s.takenTxn id = some (k, x)) : x ∈ (s.trowel k).slots := by
  obtain ⟨k', -, hk⟩ := List.exists_of_findSome?_eq_some h
  obtain ⟨y, hy, heq⟩ := Option.map_eq_some_iff.1 hk
  obtain ⟨rfl, rfl⟩ := Prod.mk.inj heq
  exact List.mem_of_find?_eq_some hy

/-- A taken transaction with all its data is staged with it (R204). -/
theorem execStagingComplete_of_taken (h : s.takenTxn x.id = some (k, x)) (hwho : x.who = .ep z) (he : s.ep z = some e)
    (hlen : data.length = s.stageLen x) : exec (.stagingComplete x.id data .ok) s =
      .next ((s.withBlocks z k (blocksOf e.maxBlock (blocksFor e.maxBlock data.length) data)).modTxn k x.id fun t =>
        { t with phase := .staged, data := data }).ended := by
  unfold State.takenTxn at h
  simp only [exec, execStagingComplete, h, hwho, he, hlen, bne_self_eq_false]
  rfl

end Sys2Proof.Machine
end

section
/-! Picking (O50). -/
namespace Sys2Proof.Machine

/-- Settles O50: what a pick, a take and the end of staging each leave is given by their lemmas above. -/
theorem picking : Obligations.Picking := by
  refine ⟨fun s p now hlen => ?_, fun s p now r n hen ha hrec htok hroom hst hact hshare hpick =>
      execBulkPick_of_control hen ha hrec htok hroom hst hact hshare hpick,
    fun s k p x q hpk hhome ha hopen hgated hq => ⟨fun hlive hkind => ?_, fun hdead => ?_⟩, fun s k x z e data hfind hwho he hlen => ?_⟩
  · obtain ⟨t, ht, hmay, hfull⟩ := execBulkPick_mayPick s p now
    refine ⟨t, ht, ?_, hmay⟩
    by_cases hroom : 4 ≤ (s.port p).queue.length
    · rw [hfull hroom]
      exact hlen
    · have := hmay.length_le
      omega
  · refine ⟨_, execTrowelTakeWork_own hpk hhome ha hopen hgated hq, ?_⟩
    rw [State.takeHead_live hq hlive, State.stage_of_no_payload hkind]
    refine ⟨?_, ?_, fun j hj => ?_, State.bare_of_ports_trowels (State.bare_ended _) rfl⟩
    · rw [State.port_of_bare (State.bare_ended _)]
      simp
    · rw [State.trowel_of_bare (State.bare_ended _)]
      simp
    · rw [State.trowel_of_bare (State.bare_ended _)]
      simp [hj]
  · rw [execTrowelTakeWork_own hpk hhome ha hopen hgated hq, State.takeHead_dead hq hdead]
  · have hbare := State.bare_of_unstaged (s.unstaged_withBlocks z k (blocksOf e.maxBlock (blocksFor e.maxBlock data.length) data))
    have htrowel := State.trowel_of_bare hbare
    refine ⟨_, execStagingComplete_of_taken hfind hwho he hlen, ?_, fun j hj => ?_, ?_⟩
    · rw [State.trowel_of_bare (State.bare_ended _), State.modTxn, State.modTrowel_trowel, if_pos rfl, htrowel]
      exact List.mem_map.2 ⟨x, State.mem_slots_of_takenTxn hfind, if_pos rfl⟩
    · rw [State.trowel_of_bare (State.bare_ended _), State.modTxn, State.modTrowel_trowel, if_neg hj, htrowel]
      rfl
    · exact State.bare_of_restaged (State.bare_ended _) hbare

end Sys2Proof.Machine
end

section
/-! SUPPORT. Trowels out of service and back (R214 to R219). -/
namespace Sys2Proof.Machine

variable {s : State} {k : TrowelNo}

/-- A loop whose steps change ports alone changes ports alone. -/
theorem State.each_ports {α : Type} {f : State → α → State} (h : ∀ t a, ∃ x, f t a = { t with ports := x }) (l : List α) (s : State) :
    ∃ x, s.each l f = { s with ports := x } := by
  induction l generalizing s with
  | nil => exact ⟨s.ports, rfl⟩
  | cons a l ih =>
    obtain ⟨x, hx⟩ := h s a
    obtain ⟨y, hy⟩ := ih (f s a)
    exact ⟨y, by rw [hx] at hy; rw [← hy, ← hx]; rfl⟩

/-- What a trowel gives back leaves its slots and goes to the ports' queues (R208, R215). -/
theorem State.returnTxns_eq (s : State) (k : TrowelNo) (which : Txn → Bool) : ∃ ports,
    s.returnTxns k which = { s.modTrowel k fun w => { w with slots := w.slots.filter fun t => !which t } with ports := ports } :=
  State.each_ports (fun _ _ => ⟨_, rfl⟩) _ _

theorem State.modTrowel_modTrowel (s : State) (k : TrowelNo) (f g : Trowel → Trowel) :
    (s.modTrowel k f).modTrowel k g = s.modTrowel k fun w => g (f w) := by
  simp [State.modTrowel, State.setTrowel, State.trowel]

/-- A trowel that drains keeps the transactions that have started (R215). -/
theorem State.drainTrowel_eq (s : State) (k : TrowelNo) : ∃ ports, s.drainTrowel k =
    { s.modTrowel k fun w => { w with tstate := .draining, slots := w.slots.filter (·.started) } with ports := ports } := by
  obtain ⟨ports, h⟩ := (s.modTrowel k fun w => { w with tstate := .draining }).returnTxns_eq k fun t => !t.started
  refine ⟨ports, h.trans ?_⟩
  rw [State.modTrowel_modTrowel]
  simp only [Bool.not_not]

/-- A trowel that is not in service starts its self-check (R219). -/
theorem Trowel.check_of_out {w : Trowel} (h : w.tstate ≠ .inService) : w.check = { w with tstate := .returning } := by
  unfold Trowel.check
  split
  next hin => exact absurd hin h
  · rfl

section Requests

variable (hopen : s.nativeRegs 0 = true) (hfresh : (s.inst 0).fresh = false)
include hopen hfresh

theorem execTrowelOosRequest_refused (h : s.canRelieve k = false) :
    exec (.trowelOosRequest k) s = .next (s.modTrowel k fun w => { w with oosRefused := true }) := by
  simp [exec, execTrowelOosRequest, hopen, State.written_of_not_fresh hfresh, State.oosRequest, h]

theorem execTrowelOosRequest_taken (h : s.canRelieve k = true) (hin : (s.trowel k).tstate = .inService) :
    exec (.trowelOosRequest k) s = .next ((s.modTrowel k fun w => { w with oosReq := true, oosRefused := false }).drainTrowel k) := by
  simp [exec, execTrowelOosRequest, hopen, State.written_of_not_fresh hfresh, State.oosRequest, h, hin]

theorem execTrowelReturnRequest_out (hout : (s.trowel k).tstate ≠ .inService) : exec (.trowelReturnRequest k) s =
    .next (s.modTrowel k fun w => { w with oosReq := false, oosRefused := false, tstate := .returning }) := by
  simp [exec, execTrowelReturnRequest, hopen, State.written_of_not_fresh hfresh, State.modTrowel, Trowel.return, Trowel.check_of_out hout]

end Requests

theorem execTrowelDrainComplete_empty (hst : (s.trowel k).tstate = .draining) (hslots : (s.trowel k).slots = [])
    (hholds : (s.trowel k).holds = []) : exec (.trowelDrainComplete k) s =
      .next (s.modTrowel k fun w => { w with tstate := if w.oosReq then .outOfService else .gatedShed }) := by
  simp [exec, execTrowelDrainComplete, hst, hslots, hholds]

theorem execTrowelSelfCheckEnd_returning (hst : (s.trowel k).tstate = .returning) (hshed : s.pw.acted < 4) (pass : Bool) :
    exec (.trowelSelfCheckEnd k pass) s = .next (s.modTrowel k fun w => { w with tstate := if pass then .inService else .faulted }) := by
  simp [exec, execTrowelSelfCheckEnd, hst, State.gateIdle, hshed]

/-! ### Faults (R218) -/

/-- The power island's registers, without the messages that wait. -/
def State.island (s : State) : Power := s.bare.pw

theorem State.pw_of_island {t : State} (h : t.island = s.island) : t.pw = { s.pw with msgQueue := t.pw.msgQueue, pme := t.pw.pme } :=
  congrArg (fun w : Power => { w with msgQueue := t.pw.msgQueue, pme := t.pw.pme }) h

theorem State.island_of_bare {t u : State} (h : t.bare = u.bare) : t.island = u.island := congrArg State.pw h

theorem State.island_of_core {t u : State} (h : t.core = u.core) : t.island = u.island := (congrArg State.pw h : t.core.pw = u.core.pw)

theorem State.island_completeAfter (s : State) (x : Nat) (st : Status) : (s.completeAfter x st).island = s.island := by
  unfold State.completeAfter
  split
  · rfl
  · split
    · rfl
    · exact State.island_of_core (s.core_completeAt x st _)

theorem State.island_haltEp (s : State) (x : Nat) (st : Status) : (s.haltEp x st).island = s.island := by
  cases he : s.ep x with
  | none => simp [State.haltEp, he]
  | some e =>
    rw [State.haltEp_eq st he, State.island_completeAfter]
    exact State.island_of_core ((State.core_endSlot ..).trans (s.core_haltCounted x e))

theorem State.island_corrupt (s : State) (x : Nat) (p : PortNo) (k : TrowelNo) : (s.epOutcome x p k .corrupt).island = s.island := by
  cases he : s.ep x with
  | none => simp [State.epOutcome, he]
  | some e =>
    rw [State.epOutcome_eq s p k .corrupt he, ← State.island_of_core (s.core_tallied x p k .corrupt e)]
    simp only [State.outcomeEnd]
    split
    · exact State.island_haltEp _ x _
    · rfl

theorem State.island_faultTxn (s : State) (k : TrowelNo) (t : Txn) : (s.faultTxn k t).island = s.island := by
  have hend (u : State) (i : Option InstNo) : (u.countEnd t.port k i .corrupt).island = u.island :=
    State.island_of_bare ((State.bare_count _ _).trans (State.bare_count _ _))
  unfold State.faultTxn
  dsimp only
  cases t.who with
  | ep x => exact (State.island_corrupt _ x t.port k).trans (hend _ _)
  | own q => exact (hend _ _ :)
  | hub z => exact (hend _ _ :)

/-- A trowel's fault, once it is recorded, before its slots are cleared. -/
def State.faultTxns (s : State) (k : TrowelNo) (dog : Bool) : State :=
  let s := (s.record 0x06 [BitVec.ofNat 8 k.val, if dog then 2 else 1]).returnTxns k fun t => !t.started
  s.each (s.trowel k).slots fun s t => s.faultTxn k t

theorem State.island_faultTxns (s : State) (k : TrowelNo) (dog : Bool) : (s.faultTxns k dog).island = s.island := by
  obtain ⟨ports, h⟩ := (s.record 0x06 [BitVec.ofNat 8 k.val, if dog then 2 else 1]).returnTxns_eq k fun t => !t.started
  refine (State.each_keeps State.island (fun u t => u.island_faultTxn k t) _ _).trans ?_
  rw [h]
  rfl

theorem execTrowelFault_inService (ha : s.alive = true) (dog : Bool) (hfree : ∀ p ∈ (s.trowel k).holds, s.inService p = false)
    (hin : (s.trowel k).tstate = .inService) : exec (.trowelFault k dog) s =
      .next ((s.faultTxns k dog).modTrowel k fun w => { w with tstate := .faulted, slots := [] }).ended := by
  have hnone : (s.trowel k).holds.any s.inService = false := List.any_eq_false.2 fun p hp => by simp [hfree p hp]
  simp only [exec, execTrowelFault, ha, hnone, hin]
  rfl

theorem execTrowelFault_holding (ha : s.alive = true) (dog : Bool) (hheld : ∃ p ∈ (s.trowel k).holds, s.inService p = true) :
    exec (.trowelFault k dog) s = .next ((s.record 0x05 [BitVec.ofNat 8 (0x40 + k.val), 2]).resetPrime 4) := by
  have hany : (s.trowel k).holds.any s.inService = true := List.any_eq_true.2 hheld
  simp only [exec, execTrowelFault, ha, hany]
  rfl

theorem State.latch_spec (s : State) : s.latch.pw.mode = .prime ∧ s.latch.pw.nextCause = s.pw.nextCause ∧ s.latch.eps = s.eps :=
  have h := s.atInstantOne_latch
  ⟨congrArg (·.pw.mode) h, congrArg (·.pw.nextCause) h, (congrArg State.eps h :)⟩

/-- A reset through PRIME latches its cause at instant 1 at the earliest, and endpoints are closed at once (R371). -/
theorem State.resetPrime_spec (s : State) (c : BitVec 4) :
    (s.resetPrime c).pw.mode = .prime ∧ (s.resetPrime c).pw.nextCause = c ∧ (s.resetPrime c).eps = [] := by
  have htry : s.resetPrime c = (s.toPrime c).latch ∨ s.resetPrime c = s.toPrime c := by
    rw [State.resetPrime, State.tryStart]
    split
    · simp
    · exact .inr rfl
  obtain h | h := htry
  · obtain ⟨hmode, hcause, heps⟩ := (s.toPrime c).latch_spec
    rw [h, hmode, hcause, heps]
    exact ⟨rfl, rfl, rfl⟩
  · rw [h]
    exact ⟨rfl, rfl, rfl⟩

/-! ### The hawk's scrub (R224) -/

variable (ha : s.alive = true) (hs : s.mem.passS ≠ 0)
include ha hs

/-- The scrub runs: its read is made. -/
theorem State.scrub_runs : ¬ (s.mem.passS = 0 || !s.alive) = true := by simpa [ha] using hs

theorem execHawkScrubRead_ok : exec (.hawkScrubRead .ok) s = .next s.ended := if_neg (State.scrub_runs ha hs)

theorem execHawkScrubRead_corrected (a : BitVec 24) : ∃ t, exec (.hawkScrubRead (.corrected a)) s = .next t ∧
    t.bare = State.bare { s with mem := { s.mem with ceCount := satInc s.mem.ceCount } } :=
  ⟨_, if_neg (State.scrub_runs ha hs), (State.bare_ended _).trans (State.bare_count _ _)⟩

theorem execHawkScrubRead_uncorrectable (a : BitVec 24) :
    exec (.hawkScrubRead (.uncorrectable a)) s = .next (s.noteEcc (s.regionOwner a.toNat) (.uncorrectable a)).ended :=
  if_neg (State.scrub_runs ha hs)

omit ha hs

/-- What an uncorrectable word leaves in the registers of R225. -/
theorem State.mem_noteEcc_uncorrectable (s : State) (i : Option InstNo) (a : BitVec 24) : (s.noteEcc i (.uncorrectable a)).mem =
    { s.mem with ueCount := satInc s.mem.ueCount, eccValid := true, eccAddr := a } := by
  cases i <;> rfl

section
variable {t u : State} (h : t.bare = u.bare)
include h

theorem State.ueCount_of_bare : t.mem.ueCount = u.mem.ueCount := (congrArg (·.mem.ueCount) h : t.bare.mem.ueCount = u.bare.mem.ueCount)
theorem State.eccValid_of_bare : t.mem.eccValid = u.mem.eccValid :=
  (congrArg (·.mem.eccValid) h : t.bare.mem.eccValid = u.bare.mem.eccValid)
theorem State.eccAddr_of_bare : t.mem.eccAddr = u.mem.eccAddr := (congrArg (·.mem.eccAddr) h : t.bare.mem.eccAddr = u.bare.mem.eccAddr)
theorem State.hawk_of_bare : t.mem.hawk = u.mem.hawk := (congrArg (·.mem.hawk) h : t.bare.mem.hawk = u.bare.mem.hawk)
theorem State.ueHits_of_bare (i : InstNo) : (t.inst i).ueHits = (u.inst i).ueHits :=
  (congrArg Inst.ueHits (State.inst_bare_of_bare h i) : (t.inst i).bare.ueHits = (u.inst i).bare.ueHits)

end

theorem State.ueHits_noteEcc (s : State) (i : InstNo) (a : BitVec 24) :
    ((s.noteEcc (some i) (.uncorrectable a)).inst i).ueHits = satInc (s.inst i).ueHits := by
  have hrecord (u : State) (c : BitVec 8) (d : List Byte) : (u.record c d).inst i = u.inst i := rfl
  simp [State.noteEcc, State.noteEccBy, hrecord]

end Sys2Proof.Machine
end

section
/-! Trowels (O54). -/
namespace Sys2Proof.Machine

/-- Settles O54: each request, end and fault by the lemma about its command above. -/
theorem trowels : Obligations.Trowels := by
  refine ⟨fun s k hopen hfresh => ⟨execTrowelOosRequest_refused hopen hfresh, fun hrel hin => ?_,
      execTrowelReturnRequest_out hopen hfresh⟩,
    fun s k => ⟨execTrowelDrainComplete_empty, execTrowelSelfCheckEnd_returning⟩, fun s k dog ha => ⟨fun hfree hin => ?_, fun hheld => ?_⟩,
    fun s a ha hs => ⟨execHawkScrubRead_ok ha hs, execHawkScrubRead_corrected ha hs a, ?_⟩⟩
  · obtain ⟨ports, ht⟩ := (s.modTrowel k fun w => { w with oosReq := true, oosRefused := false }).drainTrowel_eq k
    refine ⟨_, execTrowelOosRequest_taken hopen hfresh hrel hin, ?_⟩
    rw [ht, State.modTrowel_modTrowel]
    have htrowel (f : Trowel → Trowel) (j : TrowelNo) :
        State.trowel { s.modTrowel k f with ports := ports } j = if j = k then f (s.trowel k) else s.trowel j :=
      State.modTrowel_trowel s k j f
    simp only [htrowel, if_true]
    exact ⟨trivial, trivial, trivial, trivial, fun j hj => if_neg hj, rfl⟩
  · refine ⟨_, execTrowelFault_inService ha dog hfree hin, ?_⟩
    have hthis := (State.trowel_of_bare ((s.faultTxns k dog).modTrowel k fun w => { w with tstate := .faulted, slots := [] }).bare_ended
      k).trans ((State.modTrowel_trowel _ k k _).trans (if_pos rfl))
    exact ⟨by rw [hthis], by rw [hthis], State.pw_of_island ((State.island_of_bare (State.bare_ended _)).trans (s.island_faultTxns k dog))⟩
  · obtain ⟨hmode, hcause, heps⟩ := (s.record 0x05 [BitVec.ofNat 8 (0x40 + k.val), 2]).resetPrime_spec 4
    exact ⟨_, execTrowelFault_holding ha dog hheld, hmode, hcause, heps⟩
  · have hbare := (s.noteEcc (s.regionOwner a.toNat) (.uncorrectable a)).bare_ended
    have hmem := s.mem_noteEcc_uncorrectable (s.regionOwner a.toNat) a
    refine ⟨_, execHawkScrubRead_uncorrectable ha hs a, ?_, ?_, ?_, ?_, fun i hi => ?_⟩
    · rw [State.ueCount_of_bare hbare, hmem]
    · rw [State.eccValid_of_bare hbare, hmem]
    · rw [State.eccAddr_of_bare hbare, hmem]
    · rw [State.hawk_of_bare hbare, hmem]
    · rw [State.ueHits_of_bare hbare i, hi, State.ueHits_noteEcc]

end Sys2Proof.Machine
end

section
/-!
SUPPORT. Stencil channels. Reporting apart, most commands of the engine change one channel: what such a change leaves of the rest of the
state, and how a program ends (R264, R278, R280, R281).
-/
namespace Sys2Proof.Machine

variable {s t : State} {c : ChanNo} {x : Chan}

/-! ### One channel changed -/

@[simp] theorem State.setChan_setChan (s : State) (c : ChanNo) (x y : Chan) : (s.setChan c x).setChan c y = s.setChan c y := by
  simp [State.setChan]

theorem State.modChan_eq_setChan (s : State) (c : ChanNo) (f : Chan → Chan) : s.modChan c f = s.setChan c (f (s.chan c)) := rfl

theorem State.setChan_chan_self (s : State) (c : ChanNo) : s.setChan c (s.chan c) = s := by
  have hchans : vset s.chans c (s.chan c) = s.chans := vset_vget _ _
  simp only [State.setChan, hchans]

theorem State.chans_of_bare (h : t.bare = s.bare) : t.chans = s.chans := (congrArg State.chans h : t.bare.chans = s.bare.chans)
theorem State.chan_of_bare (h : t.bare = s.bare) (c : ChanNo) : t.chan c = s.chan c := congrArg (vget · c) (State.chans_of_bare h)

/-- A further change of the channel that has changed replaces the earlier one. -/
theorem State.bare_setChan_of_bare (h : t.bare = (s.setChan c x).bare) (y : Chan) : (t.setChan c y).bare = (s.setChan c y).bare := by
  rw [State.bare_setChan, h, ← State.bare_setChan, State.setChan_setChan]

/-- What is read of a state in which, reporting apart, channel `c` alone has changed. -/
theorem State.chan_frame (h : t.bare = (s.setChan c x).bare) :
    t.chan c = x ∧ (∀ d, d ≠ c → t.chan d = s.chan d) ∧ t.bare = State.bare { s with chans := t.chans } := by
  have hchan (d : ChanNo) : t.chan d = if d = c then x else s.chan d := (State.chan_of_bare h d).trans (s.setChan_chan c d x)
  refine ⟨(hchan c).trans (if_pos rfl), fun d hd => (hchan d).trans (if_neg hd), ?_⟩
  rw [State.chans_of_bare h, h]
  rfl

/-- A number that a field gives, cut to its range, is the one that it names. -/
theorem fin_mk_mod {n v : Nat} {k : Fin n} (h : k.val = v) (hv : v % n < n) : (⟨v % n, hv⟩ : Fin n) = k :=
  Fin.ext (h ▸ Nat.mod_eq_of_lt k.isLt)

/-! ### The end of a program -/

@[simp] theorem State.bare_countInstr (s : State) (c : ChanNo) : (s.countInstr c).bare = s.bare := s.bare_count _

@[simp] theorem State.bare_raise (s : State) (c : ChanNo) (kind mark : Nat) : (s.raise c kind mark).bare = s.bare :=
  s.bare_unsolicited _ _ _ _

/-- The end of a program leaves its channel IDLE, and reports it (R264, R278). -/
theorem State.bare_endChan (s : State) (c : ChanNo) (kind mark fault : Nat) : (s.endChan c kind mark fault).bare =
    (s.setChan c { (s.chan c).idle with fault := if kind = kFault then BitVec.ofNat 8 fault else (s.chan c).fault }).bare := by
  unfold State.endChan
  dsimp only
  split
  · exact State.bare_postVec _ _ _ _ _ _
  · rfl

/-- An end that is no fault keeps the last status. -/
theorem State.bare_endChan_of_ne {kind : Nat} (h : kind ≠ kFault) (s : State) (c : ChanNo) (mark fault : Nat) :
    (s.endChan c kind mark fault).bare = (s.setChan c (s.chan c).idle).bare := by
  rw [s.bare_endChan, if_neg h]
  rfl

/-- A fault leaves its channel IDLE with the fault's code (R280). -/
theorem State.bare_faultChan (s : State) (c : ChanNo) (code : Nat) :
    (s.faultChan c code).bare = (s.setChan c { (s.chan c).idle with fault := BitVec.ofNat 8 code }).bare :=
  s.bare_endChan c kFault 0 code

/-- A stop of a program that has begun ends it (R281). -/
theorem State.stopChan_of_begun (h : (s.chan c).cstate = .running ∨ (s.chan c).cstate = .waiting ∨ (s.chan c).cstate = .paused)
    (kind : Nat) : s.stopChan c kind = s.endChan c kind 0 0 := by
  rcases h with h | h | h <;> simp only [State.stopChan, h]

/-- A stop leaves a channel that had begun IDLE, and nothing else changed. -/
theorem State.stopChan_frame (h : (s.chan c).cstate = .running ∨ (s.chan c).cstate = .waiting ∨ (s.chan c).cstate = .paused)
    {kind : Nat} (hkind : kind ≠ kFault) :
    (s.stopChan c kind).ended.chan c = (s.chan c).idle ∧ (∀ d, d ≠ c → (s.stopChan c kind).ended.chan d = s.chan d) ∧
      (s.stopChan c kind).ended.bare = State.bare { s with chans := (s.stopChan c kind).ended.chans } :=
  State.chan_frame (by rw [State.bare_ended, State.stopChan_of_begun h, State.bare_endChan_of_ne hkind])

end Sys2Proof.Machine
end

section
/-! Channels (O56). -/
namespace Sys2Proof.Machine

variable {s : State} {i : InstNo} {c : ChanNo} {bs : List Byte}

/-! ### Orders of the owner (R264, R277, R281) -/

section
variable (hopen : s.nativeRegs i = true) (hfresh : (s.inst i).fresh = false) (howner : (s.chan c).owner = i)
include hopen hfresh howner

theorem execStencilStart_of_idle (h : (s.chan c).cstate = .idle) :
    exec (.stencilStart i c) s = .next (s.modChan c fun x => { x with cstate := .pending }) := by
  simp [exec, execStencilStart, State.written_of_not_fresh hfresh, hopen, howner, h]

theorem execStencilStart_of_not_idle (h : (s.chan c).cstate ≠ .idle) :
    exec (.stencilStart i c) s = .next (s.modChan c fun x => { x with startIgnored := satInc x.startIgnored }) := by
  simp [exec, execStencilStart, State.written_of_not_fresh hfresh, hopen, howner, h]

theorem execStencilStop_eq : exec (.stencilStop i c) s = .next (s.stopChan c kStoppedOwner).ended := by
  simp [exec, execStencilStop, State.written_of_not_fresh hfresh, hopen, howner, done_eq_ended]

theorem execStnCountWrite_eq (w : Word) (decs : Nat) : exec (.stnCountWrite i c ⟨w, decs⟩) s =
    .next (s.modChan c fun x => { x with count := w.setWidth 32, discard := decs }) := by
  simp [exec, execStnCountWrite, State.written_of_not_fresh hfresh, hopen, howner]

end

/-! ### The beginning of a program (R264, R265) -/

/-- A channel as its program begins (R264). -/
def Chan.begun (x : Chan) : Chan :=
  { x with
    cstate := .running, ready := false, flag := false, loops := Vector.replicate 4 0, post := 0, pc := 0, wait := none
    tagBegin := x.tag, resv := some x.evtRing, line := none, moved := 0, hit := false }

theorem execStencilBegin_of_pending (h : (s.chan c).cstate = .pending)
    (hcredit : (s.ring (s.chan c).owner (s.chan c).evtRing).hasCredit = true) (hgate : s.gated c = false)
    (hserved : s.servedNow (s.chan c).owner = true) (hw : s.canWrite (s.chan c).owner = true) :
    exec (.stencilBegin c) s = .next ((((s.setChan c (s.chan c).begun).reserve (s.chan c).owner (s.chan c).evtRing).hostRead
      (s.chan c).owner (s.chan c).paramAddr.toNat 128 none (some c.val)).ended) := by
  simp [exec, execStencilBegin, h, hcredit, hgate, hserved, hw, Chan.begun, done_eq_ended]

theorem State.out_hostRead (s : State) (i : InstNo) (addr len : Nat) (k d : Option Nat) :
    .hostRead i addr len ∈ (s.hostRead i addr len k d).out :=
  (State.adds_count _ _).mem (List.mem_cons_self ..)

theorem allZero_iff (bs : List Byte) : allZero bs = true ↔ ∀ b ∈ bs, b = 0 := by simp [allZero]

/-- A parameter block is well formed: its last bytes are 0 and its pointers good (R265). -/
def State.paramOk (s : State) (i : InstNo) (bs : List Byte) : Prop :=
  (∀ b ∈ bs.drop 96, b = 0) ∧ ∀ k, k < 8 → s.ptrOk i (paramPtr bs k) = true

theorem State.paramOk_iff : s.paramOk i bs ↔
    (!allZero (bs.drop 96) || !((List.range 8).all fun k => s.ptrOk i (paramPtr bs k))) = false := by
  rw [State.paramOk, ← allZero_iff]
  simp

section
variable (hrun : s.runs = true) (hst : (s.chan c).cstate = .running) (hready : (s.chan c).ready = false) (hlen : bs.length = 128)
include hrun hst hready hlen

theorem execParamBlockReadDone_of_ok (h : s.paramOk (s.chan c).owner bs) : exec (.paramBlockReadDone c bs) s = .next (s.setChan c
    { s.chan c with
      ready := true, ptrs := Vector.ofFn fun k => paramPtr bs k, strides := Vector.ofFn fun k => paramStride bs k }) := by
  have hbad := State.paramOk_iff.1 h
  simp [exec, execParamBlockReadDone, hrun, hst, hready, hlen, hbad]

theorem execParamBlockReadDone_of_bad (h : ¬s.paramOk (s.chan c).owner bs) :
    exec (.paramBlockReadDone c bs) s = .next (s.faultChan c fParam).ended := by
  have hbad := Bool.eq_true_of_not_eq_false (mt State.paramOk_iff.2 h)
  simp [exec, execParamBlockReadDone, hrun, hst, hready, hlen, hbad, done_eq_ended]

end

/-! ### Orders of the manager (R262, R281) -/

section
variable (hopen : s.nativeRegs 0 = true) (hfresh : (s.inst 0).fresh = false)
include hopen hfresh

theorem execStencilManagerStop_eq : exec (.stencilManagerStop c) s = .next (s.stopChan c kStoppedManager).ended := by
  simp [exec, execStencilManagerStop, State.written_of_not_fresh hfresh, hopen, done_eq_ended]

theorem execStnOwnerWrite_of_idle (h : (s.chan c).cstate = .idle) {w : Word} (hi : i.val = fld w 5 0) :
    exec (.stnOwnerWrite c w) s = .next (s.modChan c (·.giveTo i)) := by
  simp [exec, execStnOwnerWrite, State.written_of_not_fresh hfresh, hopen, h, fin_mk_mod hi]

end

/-- A channel given to another owner has the reset values of its settings (R262). -/
theorem Chan.giveTo_of_ne {x : Chan} (h : i ≠ x.owner) : x.giveTo i =
    { x with owner := i, progWords := 0, vecEn := false, vector := 0, evtRing := 0, progAddr := 0, store := false, paramAddr := 0
             tag := 0, count := 0, tagBegin := 0 } := if_neg (Ne.symm h)

/-- Settles O56: each order, beginning and end by the lemma about its command above. -/
theorem channels : Obligations.Channels := by
  refine ⟨fun s i c hopen hfresh howner => ⟨execStencilStart_of_idle hopen hfresh howner, execStencilStart_of_not_idle hopen hfresh howner,
      fun hbegun => ⟨_, execStencilStop_eq hopen hfresh howner, State.stopChan_frame hbegun (by decide)⟩,
      execStnCountWrite_eq hopen hfresh howner⟩,
    fun s c hd => ?_, fun s c hst hcredit hgate hserved hw => ?_,
    fun s c bs hrun hst hready hlen => ⟨fun hzero hptr => ?_, fun hbad => ?_⟩,
    fun s c hopen hfresh => ⟨fun hst => ?_, fun hst w i hi hne => ?_⟩⟩
  · simp [State.countDown, hd]
  · refine ⟨_, execStencilBegin_of_pending hst hcredit hgate hserved hw, (State.adds_ended _).mem (State.out_hostRead ..), ?_⟩
    obtain ⟨hchan, -, hbare⟩ := State.chan_frame (s := s) (c := c) (x := (s.chan c).begun) (t := State.ended _)
      ((State.bare_ended _).trans ((State.bare_hostRead ..).trans (State.bare_reserve ..)))
    exact ⟨hchan, hbare⟩
  · refine ⟨_, execParamBlockReadDone_of_ok hrun hst hready hlen ⟨hzero, hptr⟩, ?_⟩
    rw [State.setChan_chan, if_pos rfl]
    exact ⟨rfl, fun k => by simp [vget], fun k => by simp [vget], rfl, hst, rfl⟩
  · have hnot : ¬s.paramOk (s.chan c).owner bs := by
      rintro ⟨hzero, hptr⟩
      rcases hbad with ⟨b, hb, hne⟩ | ⟨k, hk, hf⟩
      · exact hne (hzero b hb)
      · simp [hptr k hk] at hf
    obtain ⟨hchan, -, hbare⟩ := State.chan_frame ((State.bare_ended _).trans (s.bare_faultChan c fParam))
    refine ⟨_, execParamBlockReadDone_of_bad hrun hst hready hlen hnot, ?_, ?_, hbare⟩ <;> rw [hchan] <;> rfl
  · obtain ⟨hchan, -, hbare⟩ := State.stopChan_frame (.inl hst) (kind := kStoppedManager) (by decide)
    exact ⟨_, execStencilManagerStop_eq hopen hfresh, hchan, hbare⟩
  · refine ⟨_, execStnOwnerWrite_of_idle hopen hfresh hst hi, ?_⟩
    rw [State.modChan_chan, if_pos rfl, Chan.giveTo_of_ne hne]
    exact ⟨rfl, hst, rfl, rfl, fun d hd => by rw [State.modChan_chan, if_neg hd], rfl⟩

end Sys2Proof.Machine
end

section
/-!
SUPPORT. The execution of a stencil instruction (R267, R275, R276, R280): the line read for it changes no more of a state than its channel's
copy of the line, and what the instruction comes to settles what the command answers.
-/
namespace Sys2Proof.Machine

variable {s t : State} {c : ChanNo} {x : Chan} {op : Nat} {line : List Byte} {w : Word}

/-! ### The line of a program (R276) -/

/-- The read of a line changes the copy of it that a channel keeps. -/
theorem State.lineRead_chan (s : State) (c d : ChanNo) (line : List Byte) :
    ∃ l b, (s.lineRead c line).chan d = { s.chan d with line := l, lineData := b } := by
  unfold State.lineRead
  dsimp only
  split
  · rw [State.modChan_chan, State.chan_of_bare (s.bare_hostRead ..), State.chan_of_bare (s.bare_hostRead ..)]
    split
    next hd => exact ⟨_, _, by rw [hd]⟩
    · exact ⟨_, _, rfl⟩
  · exact ⟨_, _, rfl⟩

theorem State.lineRead_owner (s : State) (c d : ChanNo) (line : List Byte) : ((s.lineRead c line).chan d).owner = (s.chan d).owner := by
  obtain ⟨l, b, h⟩ := s.lineRead_chan c d line
  rw [h]

/-- With the line read, a state differs from the one before, reporting apart, in its channel alone. -/
theorem State.bare_lineRead (s : State) (c : ChanNo) (line : List Byte) :
    (s.lineRead c line).bare = (s.setChan c ((s.lineRead c line).chan c)).bare := by
  unfold State.lineRead
  dsimp only
  split
  · rw [State.modChan_chan, if_pos rfl, State.modChan_eq_setChan, State.bare_setChan, State.bare_hostRead, State.bare_setChan]
  · rw [State.setChan_chan_self]

/-- With the line read, a change of the channel is one of the state before. -/
theorem State.bare_lineRead_setChan (s : State) (c : ChanNo) (line : List Byte) (y : Chan) :
    ((s.lineRead c line).setChan c y).bare = (s.setChan c y).bare := State.bare_setChan_of_bare (s.bare_lineRead c line) y

theorem State.disp_of_bare (h : t.bare = s.bare) : t.disp = s.disp := (congrArg State.disp h : t.bare.disp = s.bare.disp)

@[simp] theorem State.lineRead_disp (s : State) (c : ChanNo) (line : List Byte) : (s.lineRead c line).disp = s.disp :=
  State.disp_of_bare (s := s.setChan c _) (s.bare_lineRead c line)

/-! ### What an instruction comes to -/

/-- A channel whose instruction has completed, at the word where it goes on (R267, R276). -/
def Chan.goOn (x : Chan) (pc : Nat) (taken : Bool) : Chan :=
  { x with pc := BitVec.ofNat 16 pc, line := if taken then none else x.line, moved := 0, hit := false }

/-- What a command answers when its instruction comes to this. -/
def Did.answer (c : ChanNo) (s : State) : Did → Answer
  | .to t pc taken => .next ((t.countInstr c).modChan c (·.goOn pc taken)).ended
  | .bad t code => .next ((t.countInstr c).faultChan c code).ended
  | .left t => .next t.ended
  | .notYet => .next s

/-- An instruction that a channel executes answers what it comes to. -/
theorem stencilStep_of_executes (h : s.Executes c op line w) (hop : 0 < op ∧ op ≤ 8) (body : State → Word → Did) :
    stencilStep c op line s body = (body (s.lineRead c line) w).answer c s := by
  obtain ⟨hrun, hpc, hline, hw, hcode, hres, hbad⟩ := h
  obtain ⟨hpos, hle⟩ := hop
  have hread : ((s.chan c).entersLine && line.length != 64) = false := by
    cases he : (s.chan c).entersLine
    · rfl
    · simp [hline he]
  have hword : ((stnReserved op).any (fun r => fld w r.1 r.2 != 0) || stnCodeBad w) = false := by
    rw [hbad, Bool.or_false, List.any_eq_false]
    intro r hr
    simp [hres r hr]
  simp only [stencilStep, hrun, hpc, hread, hw, hcode, hpos.ne', hword, Nat.not_lt.2 hle, Bool.not_true, Bool.false_eq_true, if_false,
    decide_false, Bool.or_false, bne_self_eq_false]
  cases body (s.lineRead c line) w <;> rfl

/-- A program whose `pc` lies outside it faults (R280). -/
theorem stencilStep_of_pc_outside (hrun : s.chanRuns c = true) (hpc : s.pcOk (s.chan c) = false) (body : State → Word → Did) :
    stencilStep c op line s body = .next ((s.countInstr c).faultChan c fPcRange).ended := by
  simp [stencilStep, hrun, hpc, done_eq_ended]

/-- A word of no instruction faults (R267, R280). -/
theorem stencilStep_of_bad_opcode (hrun : s.chanRuns c = true) (hpc : s.pcOk (s.chan c) = true)
    (hline : (s.chan c).entersLine = true → line.length = 64)
    (hw : fld (s.progWord (s.chan c) line) 3 0 = 0 ∨ 8 < fld (s.progWord (s.chan c) line) 3 0) (body : State → Word → Did) :
    stencilStep c op line s body = .next (((s.lineRead c line).countInstr c).faultChan c fBadOpcode).ended := by
  have hread : ((s.chan c).entersLine && line.length != 64) = false := by
    cases he : (s.chan c).entersLine
    · rfl
    · simp [hline he]
  simp [stencilStep, hrun, hpc, hread, hw, done_eq_ended]

/-- An instruction that completes goes on at a word index. -/
theorem Did.answer_to (s t : State) (c : ChanNo) (pc : Nat) (taken : Bool) : ∃ u, (Did.to t pc taken).answer c s = .next u ∧ t.Adds u ∧
    u.bare = (t.setChan c ((t.chan c).goOn pc taken)).bare := by
  have hchan : (t.countInstr c).chan c = t.chan c := State.chan_of_bare (t.bare_countInstr c) c
  have hadds : t.Adds ((t.countInstr c).modChan c (·.goOn pc taken)) := .of_eq ((State.modChan_out ..).trans (t.out_count _))
  refine ⟨_, rfl, hadds.trans (State.adds_ended _), ?_⟩
  rw [State.bare_ended, State.modChan_eq_setChan, hchan, State.bare_setChan, State.bare_countInstr, State.bare_setChan]

/-- A fault leaves the channel IDLE with the fault's code (R280). -/
theorem State.faulted_chan (t : State) (c : ChanNo) (code : Nat) : (((t.countInstr c).faultChan c code).ended.chan c).cstate = .idle ∧
    (((t.countInstr c).faultChan c code).ended.chan c).fault = BitVec.ofNat 8 code := by
  obtain ⟨hchan, -, -⟩ := State.chan_frame ((State.bare_ended _).trans ((t.countInstr c).bare_faultChan c code))
  rw [hchan]
  exact ⟨rfl, rfl⟩

/-! ### Instructions that change their channel alone -/

section
variable {body : State → Word → Did} (he : s.Executes c op line w) (hop : 0 < op ∧ op ≤ 8)
include he hop

theorem stencilStep_to {pc : Nat} {taken : Bool} (hb : body (s.lineRead c line) w = .to t pc taken)
    (ht : t.bare = (s.setChan c x).bare) :
    ∃ u, stencilStep c op line s body = .next u ∧ u.bare = (s.setChan c (x.goOn pc taken)).bare := by
  obtain ⟨hchan, -, -⟩ := State.chan_frame ht
  obtain ⟨u, hu, -, hbare⟩ := Did.answer_to s t c pc taken
  rw [stencilStep_of_executes he hop, hb]
  exact ⟨u, hu, hbare.trans (by rw [hchan, State.bare_setChan_of_bare ht])⟩

theorem stencilStep_bad {code : Nat} (hb : body (s.lineRead c line) w = .bad t code) : ∃ u, stencilStep c op line s body = .next u ∧
    (u.chan c).cstate = .idle ∧ (u.chan c).fault = BitVec.ofNat 8 code := by
  rw [stencilStep_of_executes he hop, hb]
  exact ⟨_, rfl, t.faulted_chan c code⟩

theorem stencilStep_left (hb : body (s.lineRead c line) w = .left t) (ht : t.bare = (s.setChan c x).bare) :
    ∃ u, stencilStep c op line s body = .next u ∧ u.bare = (s.setChan c x).bare := by
  rw [stencilStep_of_executes he hop, hb]
  exact ⟨_, rfl, t.bare_ended.trans ht⟩

end

end Sys2Proof.Machine
end

section
/-!
SUPPORT. Gates as a SIGNAL counts them down (R273, R299, R302): the dispatcher's tracing and items leave the table of gates alone.
-/
namespace Sys2Proof.Machine

variable (s : State)

@[simp] theorem State.gates_count (o : Occ) : (s.count o).disp.gates = s.disp.gates :=
  congrArg Disp.gates (State.disp_of_bare (s.bare_count o))

@[simp] theorem State.gates_traceWrite (r : TraceRec) : (s.traceWrite r).disp.gates = s.disp.gates := by
  have hwrite (addr : Nat) (bs : List Byte) := State.disp_of_bare (s.bare_hostWrite 0 addr bs)
  rw [State.traceWrite, State.modDisp_disp, hwrite]

@[simp] theorem State.gates_traceLost : s.traceLost.disp.gates = s.disp.gates := by
  unfold State.traceLost
  dsimp only
  split <;> simp

@[simp] theorem State.gates_trace (r : TraceRec) : (s.trace r).disp.gates = s.disp.gates := by
  unfold State.trace
  dsimp only
  split
  · rfl
  · split
    · rfl
    · split <;> simp [State.traceLose]

@[simp] theorem State.gates_itemReady (k : Nat) : (s.itemReady k).disp.gates = s.disp.gates := by
  unfold State.itemReady
  split
  · rfl
  · dsimp only
    split <;> simp [State.parkItem, State.pushItem, State.modGroup, State.setGroup]

@[simp] theorem State.gates_gateZero (g : Nat) (x : Gate) : (s.gateZero g x).disp.gates = s.disp.gates := by
  unfold State.gateZero
  dsimp only
  split <;> simp

/-- A decrement that a cancel absorbs leaves the gates alone (R302). -/
theorem State.gates_gateDec_of_absorbs {g : Nat} (h : s.absorbs g = true) (i : InstNo) (k : Option Nat) :
    (s.gateDec i g k).disp.gates = s.disp.gates := by
  have hin : s.disp.absorb.contains g = true := h
  simp only [State.gateDec, hin, if_true, State.gates_count, State.modDisp_disp]

/-- Any other counts down a gate that its owner names, unless the gate is ZERO (R299). -/
theorem State.gate_gateDec {g : Nat} {x : Gate} {i : InstNo} (h : s.absorbs g = false) (hg : kget s.disp.gates g = some x)
    (hi : x.owner = i) (k : Option Nat) :
    kget (s.gateDec i g k).disp.gates g = some (if x.count = 0 then x else { x with count := x.count - 1 }) := by
  have hnot : g ∉ s.disp.absorb := by simpa [State.absorbs] using h
  subst hi
  by_cases hz : x.count = 0
  · simp [State.gateDec, hnot, hg, hz]
  · have hset : (s.gateDec x.owner g k).disp.gates = kset s.disp.gates g { x with count := x.count - 1 } := by
      simp only [State.gateDec, List.contains_iff_mem, hnot, hg, hz, if_false, decide_true, Bool.true_and, bne_iff_ne, ne_eq,
        not_false_eq_true, if_true]
      split <;> simp
    rw [hset, kget_kset, if_pos rfl, if_neg hz]

end Sys2Proof.Machine
end

section
/-! LOOP, WAIT, SIGNAL, JUMP and END (O58). -/
namespace Sys2Proof.Machine

variable {s : State} {c d : ChanNo} {line : List Byte} {w : Word} {x : Chan}

/-! ### LOOP (R271) -/

/-- What a LOOP leaves in its counter (R271). -/
def Chan.loopNext (x : Chan) (lc : Fin 4) (w : Word) : BitVec 24 :=
  if vget x.loops lc = 0 then BitVec.ofNat 24 (fld w 31 8) - 1 else vget x.loops lc - 1

/-- A LOOP with a count, or in its course, has a counter whose value is stated (R271). -/
theorem loop_counts {old : BitVec 24} {count : Nat} (h : old ≠ 0 ∨ count ≠ 0) : (old == 0 && count == 0) = false := by
  rwa [Bool.and_eq_false_iff, beq_eq_false_iff_ne, beq_eq_false_iff_ne]

section
variable {lc : Fin 4} {n : BitVec 24} (he : s.Executes c 4 line w) (hlc : lc.val = fld w 5 4) (hx : (s.lineRead c line).chan c = x)
  (hn : x.loopNext lc w = n) (hcount : vget x.loops lc ≠ 0 ∨ fld w 31 8 ≠ 0)
include he hlc hx hn hcount

/-- A LOOP whose counter is 0 then has ended. -/
theorem execStencilLoop_ends (hz : n = 0) : ∃ t, execStencilLoop c line s = .next t ∧
    t.bare = (s.setChan c (Chan.goOn { x with loops := vset x.loops lc n } x.following false)).bare := by
  have hopen := loop_counts hcount
  unfold Chan.loopNext at hn
  unfold execStencilLoop
  refine stencilStep_to he (by decide) ?_ (s.bare_lineRead_setChan c line _)
  simp only [hx, fin_mk_mod hlc, hopen, hn, hz, bne_self_eq_false, Bool.false_and, Bool.false_eq_true, if_false, if_true,
    State.modChan_eq_setChan]

/-- Any other takes its branch. -/
theorem execStencilLoop_branches (hne : n ≠ 0) (hin : x.inProgram (x.target w) = true) : ∃ t, execStencilLoop c line s = .next t ∧
    t.bare = (s.setChan c (Chan.goOn { x with loops := vset x.loops lc n } (x.target w).toNat true)).bare := by
  have hopen := loop_counts hcount
  unfold Chan.loopNext at hn
  unfold execStencilLoop
  refine stencilStep_to he (by decide) ?_ (s.bare_lineRead_setChan c line _)
  simp only [hx, fin_mk_mod hlc, hopen, hn, hne, hin, Bool.not_true, Bool.and_false, Bool.false_eq_true, if_false,
    State.modChan_eq_setChan]

/-- A branch of a LOOP out of its program faults (R280). -/
theorem execStencilLoop_out (hne : n ≠ 0) (hout : x.inProgram (x.target w) = false) : ∃ t, execStencilLoop c line s = .next t ∧
    (t.chan c).cstate = .idle ∧ (t.chan c).fault = 0x03 := by
  have hopen := loop_counts hcount
  unfold execStencilLoop
  refine stencilStep_bad (t := s.lineRead c line) (code := fPcRange) he (by decide) ?_
  have hbranch : (n != 0 && !x.inProgram (x.target w)) = true := by
    rw [bne_iff_ne.2 hne, hout]
    rfl
  unfold Chan.loopNext at hn
  simp only [hx, fin_mk_mod hlc, hopen, hn, hbranch, Bool.false_eq_true, if_false, if_true]

end

/-! ### WAIT (R272) -/

/-- A channel that waits. -/
def Chan.waitsOn (x : Chan) (o : WaitOn) (w : Word) : Chan :=
  { x with cstate := .waiting, wait := some o, timeout := BitVec.ofNat 24 (fld w 63 40) }

section
variable (he : s.Executes c 5 line w) (hx : (s.lineRead c line).chan c = x)
include he hx

theorem execStencilWait_tick (hk : fld w 5 4 = 0) (hn : fld w 23 8 ≠ 0) : ∃ t, execStencilWait c line s = .next t ∧
    t.bare = (s.setChan c (x.waitsOn (.tick (fld w 23 8)) w)).bare := by
  unfold execStencilWait
  refine stencilStep_left he (by decide) ?_ (s.bare_lineRead_setChan c line _)
  simp [hk, hn, hx, State.modChan_eq_setChan, Chan.waitsOn]

theorem execStencilWait_gate (hk : fld w 5 4 = 1) (hg : s.holdsGate x.owner (fld w 19 8) = true) :
    ∃ t, execStencilWait c line s = .next t ∧ t.bare = (s.setChan c (x.waitsOn (.gate (fld w 19 8)) w)).bare := by
  have hheld : (s.lineRead c line).holdsGate x.owner (fld w 19 8) = true := by rw [State.holdsGate, State.lineRead_disp]; exact hg
  unfold execStencilWait
  refine stencilStep_left he (by decide) ?_ (s.bare_lineRead_setChan c line _)
  simp [hk, hheld, hx, State.modChan_eq_setChan, Chan.waitsOn]

theorem execStencilWait_no_gate (hk : fld w 5 4 = 1) (hg : s.holdsGate x.owner (fld w 19 8) = false) :
    ∃ t, execStencilWait c line s = .next t ∧ (t.chan c).cstate = .idle ∧ (t.chan c).fault = 0x07 := by
  have hheld : (s.lineRead c line).holdsGate x.owner (fld w 19 8) = false := by rw [State.holdsGate, State.lineRead_disp]; exact hg
  unfold execStencilWait
  refine stencilStep_bad (t := s.lineRead c line) (code := fGateInvalid) he (by decide) ?_
  simp [hk, hheld, hx]

section
variable (hd : d.val = fld w 11 8) (hk : fld w 5 4 = 2)
include hd hk

theorem execStencilWait_chan (howner : (s.chan d).owner = x.owner) : ∃ t, execStencilWait c line s = .next t ∧
    t.bare = (s.setChan c (x.waitsOn (.chan d (BitVec.ofNat 16 (fld w 39 24))) w)).bare := by
  unfold execStencilWait
  refine stencilStep_left he (by decide) ?_ (s.bare_lineRead_setChan c line _)
  simp [hk, fin_mk_mod hd, State.lineRead_owner, howner, hx, State.modChan_eq_setChan, Chan.waitsOn]

theorem execStencilWait_foreign (howner : (s.chan d).owner ≠ x.owner) : ∃ t, execStencilWait c line s = .next t ∧
    (t.chan c).cstate = .idle ∧ (t.chan c).fault = 0x08 := by
  unfold execStencilWait
  refine stencilStep_bad (t := s.lineRead c line) (code := fChanForeign) he (by decide) ?_
  simp [hk, fin_mk_mod hd, State.lineRead_owner, howner, hx]

end

end

/-- The channel whose WAIT ends goes on after it (R272). -/
theorem State.bare_endWait (h : (s.chan c).cstate = .waiting) (flag : Bool) : (s.endWait c flag).ended.bare = (s.setChan c
    { s.chan c with cstate := .running, wait := none, flag := flag, pc := (s.chan c).pc + 1 }).bare := by
  have hchan : (s.countInstr c).chan c = s.chan c := State.chan_of_bare (s.bare_countInstr c) c
  rw [State.bare_ended, State.endWait, State.modChan_eq_setChan, hchan, State.bare_setChan, State.bare_countInstr, State.bare_setChan]
  simp [h]

theorem execStencilWaitSatisfied_of_holds {o : WaitOn} (hrun : s.runs = true) (hst : (s.chan c).cstate = .waiting)
    (ho : (s.chan c).wait = some o) (hholds : s.waitHolds (s.chan c).owner o = true) :
    exec (.stencilWaitSatisfied c) s = .next (s.endWait c false).ended := by
  simp [exec, execStencilWaitSatisfied, hrun, hst, ho, hholds, done_eq_ended]

theorem execStencilWaitTimeout_of_set (hrun : s.runs = true) (hst : (s.chan c).cstate = .waiting) (ht : (s.chan c).timeout ≠ 0) :
    exec (.stencilWaitTimeout c) s =
      .next (s.endWait c !(((s.chan c).wait.map (s.waitHolds (s.chan c).owner)).getD false)).ended := by
  have hgo : (s.runs && (s.chan c).cstate == .waiting && (s.chan c).timeout != 0) = true := by
    rw [hrun, hst, bne_iff_ne.2 ht]
    rfl
  exact if_pos hgo

/-! ### SIGNAL (R273, R277) -/

/-- A channel whose count register a SIGNAL counts down: a decrement of the cycle of a write to it is discarded (R277). -/
def Chan.countedDown (x : Chan) : Chan :=
  { x with count := if x.discard ≠ 0 ∨ x.count = 0 then x.count else x.count - 1, discard := x.discard - 1 }

theorem Chan.countedDown_of_discard (h : x.discard ≠ 0) : x.countedDown = { x with discard := x.discard - 1 } := by
  simp [Chan.countedDown, h]

theorem Chan.countedDown_of_zero (h : x.discard = 0) (hz : x.count = 0) : x.countedDown = x := by
  rw [Chan.countedDown, if_pos (.inr hz), h]
  cases x
  cases h
  rfl

theorem Chan.countedDown_of_count (h : x.discard = 0) (hz : x.count ≠ 0) : x.countedDown = { x with count := x.count - 1 } := by
  rw [Chan.countedDown, if_neg (by tauto), h]

theorem State.bare_countDown (s : State) (d : ChanNo) : (s.countDown d).bare = (s.modChan d Chan.countedDown).bare := by
  rw [State.modChan_eq_setChan]
  unfold State.countDown
  dsimp only
  by_cases hd : (s.chan d).discard = 0
  · by_cases hz : (s.chan d).count = 0
    · rw [if_neg (by simp [hd]), if_pos hz, Chan.countedDown_of_zero hd hz, State.setChan_chan_self]
    · rw [if_neg (by simp [hd]), if_neg hz, Chan.countedDown_of_count hd hz]
      split
      · exact State.bare_raise _ _ _ _
      · rfl
  · rw [if_pos (bne_iff_ne.2 hd), Chan.countedDown_of_discard hd]
    rfl

/-- The channels after the actions of a SIGNAL of channel `c` on the posts of `c` and the count of channel `d`. -/
def State.signalChans (s : State) (c d : ChanNo) (w : Word) : State :=
  let s := if bitOf w 7 then s.modChan c fun x => { x with post := x.post + 1 } else s
  if bitOf w 6 then s.modChan d Chan.countedDown else s

/-- The actions of a SIGNAL that concern no gate. -/
def State.signalled (s : State) (c d : ChanNo) (w : Word) : State :=
  let s := if bitOf w 7 then s.modChan c fun x => { x with post := x.post + 1 } else s
  let s := if bitOf w 6 then s.countDown d else s
  if bitOf w 5 then s.raise c kSignal (fld w 47 32) else s

/-- All actions of a SIGNAL for its owner `i` (R273). -/
def State.signalAll (s : State) (c d : ChanNo) (i : InstNo) (w : Word) : State :=
  if bitOf w 4 then (s.signalled c d w).gateDec i (fld w 19 8) (some c.val) else s.signalled c d w

theorem State.bare_signalled (s : State) (c d : ChanNo) (w : Word) : (s.signalled c d w).bare = (s.signalChans c d w).bare := by
  have hraise (u : State) : (if bitOf w 5 then u.raise c kSignal (fld w 47 32) else u).bare = u.bare := by
    split
    · exact u.bare_raise c _ _
    · rfl
  unfold State.signalled State.signalChans
  dsimp only
  rw [hraise]
  split
  · exact State.bare_countDown _ d
  · rfl

theorem State.signalled_disp (s : State) (c d : ChanNo) (w : Word) : (s.signalled c d w).disp = s.disp := by
  rw [State.disp_of_bare (s.bare_signalled c d w)]
  unfold State.signalChans
  dsimp only
  split <;> split <;> rfl

theorem State.chan_of_undispatched {s t : State} (h : t.undispatched = s.undispatched) (e : ChanNo) : t.chan e = s.chan e :=
  congrArg (vget · e) (congrArg State.chans h : t.undispatched.chans = s.undispatched.chans)

theorem State.chan_ite_modChan (s : State) (c e : ChanNo) (f : Chan → Chan) (b : Bool) :
    (if b then s.modChan c f else s).chan e = if e = c ∧ b = true then f (s.chan e) else s.chan e := by
  by_cases he : e = c <;> cases b <;> simp [he]

/-- Channel `e` after a SIGNAL: its posts where it is the channel that executes, its count where it is the one named. -/
theorem State.signalAll_chan (s : State) (c d e : ChanNo) (i : InstNo) (w : Word) : (s.signalAll c d i w).chan e =
    { s.chan e with
      post := (s.chan e).post + if e = c ∧ bitOf w 7 = true then 1 else 0
      count := if e = d ∧ bitOf w 6 = true then (s.chan e).countedDown.count else (s.chan e).count
      discard := if e = d ∧ bitOf w 6 = true then (s.chan e).countedDown.discard else (s.chan e).discard } := by
  have hgate : (s.signalAll c d i w).chan e = (s.signalled c d w).chan e := by
    unfold State.signalAll
    split
    · exact State.chan_of_undispatched (State.undispatched_gateDec ..) e
    · rfl
  rw [hgate, State.chan_of_bare (s.bare_signalled c d w)]
  unfold State.signalChans
  dsimp only
  rw [State.chan_ite_modChan, State.chan_ite_modChan]
  by_cases hc : e = c ∧ bitOf w 7 = true
  · by_cases hd : e = d ∧ bitOf w 6 = true
    · simp only [if_pos hc, if_pos hd]
      rfl
    · simp only [if_pos hc, if_neg hd]
  · by_cases hd : e = d ∧ bitOf w 6 = true
    · simp only [if_neg hc, if_pos hd, add_zero]
      rfl
    · simp only [if_neg hc, if_neg hd, add_zero]

theorem execStencilSignal_eq (he : s.Executes c 6 line w) (hd : d.val = fld w 23 20)
    (hgate : bitOf w 4 = false ∨ s.holdsGate (s.chan c).owner (fld w 19 8) = true ∨ s.absorbs (fld w 19 8) = true)
    (howner : bitOf w 6 = false ∨ (s.chan d).owner = (s.chan c).owner) :
    let v := (s.lineRead c line).signalAll c d (s.chan c).owner w
    ∃ t, execStencilSignal c line s = .next t ∧
      t.bare = (v.setChan c ((v.chan c).goOn (((s.lineRead c line).chan c).pc.toNat + 1) false)).bare := by
  have hheld : (bitOf w 4 && !s.holdsGate (s.chan c).owner (fld w 19 8) && !s.absorbs (fld w 19 8)) = false := by
    rcases hgate with h | h | h <;> simp [h]
  have hmine : (bitOf w 6 && (s.chan d).owner != (s.chan c).owner) = false := by
    rcases howner with h | h <;> simp [h]
  intro v
  obtain ⟨t, ht, -, hbare⟩ := Did.answer_to s v c (((s.lineRead c line).chan c).pc.toNat + 1) false
  refine ⟨t, ?_, hbare⟩
  rw [← ht, execStencilSignal, stencilStep_of_executes he (by decide)]
  simp only [fin_mk_mod hd, State.holdsGate, State.absorbs, State.lineRead_disp, State.lineRead_owner] at hheld ⊢
  simp only [hheld, hmine, Bool.false_eq_true, if_false]
  rfl

/-! ### What a SIGNAL leaves (R273, R277) -/

/-- A SIGNAL of no gate leaves the dispatcher alone. -/
theorem State.signalAll_disp_of_no_gate (h : bitOf w 4 = false) (s : State) (c d : ChanNo) (i : InstNo) :
    (s.signalAll c d i w).disp = s.disp := by
  rw [State.signalAll, if_neg (by simp [h]), State.signalled_disp]

theorem State.gates_signalAll_of_absorbs (h : bitOf w 4 = true) (ha : s.absorbs (fld w 19 8) = true) (c d : ChanNo) (i : InstNo) :
    (s.signalAll c d i w).disp.gates = s.disp.gates := by
  have hdisp := s.signalled_disp c d w
  rw [State.signalAll, if_pos h, State.gates_gateDec_of_absorbs _ (by rw [State.absorbs, hdisp]; exact ha), hdisp]

theorem State.gate_signalAll {i : InstNo} {g : Gate} (h : bitOf w 4 = true) (ha : s.absorbs (fld w 19 8) = false)
    (hg : kget s.disp.gates (fld w 19 8) = some g) (hi : g.owner = i) (c d : ChanNo) :
    kget (s.signalAll c d i w).disp.gates (fld w 19 8) = some (if g.count = 0 then g else { g with count := g.count - 1 }) := by
  have hdisp := s.signalled_disp c d w
  rw [State.signalAll, if_pos h]
  exact State.gate_gateDec _ (by rw [State.absorbs, hdisp]; exact ha) (by rw [hdisp]; exact hg) hi _

/-- The holder of a gate is its owner (R266). -/
theorem State.owner_of_holdsGate {i : InstNo} {k : Nat} {g : Gate} (h : s.holdsGate i k = true) (hg : kget s.disp.gates k = some g) :
    g.owner = i := by
  simpa [State.holdsGate, hg] using h

/-! ### JUMP (R274) -/

/-- A JUMP takes its branch. -/
def Chan.jumps (x : Chan) (w : Word) : Prop :=
  fld w 5 4 = 0 ∨ (fld w 5 4 = 1 ∧ x.flag = true) ∨ (fld w 5 4 = 2 ∧ x.flag = false)

/-- A JUMP that is not taken has a condition, which fails. -/
theorem State.Executes.of_not_jumps (he : s.Executes c 7 line w) (hj : ¬x.jumps w) :
    (fld w 5 4 = 1 ∧ x.flag = false) ∨ (fld w 5 4 = 2 ∧ x.flag = true) := by
  obtain ⟨-, -, -, -, hop, -, hbad⟩ := he
  have hlt : fld w 5 4 < 4 := fld_lt w 5 4
  have hne : fld w 5 4 ≠ 3 := by simpa [stnCodeBad, hop] using hbad
  obtain ⟨hzero, hone, htwo⟩ : fld w 5 4 ≠ 0 ∧ (fld w 5 4 = 1 → x.flag = false) ∧ (fld w 5 4 = 2 → x.flag = true) := by
    simpa [Chan.jumps] using hj
  rcases (by omega : fld w 5 4 = 1 ∨ fld w 5 4 = 2) with h | h
  · exact .inl ⟨h, hone h⟩
  · exact .inr ⟨h, htwo h⟩

section
variable (he : s.Executes c 7 line w) (hx : (s.lineRead c line).chan c = x)
include he hx

theorem execStencilJump_goes (hj : x.jumps w) (hin : x.inProgram (x.target w) = true) : ∃ t, execStencilJump c line s = .next t ∧
    t.bare = (s.setChan c (Chan.goOn { x with flag := x.flag && !bitOf w 6 } (x.target w).toNat true)).bare := by
  unfold execStencilJump
  refine stencilStep_to he (by decide) ?_ (s.bare_lineRead_setChan c line _)
  rcases hj with h | ⟨h, hf⟩ | ⟨h, hf⟩
  · simp [h, hin, hx, State.modChan_eq_setChan]
  · simp [h, hf, hin, hx, State.modChan_eq_setChan]
  · simp [h, hf, hin, hx, State.modChan_eq_setChan]

theorem execStencilJump_out (hj : x.jumps w) (hout : x.inProgram (x.target w) = false) : ∃ t, execStencilJump c line s = .next t ∧
    (t.chan c).cstate = .idle ∧ (t.chan c).fault = 0x03 := by
  unfold execStencilJump
  refine stencilStep_bad (t := s.lineRead c line) (code := fPcRange) he (by decide) ?_
  rcases hj with h | ⟨h, hf⟩ | ⟨h, hf⟩
  · simp [h, hout, hx]
  · simp [h, hf, hout, hx]
  · simp [h, hf, hout, hx]

theorem execStencilJump_passes (hj : ¬x.jumps w) : ∃ t, execStencilJump c line s = .next t ∧
    t.bare = (s.setChan c (x.goOn (x.pc.toNat + 1) false)).bare := by
  have hline := s.bare_lineRead c line
  rw [hx] at hline
  unfold execStencilJump
  refine stencilStep_to he (by decide) ?_ hline
  rcases he.of_not_jumps hj with ⟨h, hf⟩ | ⟨h, hf⟩
  · simp [h, hf, hx, Chan.following]
  · simp [h, hf, hx, Chan.following]

end

/-! ### END (R274, R278) -/

theorem execStencilEnd_eq (he : s.Executes c 8 line w) : ∃ t, execStencilEnd c line s = .next t ∧
    t.bare = (s.setChan c ((s.lineRead c line).chan c).idle).bare := by
  have hcount := (s.lineRead c line).bare_countInstr c
  have hchan := State.chan_of_bare hcount c
  have hidle : (((s.lineRead c line).countInstr c).setChan c ((s.lineRead c line).chan c).idle).bare =
      (s.setChan c ((s.lineRead c line).chan c).idle).bare := State.bare_setChan_of_bare (hcount.trans (s.bare_lineRead c line)) _
  unfold execStencilEnd
  by_cases hq : bitOf w 4 = true
  · refine stencilStep_left he (by decide) (if_pos hq) ?_
    rw [hchan, ← hidle]
    split
    · exact State.bare_unreserve _ _ _
    · rfl
  · refine stencilStep_left he (by decide) (if_neg hq) ?_
    rw [State.bare_endChan_of_ne (by decide), hchan, hidle]

/-! ### Words that are no instruction (R267, R280) -/

theorem execStencilEnd_of_pc_outside (hrun : s.chanRuns c = true) (hpc : s.pcOk (s.chan c) = false) :
    execStencilEnd c line s = .next ((s.countInstr c).faultChan c fPcRange).ended := by
  unfold execStencilEnd
  exact stencilStep_of_pc_outside hrun hpc _

theorem execStencilEnd_of_bad_opcode (hrun : s.chanRuns c = true) (hpc : s.pcOk (s.chan c) = true)
    (hline : (s.chan c).entersLine = true → line.length = 64)
    (hw : fld (s.progWord (s.chan c) line) 3 0 = 0 ∨ 8 < fld (s.progWord (s.chan c) line) 3 0) :
    execStencilEnd c line s = .next (((s.lineRead c line).countInstr c).faultChan c fBadOpcode).ended := by
  unfold execStencilEnd
  exact stencilStep_of_bad_opcode hrun hpc hline hw _

/-- A channel that executes an instruction is RUNNING (R263). -/
theorem State.Executes.running {op : Nat} (h : s.Executes c op line w) : (s.chan c).cstate = .running := by
  obtain ⟨hrun, -⟩ := h
  simp only [State.chanRuns, Bool.and_eq_true, beq_iff_eq] at hrun
  exact hrun.1.2

/-- Settles O58: each instruction by the lemmas about its command above. -/
theorem stencilFlow : Obligations.StencilFlow := by
  refine ⟨fun s c line w lc he hlc => ?_, fun s c line w he => ?_, fun s c hrun hst => ?_, fun s c line w d he hd hgate howner => ?_,
    fun s c line w he => ?_, fun s c line w he => ?_, fun s c line hrun => ⟨fun hpc => ?_, fun hpc hline hw => ?_⟩⟩
  · intro x old n hcount
    refine ⟨fun hgo => ?_, execStencilLoop_out he hlc rfl rfl hcount⟩
    by_cases hz : n = 0
    · obtain ⟨t, ht, hbare⟩ := execStencilLoop_ends he hlc rfl rfl hcount hz
      obtain ⟨hchan, hrest, hframe⟩ := State.chan_frame hbare
      refine ⟨t, ht, hchan.trans ?_, hrest, hframe⟩
      rw [if_pos hz, if_pos hz]
      rfl
    · obtain ⟨t, ht, hbare⟩ := execStencilLoop_branches he hlc rfl rfl hcount hz (hgo.resolve_left hz)
      obtain ⟨hchan, hrest, hframe⟩ := State.chan_frame hbare
      refine ⟨t, ht, hchan.trans ?_, hrest, hframe⟩
      rw [if_neg hz, if_neg hz]
      rfl
  · intro x waits
    have hwaits {o : WaitOn} (h : ∃ t, execStencilWait c line s = .next t ∧ t.bare = (s.setChan c (x.waitsOn o w)).bare) : waits o := by
      obtain ⟨t, ht, hbare⟩ := h
      obtain ⟨hchan, -, hframe⟩ := State.chan_frame hbare
      exact ⟨t, ht, hchan, hframe⟩
    exact ⟨fun hk hn => hwaits (execStencilWait_tick he rfl hk hn), fun hk hg => hwaits (execStencilWait_gate he rfl hk hg),
      execStencilWait_no_gate he rfl, fun d hd hk => ⟨fun howner => hwaits (execStencilWait_chan he rfl hd hk howner),
        execStencilWait_foreign he rfl hd hk⟩⟩
  · intro goes
    have hgoes (flag : Bool) : goes (s.endWait c flag).ended flag := State.chan_frame (State.bare_endWait hst flag)
    exact ⟨fun o ho hholds => ⟨_, execStencilWaitSatisfied_of_holds hrun hst ho hholds, hgoes false⟩,
      fun ht => ⟨_, execStencilWaitTimeout_of_set hrun hst ht, hgoes _⟩⟩
  · obtain ⟨t, ht, hbare⟩ := execStencilSignal_eq he hd hgate howner
    have hdisp : t.disp = ((s.lineRead c line).signalAll c d (s.chan c).owner w).disp :=
      State.disp_of_bare (s := State.setChan _ c _) hbare
    have hlineDisp := s.lineRead_disp c line
    obtain ⟨hchan, hrest, -⟩ := State.chan_frame hbare
    have hsignal (e : ChanNo) := (s.lineRead c line).signalAll_chan c d e (s.chan c).owner w
    obtain ⟨l, b, hc⟩ := s.lineRead_chan c c line
    obtain ⟨l', b', hd'⟩ := s.lineRead_chan c d line
    have hkept : (t.chan d).count = (((s.lineRead c line).signalAll c d (s.chan c).owner w).chan d).count := by
      by_cases hdc : d = c
      · rw [hdc] at hchan ⊢
        rw [hchan]
        rfl
      · rw [hrest d hdc]
    rw [hsignal c, hc] at hchan
    rw [hsignal d, hd'] at hkept
    refine ⟨t, ht, ?_, ?_, ?_, ?_, fun h6 => ?_, fun h4 ha => ?_, fun h4 ha g hg => ?_, fun h4 => ?_⟩
    · rw [hchan]
      rfl
    · rw [hchan]
      exact he.running
    · rw [hchan]
      rfl
    · rw [hchan]
      simp [Chan.goOn]
    · rw [hkept]
      simp only [h6, and_self, if_true]
      rfl
    · rw [hdisp, State.gates_signalAll_of_absorbs h4 (by rw [State.absorbs, hlineDisp]; exact ha), hlineDisp]
    · have hheld : s.holdsGate (s.chan c).owner (fld w 19 8) = true := by simpa [h4, ha] using hgate
      rw [hdisp]
      exact State.gate_signalAll h4 (by rw [State.absorbs, hlineDisp]; exact ha) (by rw [hlineDisp]; exact hg)
        (State.owner_of_holdsGate hheld hg) c d
    · rw [hdisp, State.signalAll_disp_of_no_gate h4, hlineDisp]
  · intro x taken
    refine ⟨fun hj hin => ?_, execStencilJump_out he rfl, fun hj => ?_⟩
    · obtain ⟨t, ht, hbare⟩ := execStencilJump_goes he rfl hj hin
      obtain ⟨hchan, -, hframe⟩ := State.chan_frame hbare
      exact ⟨t, ht, hchan, hframe⟩
    · obtain ⟨t, ht, hbare⟩ := execStencilJump_passes he rfl hj
      obtain ⟨hchan, -, hframe⟩ := State.chan_frame hbare
      exact ⟨t, ht, hchan, hframe⟩
  · obtain ⟨t, ht, hbare⟩ := execStencilEnd_eq he
    exact ⟨t, ht, State.chan_frame hbare⟩
  · exact ⟨_, execStencilEnd_of_pc_outside hrun hpc, s.faulted_chan c fPcRange⟩
  · exact ⟨_, execStencilEnd_of_bad_opcode hrun hpc hline hw, (s.lineRead c line).faulted_chan c fBadOpcode⟩

end Sys2Proof.Machine
end

section
/-!
SUPPORT. The data of MOVE, FILL and CMP (R265, R268 to R270, R275): what a burst reads is no reporting, a burst written changes the hawk's
bytes of its area or goes out to the host, and an increment changes the low bits of one pointer.
-/
namespace Sys2Proof.Machine

variable {s t u : State} {c : ChanNo} {x : Chan} {k off : Nat} {bs : List Byte}

/-! ### The hawk and one channel changed -/

/-- The hawk's bytes replaced. -/
def State.setHawk (s : State) (m : List Host.Cell) : State := s.modMem fun y => { y with hawk := m }

/-- What is read of a state in which, reporting apart, channel `c` and the hawk's bytes have changed. -/
theorem State.data_frame {m : List Host.Cell} (h : t.bare = ((s.setHawk m).setChan c x).bare) :
    t.chan c = x ∧ (∀ d, d ≠ c → t.chan d = s.chan d) ∧ t.mem.hawk = m ∧
      t.bare = State.bare { s with chans := t.chans, mem := { s.mem with hawk := t.mem.hawk } } := by
  obtain ⟨hchan, hrest, hframe⟩ := State.chan_frame h
  have hhawk : t.mem.hawk = m := State.hawk_of_bare (u := (s.setHawk m).setChan c x) h
  exact ⟨hchan, hrest, hhawk, by rw [hhawk]; exact hframe⟩

/-! ### What reporting keeps of an area -/

section
variable (h : t.bare = s.bare)
include h

theorem State.ptrRegion_of_bare (i : InstNo) (w : Word) : t.ptrRegion i w = s.ptrRegion i w := by
  have hregions : (t.inst i).regions = (s.inst i).regions :=
    (congrArg Inst.regions (State.inst_bare_of_bare h i) : (t.inst i).bare.regions = (s.inst i).bare.regions)
  rw [State.ptrRegion, hregions, State.ptrRegion]

theorem State.hawkPhys_of_bare (i : InstNo) (a : Nat) : t.hawkPhys i a = s.hawkPhys i a := by
  have hmap : (t.inst i).unitMap = (s.inst i).unitMap :=
    (congrArg Inst.unitMap (State.inst_bare_of_bare h i) : (t.inst i).bare.unitMap = (s.inst i).bare.unitMap)
  rw [State.hawkPhys, hmap, State.hawkPhys]

theorem State.accessFault_of_bare (x : Chan) (k len : Nat) : t.accessFault x k len = s.accessFault x k len := by
  simp only [State.accessFault, State.ptrRegion_of_bare h]

theorem State.areaAt_of_bare (x : Chan) (k : Nat) : t.areaAt x k = s.areaAt x k := by
  simp only [State.areaAt, State.ptrRegion_of_bare h]

theorem State.overlap_of_bare (x : Chan) (k j len : Nat) : t.overlap x k j len = s.overlap x k j len := by
  simp only [State.overlap, State.areaAt_of_bare h]

theorem State.areaBytes_of_bare (x : Chan) (k off len : Nat) (host : List Byte) :
    t.areaBytes x k off len host = s.areaBytes x k off len host := by
  simp only [State.areaBytes, State.hawkRead, State.hawkByte, State.hawkPhys_of_bare h, State.hawk_of_bare h, State.areaAt_of_bare h]

end

theorem State.lineRead_accessFault (s : State) (c : ChanNo) (line : List Byte) (x : Chan) (k len : Nat) :
    (s.lineRead c line).accessFault x k len = s.accessFault x k len :=
  State.accessFault_of_bare (s := s.setChan c _) (s.bare_lineRead c line) x k len

theorem State.lineRead_canWrite (s : State) (c : ChanNo) (line : List Byte) (i : InstNo) : (s.lineRead c line).canWrite i = s.canWrite i :=
  State.canWrite_of_core (s := s.setChan c _) (State.core_of_bare (s.bare_lineRead c line)) i

theorem State.lineRead_areaBytes (s : State) (c : ChanNo) (line : List Byte) (x : Chan) (k off len : Nat) (host : List Byte) :
    (s.lineRead c line).areaBytes x k off len host = s.areaBytes x k off len host :=
  State.areaBytes_of_bare (s := s.setChan c _) (s.bare_lineRead c line) x k off len host

/-- A read of an area is a report. -/
@[simp] theorem State.bare_areaRead (s : State) (c : ChanNo) (k off len : Nat) : (s.areaRead c k off len).bare = s.bare := by
  unfold State.areaRead
  dsimp only
  split
  · exact State.bare_countHawk ..
  · exact State.bare_each _ _ _ fun t j => State.bare_hostRead ..

theorem State.noteEccBy_ok (s : State) (i : Option InstNo) (k d : Option Nat) : s.noteEccBy i .ok k d = s := rfl

/-! ### A burst written (R268, R269, R275) -/

/-- The hawk's bytes after a burst has been written to the area of pointer `k`. -/
def State.hawkAfter (s : State) (x : Chan) (k off : Nat) (bs : List Byte) : List Host.Cell :=
  if x.inHawk k then (s.hawkWrite x.owner (s.areaAt x k + off) bs).mem.hawk else s.mem.hawk

theorem State.hawkAfter_of_bare (h : t.bare = s.bare) (x : Chan) (k off : Nat) (bs : List Byte) :
    t.hawkAfter x k off bs = s.hawkAfter x k off bs := by
  simp only [State.hawkAfter, State.hawkWrite, State.modMem, State.hawkCells, State.hawkPhys_of_bare h, State.hawk_of_bare h,
    State.areaAt_of_bare h]

theorem State.bare_areaWrite (s : State) (c : ChanNo) (k off : Nat) (bs : List Byte) :
    (s.areaWrite c k off bs).bare = (s.setHawk (s.hawkAfter (s.chan c) k off bs)).bare := by
  unfold State.areaWrite State.hawkAfter
  cases bs with
  | nil =>
    simp only [List.isEmpty_nil, if_true]
    split <;> rfl
  | cons b bs =>
    simp only [List.isEmpty_cons, Bool.false_eq_true, if_false]
    split
    · exact State.bare_countHawk ..
    · exact State.bare_each _ _ _ fun t j => State.bare_hostWriteBy ..

/-- A burst written once the line of its instruction has been read. -/
theorem State.bare_areaWrite_of_bare (h : u.bare = (s.setChan c x).bare) (k off : Nat) (bs : List Byte) :
    (u.areaWrite c k off bs).bare = ((s.setHawk (s.hawkAfter x k off bs)).setChan c x).bare := by
  obtain ⟨hchan, -, -⟩ := State.chan_frame h
  have hafter : u.hawkAfter x k off bs = s.hawkAfter x k off bs := State.hawkAfter_of_bare (s := s.setChan c x) h x k off bs
  have hset : (u.setHawk (s.hawkAfter x k off bs)).bare = ((s.setChan c x).setHawk (s.hawkAfter x k off bs)).bare :=
    congrArg (·.setHawk (s.hawkAfter x k off bs)) h
  rw [State.bare_areaWrite, hchan, hafter, hset]
  rfl

/-- A byte of the hawk outside the area written keeps its value. -/
theorem State.memRead_hawkAfter {a : Nat} (h : ∀ j, j < bs.length → s.hawkPhys x.owner (s.areaAt x k + off + j) ≠ some a) :
    memRead (s.hawkAfter x k off bs) a = memRead s.mem.hawk a := by
  unfold State.hawkAfter
  split
  · refine memRead_memWriteAll _ _ _ fun e he => ?_
    obtain ⟨⟨b, j⟩, hj, hcell⟩ := List.mem_filterMap.1 he
    obtain ⟨a', ha', rfl⟩ := Option.map_eq_some_iff.1 hcell
    have hlt : j < bs.length := by simpa using List.snd_lt_of_mem_zipIdx hj
    exact fun heq => h j hlt (heq ▸ ha')
  · rfl

/-- What a step puts out stays out. -/
theorem State.Adds.mem_each {α : Type} {f : State → α → State} {l : List α} {a : α} {o : Out} (ha : a ∈ l)
    (hadds : ∀ t b, State.Adds t (f t b)) (ho : ∀ t, o ∈ (f t a).out) (s : State) : o ∈ (s.each l f).out := by
  induction l generalizing s with
  | nil => simp at ha
  | cons b l ih =>
    rcases List.mem_cons.1 ha with rfl | ha
    · exact (State.Adds.each hadds l (f s a)).mem (ho s)
    · exact ih ha (f s b)

theorem State.out_hostWriteBy (s : State) (i : InstNo) (addr : Nat) (bs : List Byte) (k d : Option Nat) :
    .hostWrite i addr bs ∈ (s.hostWriteBy i addr bs k d).out :=
  ((State.adds_logDirty _ i addr _).trans (State.adds_count _ _)).mem (List.mem_cons_self ..)

/-- Each burst of an area of host memory goes out. -/
theorem State.out_areaWrite (hk : (s.chan c).inHawk k = false) {j : Nat} (hj : j < (bs.length + 511) / 512) :
    .hostWrite (s.chan c).owner (s.areaAt (s.chan c) k + off + 512 * j) (bytesAt bs (512 * j) 512) ∈ (s.areaWrite c k off bs).out := by
  have hne : bs.isEmpty = false := by
    cases bs with
    | nil => simp at hj
    | cons b bs => rfl
  simp only [State.areaWrite, hne, hk, Bool.false_eq_true, if_false]
  refine State.Adds.mem_each (List.mem_range.2 hj) ?_ ?_ s
  · exact fun t b => t.adds_hostWriteBy _ _ _ _ _
  · exact fun t => t.out_hostWriteBy _ _ _ _ _

/-! ### The step of an instruction (R275) -/

/-- A channel whose instruction has been carried out up to `off` of its `len` bytes. -/
def Chan.afterBurst (x : Chan) (off len : Nat) (f : Chan → Chan) : Chan :=
  if len ≤ off then (f x).goOn x.following false else { x with moved := off }

theorem Did.answer_burstDone (s v : State) (c : ChanNo) (off len : Nat) (f : Chan → Chan) :
    ∃ t, (v.burstDone c off len f).answer c s = .next t ∧ v.Adds t ∧ t.bare = (v.setChan c ((v.chan c).afterBurst off len f)).bare := by
  unfold State.burstDone Chan.afterBurst
  by_cases hl : len ≤ off
  · obtain ⟨t, ht, hadds, hbare⟩ := Did.answer_to s (v.modChan c f) c (v.chan c).following false
    rw [State.modChan_chan, if_pos rfl, State.modChan_eq_setChan, State.setChan_setChan] at hbare
    rw [if_pos hl, if_pos hl]
    exact ⟨t, ht, (State.Adds.of_eq (State.modChan_out ..)).trans hadds, hbare⟩
  · rw [if_neg hl, if_neg hl]
    exact ⟨_, rfl, (State.Adds.of_eq (State.modChan_out ..)).trans (State.adds_ended _), State.bare_ended _⟩

/-- A step that has brought the hawk to `m` goes on from its bursts. -/
theorem stencilStep_burst {op len : Nat} {line : List Byte} {w : Word} {body : State → Word → Did} {f : Chan → Chan} {m : List Host.Cell}
    (he : s.Executes c op line w) (hop : 0 < op ∧ op ≤ 8) (hb : body (s.lineRead c line) w = u.burstDone c off len f)
    (hu : u.bare = ((s.setHawk m).setChan c x).bare) : ∃ t, stencilStep c op line s body = .next t ∧ u.Adds t ∧
      t.bare = ((s.setHawk m).setChan c (x.afterBurst off len f)).bare := by
  obtain ⟨hchan, -, -⟩ := State.chan_frame hu
  obtain ⟨t, ht, hadds, hbare⟩ := Did.answer_burstDone s u c off len f
  rw [stencilStep_of_executes he hop, hb]
  exact ⟨t, ht, hadds, hbare.trans (by rw [hchan, State.bare_setChan_of_bare hu])⟩

/-! ### Increments (R265, R267) -/

/-- The bits of a pointer that an increment changes: 32 of a hawk pointer, 62 of any other. -/
def ptrWidth (w : Word) : Nat := if ptrSpace w = 2 then 32 else 62

theorem ptrWidth_cases (w : Word) : ptrWidth w = 32 ∨ ptrWidth w = 62 := by
  unfold ptrWidth
  split
  · exact .inl rfl
  · exact .inr rfl

/-- A word whose `n` low bits are replaced. -/
theorem fld_replace_low {w : Word} {n r : Nat} (hn : n = 32 ∨ n = 62) (hr : r < 2 ^ n) :
    fld (BitVec.ofNat 64 ((w.toNat >>> n) * 2 ^ n + r)) 63 n = fld w 63 n ∧
      fld (BitVec.ofNat 64 ((w.toNat >>> n) * 2 ^ n + r)) (n - 1) 0 = r := by
  have hw := w.isLt
  rcases hn with rfl | rfl <;> simp only [fld, BitVec.toNat_ofNat, Nat.shiftRight_eq_div_pow] <;> omega

/-- The distance by which an increment moves a pointer (R267). -/
def Chan.increment (x : Chan) (k : Fin 8) (code len : Nat) : Int :=
  match code with
  | 1 => len
  | 2 => (vget x.strides k).toInt
  | _ => 0

/-- An increment of a pointer, its bits above the offset as before. -/
theorem Chan.advance_ptrs (x : Chan) (k : Fin 8) (code len : Nat) : (x.advance k.val code len).ptrs = vset x.ptrs k
    (BitVec.ofNat 64 (((vget x.ptrs k).toNat >>> ptrWidth (vget x.ptrs k)) * 2 ^ ptrWidth (vget x.ptrs k) +
      (((fld (vget x.ptrs k) (ptrWidth (vget x.ptrs k) - 1) 0 : Int) + x.increment k code len) %
        (2 ^ ptrWidth (vget x.ptrs k) : Int)).toNat)) := by
  simp only [Chan.advance, fin_mk_mod (rfl : k.val = k.val)]
  rfl

/-- An increment changes the low bits of its pointer alone. -/
theorem Chan.advance_spec (x : Chan) (k : Fin 8) (code len : Nat) :
    let w := vget x.ptrs k
    let y := x.advance k.val code len
    (∀ j, j ≠ k → vget y.ptrs j = vget x.ptrs j) ∧ fld (vget y.ptrs k) 63 (ptrWidth w) = fld w 63 (ptrWidth w) ∧
      (fld (vget y.ptrs k) (ptrWidth w - 1) 0 : Int) = ((fld w (ptrWidth w - 1) 0 : Int) + x.increment k code len) % 2 ^ ptrWidth w := by
  intro w y
  have hpos : (0 : Int) < 2 ^ ptrWidth w := by positivity
  have hlow := Int.emod_nonneg ((fld w (ptrWidth w - 1) 0 : Int) + x.increment k code len) hpos.ne'
  have hlt := Int.emod_lt_of_pos ((fld w (ptrWidth w - 1) 0 : Int) + x.increment k code len) hpos
  obtain ⟨hhigh, hval⟩ := fld_replace_low (w := w) (ptrWidth_cases w) (r := (((fld w (ptrWidth w - 1) 0 : Int) +
    x.increment k code len) % (2 ^ ptrWidth w : Int)).toNat) (by zify; rwa [Int.toNat_of_nonneg hlow])
  have hy : y.ptrs = _ := x.advance_ptrs k code len
  refine ⟨fun j hj => ?_, ?_, ?_⟩
  · rw [hy, vget_vset, if_neg hj]
  · rw [hy, vget_vset, if_pos rfl]
    exact hhigh
  · rw [hy, vget_vset, if_pos rfl]
    exact (congrArg Int.ofNat hval).trans (Int.toNat_of_nonneg hlow)

theorem fld_low_lt (w : Word) : fld w (ptrWidth w - 1) 0 < 2 ^ ptrWidth w := by
  have hpos : ptrWidth w - 1 + 1 - 0 = ptrWidth w := by
    rcases ptrWidth_cases w with h | h <;> rw [h]
  exact hpos ▸ fld_lt w (ptrWidth w - 1) 0

/-- Increment code 0 leaves its pointer where it is. -/
theorem Chan.advance_zero_low (x : Chan) (k : Fin 8) (len : Nat) :
    let w := vget x.ptrs k
    fld (vget (x.advance k.val 0 len).ptrs k) (ptrWidth w - 1) 0 = fld w (ptrWidth w - 1) 0 := by
  obtain ⟨-, -, hlow⟩ := x.advance_spec k 0 len
  have hlt : (fld (vget x.ptrs k) (ptrWidth (vget x.ptrs k) - 1) 0 : Int) < 2 ^ ptrWidth (vget x.ptrs k) := by
    exact_mod_cast fld_low_lt (vget x.ptrs k)
  have hstep : x.increment k 0 len = 0 := rfl
  rw [hstep, add_zero, Int.emod_eq_of_lt (Int.natCast_nonneg _) hlt] at hlow
  exact_mod_cast hlow

/-- Increment code 1 moves its pointer by the length of the access. -/
theorem Chan.advance_one_low (x : Chan) (k : Fin 8) (len : Nat) :
    let w := vget x.ptrs k
    fld (vget (x.advance k.val 1 len).ptrs k) (ptrWidth w - 1) 0 = (fld w (ptrWidth w - 1) 0 + len) % 2 ^ ptrWidth w := by
  obtain ⟨-, -, hlow⟩ := x.advance_spec k 1 len
  have hstep : x.increment k 1 len = len := rfl
  rw [hstep] at hlow
  exact_mod_cast hlow

end Sys2Proof.Machine
end

section
/-! MOVE, FILL and CMP (O57). -/
namespace Sys2Proof.Machine

variable {s : State} {c : ChanNo} {x : Chan} {line : List Byte} {w : Word} {bursts : Nat}

/-! ### MOVE (R268, R280) -/

/-- A MOVE of areas that do not overlap writes its bursts, and goes on. -/
theorem execStencilMove_bursts {src bs : List Byte} {n : Nat} (he : s.Executes c 1 line w) (hx : (s.lineRead c line).chan c = x)
    (hn : x.part (fld w 63 40) bursts = n) (hbs : s.areaBytes x (fld w 9 7) x.moved n src = bs)
    (hsrc : s.accessFault x (fld w 9 7) (fld w 63 40) = none) (hdst : s.accessFault x (fld w 6 4) (fld w 63 40) = none)
    (hhere : x.dataHere (fld w 9 7) n src = true) (hw : x.inHawk (fld w 6 4) = true ∨ s.canWrite x.owner = true)
    (hover : s.overlap x (fld w 9 7) (fld w 6 4) (fld w 63 40) = false) :
    ∃ t, execStencilMove c ⟨line, bursts⟩ src .ok s = .next t ∧
      (x.inHawk (fld w 6 4) = false → ∀ j, j < (bs.length + 511) / 512 →
        .hostWrite x.owner (s.areaAt x (fld w 6 4) + x.moved + 512 * j) (bytesAt bs (512 * j) 512) ∈ t.out) ∧
      t.bare = ((s.setHawk (s.hawkAfter x (fld w 6 4) x.moved bs)).setChan c (x.afterBurst (x.moved + n) (fld w 63 40) fun y =>
        (y.advance (fld w 9 7) (fld w 13 12) (fld w 63 40)).advance (fld w 6 4) (fld w 11 10) (fld w 63 40))).bare := by
  have hread := (State.bare_areaRead (s.lineRead c line) c (fld w 9 7) x.moved n).trans (s.bare_lineRead c line)
  rw [hx] at hread
  have hclear : ((s.lineRead c line).areaRead c (fld w 9 7) x.moved n).overlap x (fld w 9 7) (fld w 6 4) (fld w 63 40) = false :=
    (State.overlap_of_bare (s := s.setChan c x) hread ..).trans hover
  have hready : (!x.dataHere (fld w 9 7) n src || (!x.inHawk (fld w 6 4) && !s.canWrite x.owner)) = false := by
    rcases hw with h | h <;> simp [hhere, h]
  obtain ⟨hchan, -, -⟩ := State.chan_frame hread
  have harea : ((s.lineRead c line).areaRead c (fld w 9 7) x.moved n).areaAt x (fld w 6 4) = s.areaAt x (fld w 6 4) :=
    State.areaAt_of_bare (s := s.setChan c x) hread x (fld w 6 4)
  have hout := State.out_areaWrite (s := (s.lineRead c line).areaRead c (fld w 9 7) x.moved n) (c := c) (k := fld w 6 4) (off := x.moved)
    (bs := bs)
  rw [hchan, harea] at hout
  unfold execStencilMove
  refine (stencilStep_burst he (by decide) ?_ (State.bare_areaWrite_of_bare hread (fld w 6 4) x.moved bs)).imp
    fun t ⟨ht, hadds, hbare⟩ => ⟨ht, fun hk j hj => hadds.mem (hout hk hj), hbare⟩
  simp only [hx, hn, hbs, hsrc, hdst, hready, hclear, State.lineRead_accessFault, State.lineRead_canWrite, State.lineRead_areaBytes,
    ite_self, State.noteEccBy_ok, eccBad, Bool.false_eq_true, if_false]

/-! ### FILL (R269) -/

theorem length_leBytes (k n : Nat) : (leBytes k n).length = k := by
  induction k generalizing n with
  | zero => rfl
  | succ k ih => rw [leBytes, List.length_cons, ih]

/-- A FILL writes its number of elements of its size. -/
theorem length_fillBytes (w : Word) : (fillBytes w).length = fld w 31 11 * 2 ^ fld w 10 9 := by
  simp [fillBytes, length_leBytes]

theorem length_bytesAt (l : List Byte) (off n : Nat) : (bytesAt l off n).length = min n (l.length - off) := by
  simp [bytesAt]

/-- A step carries out no more than is left of its instruction. -/
theorem Chan.part_le (x : Chan) (len bursts : Nat) : x.part len bursts ≤ len - x.moved := Nat.min_le_left ..

/-- A FILL writes its bursts, and goes on. -/
theorem execStencilFill_bursts {len n : Nat} (he : s.Executes c 2 line w) (hx : (s.lineRead c line).chan c = x)
    (hlen : fld w 31 11 * 2 ^ fld w 10 9 = len) (hn : x.part len bursts = n) (hdst : s.accessFault x (fld w 6 4) len = none)
    (hw : x.inHawk (fld w 6 4) = true ∨ s.canWrite x.owner = true) : ∃ t, execStencilFill c ⟨line, bursts⟩ s = .next t ∧
      t.bare = ((s.setHawk (s.hawkAfter x (fld w 6 4) x.moved (bytesAt (fillBytes w) x.moved n))).setChan c
        (x.afterBurst (x.moved + n) len (·.advance (fld w 6 4) (fld w 8 7) len))).bare := by
  have hread := s.bare_lineRead c line
  rw [hx] at hread
  have hready : (!x.inHawk (fld w 6 4) && !s.canWrite x.owner) = false := by
    rcases hw with h | h <;> simp [h]
  unfold execStencilFill
  refine (stencilStep_burst he (by decide) ?_ (State.bare_areaWrite_of_bare hread (fld w 6 4) x.moved
    (bytesAt (fillBytes w) x.moved n))).imp fun t ⟨ht, _, hbare⟩ => ⟨ht, hbare⟩
  simp only [hx, hlen, hn, hdst, hready, State.lineRead_accessFault, State.lineRead_canWrite, Bool.false_eq_true, if_false]

/-! ### CMP (R270, R280) -/

/-- The end of a CMP (R270). -/
def Chan.compared (hit : Bool) (w : Word) (y : Chan) : Chan :=
  let y := (y.advance (fld w 6 4) (fld w 11 10) (fld w 47 24)).advance (fld w 9 7) (fld w 13 12) (fld w 47 24)
  { y with flag := hit || (bitOf w 16 && y.flag) }

section
variable {a b : List Byte} (he : s.Executes c 3 line w)
include he

/-- A CMP whose areas hold no whole number of elements faults. -/
theorem execStencilCmp_odd (hmode : fld w 15 14 ≠ 0) (hlen : fld w 47 24 % (2 * fld w 15 14) ≠ 0) :
    ∃ t, execStencilCmp c ⟨line, bursts⟩ a b .ok s = .next t ∧ (t.chan c).cstate = .idle ∧ (t.chan c).fault = 0x06 := by
  have hodd : (fld w 15 14 != 0 && fld w 47 24 % (2 * fld w 15 14) != 0) = true := by
    rw [bne_iff_ne.2 hmode, bne_iff_ne.2 hlen]
    rfl
  unfold execStencilCmp
  refine stencilStep_bad (t := s.lineRead c line) (code := fLength) he (by decide) ?_
  simp only [hodd, if_true]

/-- A CMP compares its bursts, and goes on. -/
theorem execStencilCmp_bursts {n : Nat} {hit : Bool} (hx : (s.lineRead c line).chan c = x) (hn : x.part (fld w 47 24) bursts = n)
    (hhit : (x.hit || differs (fld w 15 14) (fld w 63 48) (s.areaBytes x (fld w 6 4) x.moved n a)
      (s.areaBytes x (fld w 9 7) x.moved n b)) = hit)
    (hpa : s.accessFault x (fld w 6 4) (fld w 47 24) = none) (hpb : s.accessFault x (fld w 9 7) (fld w 47 24) = none)
    (ha : x.dataHere (fld w 6 4) n a = true) (hb : x.dataHere (fld w 9 7) n b = true)
    (hlen : fld w 15 14 = 0 ∨ fld w 47 24 % (2 * fld w 15 14) = 0) :
    ∃ t, execStencilCmp c ⟨line, bursts⟩ a b .ok s = .next t ∧
      t.bare = (s.setChan c (Chan.afterBurst { x with hit := hit } (x.moved + n) (fld w 47 24) (Chan.compared hit w))).bare := by
  have heven : (fld w 15 14 != 0 && fld w 47 24 % (2 * fld w 15 14) != 0) = false := by
    rcases hlen with h | h <;> simp [h]
  have hready : (!x.dataHere (fld w 6 4) n a || !x.dataHere (fld w 9 7) n b) = false := by rw [ha, hb]; rfl
  have hread := (State.bare_areaRead ((s.lineRead c line).areaRead c (fld w 6 4) x.moved n) c (fld w 9 7) x.moved n).trans
    ((State.bare_areaRead (s.lineRead c line) c (fld w 6 4) x.moved n).trans (s.bare_lineRead c line))
  rw [hx] at hread
  obtain ⟨hchan, -, -⟩ := State.chan_frame hread
  have hmod : (State.modChan (((s.lineRead c line).areaRead c (fld w 6 4) x.moved n).areaRead c (fld w 9 7) x.moved n) c fun y =>
      { y with hit := hit }).bare = ((s.setHawk s.mem.hawk).setChan c { x with hit := hit }).bare := by
    rw [State.modChan_eq_setChan, hchan]
    exact State.bare_setChan_of_bare hread _
  unfold execStencilCmp
  refine (stencilStep_burst he (by decide) ?_ hmod).imp fun t ⟨ht, _, hbare⟩ => ⟨ht, hbare⟩
  simp only [hx, hn, hhit, hpa, hpb, heven, hready, State.lineRead_accessFault, State.lineRead_areaBytes, ite_self,
    State.noteEccBy_ok, eccBad, Bool.false_eq_true, if_false]
  rfl

end

/-- Settles O57: each instruction by the lemmas about its command above, and an increment by `Chan.advance_spec`. -/
theorem stencilData : Obligations.StencilData := by
  refine ⟨fun s c line w bursts src he => ?_, fun s c line w bursts he => ?_, fun s c line w bursts a b he => ?_, fun x k code len => ?_⟩
  · intro x len ps pd off n bs hsrc hdst hhere hw hover
    obtain ⟨t, ht, hwrites, hbare⟩ := execStencilMove_bursts he rfl rfl rfl hsrc hdst hhere hw hover
    obtain ⟨hchan, hrest, hhawk, hframe⟩ := State.data_frame hbare
    refine ⟨t, ht, hchan, hrest, fun hin => hhawk.trans (if_pos hin), fun a ha => ?_,
      fun hout => ⟨hhawk.trans (if_neg (Bool.eq_false_iff.1 hout)), hwrites hout⟩, hframe⟩
    rw [hhawk]
    exact State.memRead_hawkAfter ha
  · intro x len pd off n bs hdst hw
    obtain ⟨t, ht, hbare⟩ := execStencilFill_bursts he rfl rfl rfl hdst hw
    obtain ⟨hchan, -, hhawk, hframe⟩ := State.data_frame hbare
    have hlen : bs.length = n := by
      have hle : n ≤ len - off := x.part_le len bursts
      rw [length_bytesAt, length_fillBytes]
      exact Nat.min_eq_left hle
    refine ⟨t, ht, length_fillBytes w, hlen, hchan, fun hin => hhawk.trans (if_pos hin), fun a ha => ?_, hframe⟩
    rw [hhawk]
    exact State.memRead_hawkAfter (hlen ▸ ha)
  · intro x len pa pb off n hit hpa hpb ha hb
    refine ⟨fun hlen => ?_, execStencilCmp_odd he⟩
    obtain ⟨t, ht, hbare⟩ := execStencilCmp_bursts he rfl rfl rfl hpa hpb ha hb hlen
    obtain ⟨hchan, hrest, hframe⟩ := State.chan_frame hbare
    refine ⟨t, ht, fun hdone => ?_, fun hmore => ?_, hrest, hframe⟩
    · rw [hchan, Chan.afterBurst, if_pos hdone]
      exact ⟨rfl, rfl, rfl, rfl, rfl⟩
    · rw [hchan, Chan.afterBurst, if_neg (Nat.not_le.2 hmore)]
  · intro n y
    obtain ⟨hother, hhigh, -⟩ := x.advance_spec k code len
    exact ⟨hother, hhigh, fun hc => hc ▸ x.advance_zero_low k len, fun hc => hc ▸ x.advance_one_low k len⟩

end Sys2Proof.Machine
end

section
/-!
SUPPORT. The dispatcher (R294, R297, R298, R303): tracing while the trace is off, what an item without a flow leaves alone, the queue that a
group chooses, and the delivery of an item.
-/
namespace Sys2Proof.Machine

variable {s : State} {g : GroupNo} {q r : QueueNo} {k : Nat} {x : Item}

/-- Nothing is recorded while the trace is off (R303). -/
theorem State.trace_of_disabled (h : s.disp.trace.enable = false) (note : TraceRec) : s.trace note = s := by simp [State.trace, h]

/-! ### Items without a flow (R298) -/

theorem Item.sameFlow_of_no_flow (hx : x.flow = 0) (y : Item) : y.sameFlow x = false := by
  refine Bool.eq_false_iff.2 fun h => ?_
  simp only [Item.sameFlow, Bool.and_eq_true, bne_iff_ne, beq_iff_eq] at h
  obtain ⟨⟨hy, -⟩, hsame⟩ := h
  exact hy (hsame.trans hx)

/-- No item waits behind one without a flow, so that none goes on at its release (R297). -/
theorem State.unpark_of_no_flow (hx : x.flow = 0) : s.unpark x = s := by
  have hparked : s.parkedOn x = [] := by simp [State.parkedOn, Item.sameFlow_of_no_flow hx]
  rw [State.unpark, hparked]
  rfl

/-! ### The queue chosen (R294) -/

/-- Group `g` may deliver an item to the queue now. -/
def State.takes (s : State) (g : GroupNo) (q : QueueNo) : Bool := s.serves g q && s.queueRoom q

/-- One item more would load queue `q` no more for its weight than it would load queue `r`. -/
def State.LoadLe (s : State) (q r : QueueNo) : Prop :=
  ((s.queue q).depth + 1) * (s.queue r).weight.toNat ≤ ((s.queue r).depth + 1) * (s.queue q).weight.toNat

/-- What replaces the best queue so far is loaded no more than any that the best was measured against, whatever the weights: a best queue of
weight 0 was measured against queues of weight 0 alone. -/
theorem State.LoadLe.of_replaced {b : QueueNo} (hmore : ¬ s.LoadLe b q) (hbest : s.LoadLe b r) : s.LoadLe q r := by
  unfold State.LoadLe at *
  generalize (s.queue q).depth + 1 = dq, (s.queue r).depth + 1 = dr, hb : (s.queue b).depth + 1 = db at *
  generalize (s.queue q).weight.toNat = wq, (s.queue r).weight.toNat = wr, (s.queue b).weight.toNat = wb at *
  have hdb : 0 < db := hb ▸ Nat.succ_pos _
  obtain rfl | hwb := Nat.eq_zero_or_pos wb
  · have hwr : wr = 0 := (Nat.mul_eq_zero.1 (Nat.le_zero.1 hbest)).resolve_left hdb.ne'
    simp [hwr]
  · refine Nat.le_of_mul_le_mul_left ?_ hwb
    calc wb * (dq * wr) = (dq * wb) * wr := by ring
      _ ≤ (db * wq) * wr := Nat.mul_le_mul_right _ (Nat.not_le.1 hmore).le
      _ = (db * wr) * wq := by ring
      _ ≤ (dr * wb) * wq := Nat.mul_le_mul_right _ hbest
      _ = wb * (dr * wq) := by ring

/-- The best queue so far against one queue more. -/
def State.betterQueue (s : State) (g : GroupNo) (best : Option QueueNo) (q : QueueNo) : Option QueueNo :=
  if s.takes g q then
    match best with
    | none => some q
    | some b =>
      if ((s.queue q).depth + 1) * (s.queue b).weight.toNat < ((s.queue b).depth + 1) * (s.queue q).weight.toNat then some q
      else some b
  else best

theorem State.chooseQueue_eq (s : State) (g : GroupNo) : s.chooseQueue g = allQueues.foldl (s.betterQueue g) none := rfl

/-- There is a best queue so far, and it is loaded no more for its weight than queue `r`. -/
def State.Bests (s : State) (best : Option QueueNo) (r : QueueNo) : Prop := ∃ b, best = some b ∧ s.LoadLe b r

section
variable {best : Option QueueNo}

/-- A queue that may take the item is measured against the best so far. -/
theorem State.bests_betterQueue_self (hq : s.takes g q = true) : s.Bests (s.betterQueue g best q) q := by
  unfold State.betterQueue
  rw [if_pos hq]
  match best with
  | none => exact ⟨q, rfl, le_rfl⟩
  | some b =>
    by_cases hle : s.LoadLe b q
    · exact ⟨b, if_neg (Nat.not_lt.2 hle), hle⟩
    · exact ⟨q, if_pos (Nat.not_le.1 hle), le_rfl⟩

/-- One queue more loses nothing of what the best so far was measured against. -/
theorem State.Bests.betterQueue (h : s.Bests best r) (g : GroupNo) (q : QueueNo) : s.Bests (s.betterQueue g best q) r := by
  obtain ⟨b, rfl, hbest⟩ := h
  unfold State.betterQueue
  split
  · by_cases hle : s.LoadLe b q
    · exact ⟨b, if_neg (Nat.not_lt.2 hle), hbest⟩
    · exact ⟨q, if_pos (Nat.not_le.1 hle), .of_replaced hle hbest⟩
  · exact ⟨b, rfl, hbest⟩

theorem State.Bests.foldl (h : s.Bests best r) (g : GroupNo) (l : List QueueNo) : s.Bests (l.foldl (s.betterQueue g) best) r := by
  induction l generalizing best with
  | nil => exact h
  | cons q l ih => exact ih (h.betterQueue g q)

theorem State.bests_foldl_of_mem {l : List QueueNo} (hr : r ∈ l) (htakes : s.takes g r = true) :
    s.Bests (l.foldl (s.betterQueue g) best) r := by
  induction hr generalizing best with
  | head l => exact (State.bests_betterQueue_self htakes).foldl g l
  | tail q _ ih => exact ih

end

/-- The queue chosen is loaded no more for its weight than any that may take the item. -/
theorem State.chooseQueue_least (h : s.chooseQueue g = some q) (hserves : s.serves g r = true) (hroom : s.queueRoom r = true) :
    s.LoadLe q r := by
  have htakes : s.takes g r = true := by rw [State.takes, hserves, hroom]; rfl
  obtain ⟨b, hb, hle⟩ := State.bests_foldl_of_mem (best := none) (List.mem_finRange r) htakes
  rw [State.chooseQueue_eq, allQueues, hb] at h
  exact Option.some.inj h ▸ hle

/-! ### Delivery (R294, R295) -/

/-- The state with item `k`, the head of group `g`, in service of queue `q`, and the rest of the group's FIFO. -/
def State.delivered (s : State) (g : GroupNo) (k : Nat) (l : List Nat) (x : Item) (q : QueueNo) : State :=
  { s with disp := { s.disp with
    lastGroup := g
    items := kset s.disp.items k { x with st := .inService q }
    groups := vset s.disp.groups g { s.group g with fifo := l, stalled := false }
    queues := vset s.disp.queues q { s.queue q with
      depth := (s.queue q).depth + 1, accN := (s.queue q).accN + 1
      accWait := (s.queue q).accWait + (s.pl.cycle - x.ready).toNat } } }

variable {l : List Nat}

/-- An item without a flow goes to its queue and leaves its FIFO; the event, its slot and the count are reports. -/
theorem State.bare_deliverItem (hx : x.flow = 0) (hfifo : (s.group g).fifo = k :: l) (hk : k ∉ l) (htrace : s.disp.trace.enable = false) :
    (s.deliverItem g k x q).bare = (s.delivered g k l x q).bare := by
  have hpop : (k :: l).filter (· != k) = l := by
    rw [List.filter_cons_of_neg (by simp), List.filter_eq_self]
    exact fun j hj => bne_iff_ne.2 (ne_of_mem_of_not_mem hj hk)
  unfold State.deliverItem
  extract_lets popped wait moved queued note traced y reserved posted counted
  have hqueued : queued = s.delivered g k l x q := by
    simp only [queued, moved, popped, State.modGroup, hfifo, hpop]
    rfl
  have htraced : traced = queued := State.trace_of_disabled (by rw [hqueued]; exact htrace) _
  have hcounted : counted.bare = traced.bare :=
    (posted.bare_count _).trans ((reserved.bare_postVec ..).trans (traced.bare_reserve ..))
  rw [htraced, hqueued] at hcounted
  clear_value counted
  refine (congrArg State.bare (State.each_eq_self fun j _ => ?_)).trans hcounted
  split
  · rw [Item.sameFlow_of_no_flow hx]
    rfl
  · rfl

theorem State.tryGroup_of_delivers (hfifo : (s.group g).fifo = k :: l) (hitem : kget s.disp.items k = some x)
    (hserved : s.servedNow x.owner = true) (hwrite : s.canWrite x.owner = true) (hq : s.chooseQueue g = some q) :
    s.tryGroup g = (s.deliverItem g k x q, true) := by
  simp [State.tryGroup, hfifo, hitem, hserved, hwrite, hq]

/-- A DISPATCH cycle begins with the group after the last one served. -/
theorem head_groupsInTurn : ∀ last : GroupNo,
    (allGroups.drop (last.val + 1) ++ allGroups.take (last.val + 1)).head? = some (last + 1) := by decide

/-- A DISPATCH cycle ends with the first group that delivers. -/
theorem dispatchCycle_of_delivers {t : State} (h : s.tryGroup g = (t, true)) (gs : List GroupNo) : dispatchCycle (g :: gs) s = t := by
  rw [dispatchCycle, h]
  rfl

theorem execDispatchDeliver_of_delivers {t : State} (hrun : s.runs = true) (hg : g.val = (s.disp.lastGroup.val + 1) % 16)
    (h : s.tryGroup g = (t, true)) : exec .dispatchDeliver s = .next t.ended := by
  obtain rfl : g = s.disp.lastGroup + 1 := Fin.ext hg
  obtain ⟨gs, hturn⟩ := List.head?_eq_some_iff.1 (head_groupsInTurn s.disp.lastGroup)
  change execDispatchDeliver s = _
  rw [execDispatchDeliver, hturn, dispatchCycle_of_delivers h, hrun]
  rfl

end Sys2Proof.Machine
end

section
/-! A DISPATCH cycle (O26). -/
namespace Sys2Proof.Machine

/-- Settles O26: the group after the last one served is the first tried, and it delivers to the queue that `choose` finds best. -/
theorem dispatch : Obligations.Dispatch := by
  intro s g k l x q hrun hg hfifo hitem hx hk hserved hwrite hq htrace
  refine ⟨_, execDispatchDeliver_of_delivers hrun hg (State.tryGroup_of_delivers hfifo hitem hserved hwrite hq), ?_,
    fun r => State.chooseQueue_least hq⟩
  exact (State.bare_ended _).trans (State.bare_deliverItem hx hfifo hk htrace)

end Sys2Proof.Machine
end

section
/-! The dispatcher's registers (O25). -/
namespace Sys2Proof.Machine

variable {s : State} {g : GroupNo} {q : QueueNo} {i : InstNo} {w : Word}

/-! ### Groups and queues (R292, R293) -/

section
variable (hopen : s.nativeRegs 0 = true) (hfresh : (s.inst 0).fresh = false)
include hopen hfresh

/-- An idle group passes to another owner. -/
theorem execDspGroupWrite_of_idle (hi : i.val = fld w 5 0) (hfifo : (s.group g).fifo = [])
    (hidle : ∀ q, (s.queue q).group = g → (s.queue q).depth = 0) :
    exec (.dspGroupWrite g w) s = .next (s.modGroup g fun y => { y with owner := i }) := by
  have hbusy : (allQueues.any fun q => (s.queue q).group == g && (s.queue q).depth != 0) = false :=
    List.any_eq_false.2 fun q _ => by simpa using hidle q
  simp [exec, execDspGroupWrite, hopen, State.written_of_not_fresh hfresh, hfifo, hbusy, fin_mk_mod hi]

/-- A group with an item that waits stays as it is. -/
theorem execDspGroupWrite_of_pending (hfifo : (s.group g).fifo ≠ []) : exec (.dspGroupWrite g w) s = .next s := by
  simp [exec, execDspGroupWrite, hopen, State.written_of_not_fresh hfresh, hfifo]

/-- An idle queue passes to the owner of the group that it is mapped to. -/
theorem execDspQmapWrite_of_idle (hi : i.val = fld w 5 0) (hg : g.val = fld w 9 6) (howner : (s.group g).owner = i)
    (hidle : (s.queue q).depth = 0) :
    exec (.dspQmapWrite q w) s = .next (s.modQueue q fun y => { y with owner := i, group := g }) := by
  simp [exec, execDspQmapWrite, hopen, State.written_of_not_fresh hfresh, fin_mk_mod hi, fin_mk_mod hg, howner, hidle]

theorem execDspQmapWrite_of_not_owner (hi : i.val = fld w 5 0) (hg : g.val = fld w 9 6) (howner : (s.group g).owner ≠ i) :
    exec (.dspQmapWrite q w) s = .next s := by
  simp [exec, execDspQmapWrite, hopen, State.written_of_not_fresh hfresh, fin_mk_mod hi, fin_mk_mod hg, howner]

end

/-- An idle queue of the manager takes every field of its configuration (R293, R309). -/
theorem Queue.configure_of_idle {y : Queue} {e : RingNo} (hidle : y.depth = 0) (he : e.val = fld w 18 16) (hdepth : fld w 30 23 ≠ 0)
    (hweight : fld w 22 19 ≠ 0) : y.configure w false = { y with
      enable := bitOf w 31, depthMax := BitVec.ofNat 8 (fld w 30 23), weight := BitVec.ofNat 4 (fld w 22 19), evtRing := e
      vecEn := bitOf w 15, vector := BitVec.ofNat 6 (fld w 13 8) } := by
  simp [Queue.configure, hidle, hdepth, hweight, fin_mk_mod he]

/-! ### Release (R297) -/

/-- A released item without a flow frees its place in the queue and in the store. -/
theorem execDspRelease_of_released {k : Nat} {x : Item} (hopen : s.nativeRegs 0 = true) (hfresh : (s.inst 0).fresh = false)
    (hrel : s.released 0 w = some (k, x)) (hq : q.val = fld w 5 0) (htrace : s.disp.trace.enable = false) (hx : x.flow = 0) :
    exec (.dspRelease 0 w) s = .next ((s.modQueue q fun y => { y with depth := y.depth - 1 }).dropItem k).ended := by
  change execDspRelease 0 w s = _
  unfold execDspRelease
  simp only [hopen, State.written_of_not_fresh hfresh, hrel, fin_mk_mod hq, Bool.not_true, Bool.false_eq_true, if_false]
  rw [State.unpark_of_no_flow hx, State.trace_of_disabled (by exact htrace), done_eq_ended]

/-- Settles O25: each write in a form that is taken, or refused, as the lemmas above tell. -/
theorem dispatchRegisters : Obligations.DispatchRegisters := by
  intro s hopen hfresh
  have hwritten : s.written 0 = s := State.written_of_not_fresh hfresh
  refine ⟨fun g w i hi => ⟨execDspGroupWrite_of_idle hopen hfresh hi, execDspGroupWrite_of_pending hopen hfresh⟩,
    fun q w i g hi hg => ⟨execDspQmapWrite_of_idle hopen hfresh hi hg, execDspQmapWrite_of_not_owner hopen hfresh hi hg⟩,
    fun q w e hidle howner he hdepth hweight => ?_, fun w htrace hen hsize => ?_, fun w htrace => ?_,
    fun w k x q hrel hq htrace hx => ?_, fun hrun hover => ?_, fun hearly => ?_⟩
  · have hconf := Queue.configure_of_idle hidle he hdepth hweight
    simp [exec, execDspQcfgWrite, hopen, hwritten, State.modQueue, howner, hconf]
  · simp [exec, execDspTraceEnable, hopen, hwritten, htrace, hen, Nat.not_lt.2 hsize, State.modDisp]
  · simp [exec, execDspTraceHeadWrite, hopen, hwritten, htrace, State.modDisp]
  · exact ⟨_, execDspRelease_of_released hopen hfresh hrel hq htrace hx, State.bare_ended _⟩
  · simp [exec, execDspStatsWindowEnd, State.windowOver, hrun, hover, State.modDisp, State.frameStart]
  · simp [exec, execDspStatsWindowEnd, State.windowOver, Nat.not_le.2 hearly]

end Sys2Proof.Machine
end

section
/-! An occurrence counted (O24). -/
namespace Sys2Proof.Machine

variable {s : State} {o : Occ}

/-- A counter after an occurrence (R344 to R346): one that selects it first discards what came in the cycle of a write of its count. -/
def Counter.seeing (c : Counter) (o : Occ) (dev : Bool) : Counter :=
  if c.passes o dev then if c.discard = 0 then (c.add o.inc).1 else { c with discard := c.discard - 1 } else c

/-! ### A set of counters -/

/-- Whatever becomes of the sample and the message, the counter itself does no more than see the occurrence. -/
theorem CtrBank.ctrs_count {n : Nat} (b : CtrBank n) (j : Fin n) (o : Occ) (dev : Bool) (free : Nat) :
    (b.count j o dev free).ctrs = vset b.ctrs j ((vget b.ctrs j).seeing o dev) := by
  unfold CtrBank.count Counter.seeing
  by_cases hpass : (vget b.ctrs j).passes o dev = true
  · by_cases hdiscard : (vget b.ctrs j).discard = 0
    · simp only [hpass, hdiscard, if_true, Bool.not_true, Bool.false_eq_true, if_false, bne_self_eq_false]
      split
      · split
        · split <;> rfl
        · rfl
      · split
        · rfl
        · split <;> rfl
    · simp [hpass, hdiscard]
  · simp [hpass]

/-- A counter that stands once in the list sees the occurrence once, whatever the counters before and after it do. -/
theorem CtrBank.vget_foldl_count {n : Nat} (o : Occ) (dev : Bool) (free : Nat) (l : List (Fin n)) (hl : l.Nodup) (b : CtrBank n)
    (j : Fin n) : vget (l.foldl (fun b j => b.count j o dev free) b).ctrs j =
    if j ∈ l then (vget b.ctrs j).seeing o dev else vget b.ctrs j := by
  induction l generalizing b with
  | nil => rfl
  | cons k l ih =>
    obtain ⟨hk, hl⟩ := List.nodup_cons.1 hl
    rw [List.foldl_cons, ih hl, CtrBank.ctrs_count, vget_vset]
    by_cases hj : j = k
    · simp [hj, hk]
    · simp [hj]

/-- Each counter of a set sees the occurrence once. -/
theorem CtrBank.vget_countAll {n : Nat} (b : CtrBank n) (o : Occ) (dev : Bool) (free : Nat) (j : Fin n) :
    vget (b.countAll o dev free).ctrs j = (vget b.ctrs j).seeing o dev :=
  (CtrBank.vget_foldl_count o dev free _ (List.nodup_finRange n) b j).trans (if_pos (List.mem_finRange j))

/-! ### The two sets (R341, R344) -/

theorem State.count_of_running (h : s.cnt.shedStopped = false) : s.count o = (s.countDev o).countInst o := by simp [State.count, h]

theorem State.cnt_countInst (s : State) (o : Occ) : (s.countInst o).cnt = s.cnt := by
  unfold State.countInst
  split <;> rfl

theorem State.ctrs_countDev (s : State) (o : Occ) : (s.countDev o).cnt.ctrs = (s.devBank.countAll o true s.freeNat).ctrs := by
  rw [State.countDev, State.modCnt_cnt]

theorem State.inst_countDev (s : State) (o : Occ) (i : InstNo) : (s.countDev o).inst i = s.inst i := by
  rw [State.countDev, State.modCnt_inst, State.takeFree_inst]

theorem State.vget_ctrs_countInst (s : State) (o : Occ) (i : InstNo) (j : Fin 4) : vget ((s.countInst o).inst i).ctrs j =
    if o.inst = some i then (vget (s.inst i).ctrs j).seeing o false else vget (s.inst i).ctrs j := by
  unfold State.countInst
  split
  case h_1 hnone => simp [hnone]
  case h_2 k hk =>
    simp only [State.modInst_inst, State.takeFree_inst, hk, Option.some.injEq]
    by_cases hik : i = k
    · simp [hik, CtrBank.vget_countAll, State.instBank]
    · simp [hik, Ne.symm hik]

theorem State.vget_devCtrs_count (h : s.cnt.shedStopped = false) (j : Fin 8) :
    vget (s.count o).cnt.ctrs j = (vget s.cnt.ctrs j).seeing o true := by
  rw [State.count_of_running h, State.cnt_countInst, State.ctrs_countDev, CtrBank.vget_countAll, State.devBank]

theorem State.vget_instCtrs_count (h : s.cnt.shedStopped = false) (i : InstNo) (j : Fin 4) : vget ((s.count o).inst i).ctrs j =
    if o.inst = some i then (vget (s.inst i).ctrs j).seeing o false else vget (s.inst i).ctrs j := by
  rw [State.count_of_running h, State.vget_ctrs_countInst, State.inst_countDev]

/-! ### One counter -/

/-- What a counter that is not discarding makes of an occurrence that it selects (R345). -/
theorem Counter.seeing_of_counted {c : Counter} {dev : Bool} (hpass : c.passes o dev = true) (hdiscard : c.discard = 0) :
    (c.seeing o dev).count = BitVec.ofNat 48 (c.count.toNat + o.inc) ∧
      (c.seeing o dev).ovf = (c.ovf || decide (2 ^ 48 ≤ c.count.toNat + o.inc)) := by
  rw [Counter.seeing, if_pos hpass, if_pos hdiscard]
  exact ⟨rfl, rfl⟩

/-- What it makes of any other. -/
theorem Counter.seeing_of_not_counted {c : Counter} {dev : Bool} (h : ¬ (c.passes o dev = true ∧ c.discard = 0)) :
    c.seeing o dev = if c.passes o dev = true then { c with discard := c.discard - 1 } else c := by
  unfold Counter.seeing
  split
  case isTrue hpass => rw [if_neg fun hdiscard => h ⟨hpass, hdiscard⟩]
  case isFalse => rfl

/-- Settles O24: every counter of the device-wide set and of the event's own instance sees the occurrence once; no other counter changes. -/
theorem counting : Obligations.Counting := by
  intro s o
  refine ⟨s.bare_count o, fun hrun j => ?_, fun hrun i j => ?_⟩
  · dsimp only
    rw [State.vget_devCtrs_count hrun]
    split
    case isTrue h =>
      obtain ⟨hpass, hdiscard⟩ := h
      exact Counter.seeing_of_counted hpass hdiscard
    case isFalse h => exact Counter.seeing_of_not_counted h
  · dsimp only
    rw [State.vget_instCtrs_count hrun]
    by_cases hown : o.inst = some i
    · simp only [hown, if_true, true_and]
      split
      case isTrue h =>
        obtain ⟨hpass, hdiscard⟩ := h
        exact Counter.seeing_of_counted hpass hdiscard
      case isFalse h => exact Counter.seeing_of_not_counted h
    · simp [hown]

end Sys2Proof.Machine
end

section
/-! Counter and meter registers (O23). -/
namespace Sys2Proof.Machine

variable {s : State}

/-! ### The meters (R352, R358) -/

/-- A change made to every port is made to the ports alone. -/
theorem State.each_allPorts (f : Port → Port) (s : State) :
    ∃ ports, (s.each allPorts fun s p => s.modPort p f) = { s with ports := ports } ∧
      ∀ p, State.port { s with ports := ports } p = f (s.port p) := by
  obtain ⟨hport, ports, heach⟩ := State.each_modPort (fun _ => f) allPorts (List.nodup_finRange 32) s
  exact ⟨ports, heach, fun p => by rw [← heach, hport, if_pos (mem_allPorts p)]⟩

/-- A write of MTR_CFG discards the running totals of every port and keeps the last window. -/
theorem State.writeMtrCfg_spec (s : State) (w : Word) : ∃ ports,
    (∀ p, State.port { s with ports := ports } p = { s.port p with inAcc := 0, outAcc := 0 }) ∧
      s.writeMtrCfg w = { s with ports := ports, cnt := { s.cnt with
        mtrEnable := bitOf w 16, mtrFrames := BitVec.ofNat 10 (fld w 9 0), mtrRunning := false
        mtrValid := if bitOf w 16 then false else s.cnt.mtrValid } } := by
  obtain ⟨ports, heach, hport⟩ := s.each_allPorts fun x => { x with inAcc := 0, outAcc := 0 }
  refine ⟨ports, hport, ?_⟩
  rw [State.writeMtrCfg, State.zeroMeters, heach]
  rfl

/-- At the end of a window every port's totals are reported and begin again. -/
theorem execMtrWindowEnd_of_over (hrun : s.cnt.mtrRunning = true) (hshed : s.cnt.shedStopped = false)
    (hover : s.windowOver s.cnt.mtrFrom s.cnt.mtrFrames = true) : ∃ ports,
    (∀ p, State.port { s with ports := ports } p =
        { s.port p with inBytes := (s.port p).inAcc, outBytes := (s.port p).outAcc, inAcc := 0, outAcc := 0 }) ∧
      exec .mtrWindowEnd s = .next { s with ports := ports, cnt := { s.cnt with
        mtrSeq := s.cnt.mtrSeq + 1, mtrValid := true, mtrFrom := s.frameStart } } := by
  obtain ⟨ports, heach, hport⟩ := s.each_allPorts fun x => { x with inBytes := x.inAcc, outBytes := x.outAcc, inAcc := 0, outAcc := 0 }
  refine ⟨ports, hport, ?_⟩
  change execMtrWindowEnd s = _
  rw [execMtrWindowEnd, hrun, hshed, hover, heach]
  rfl

theorem execMtrWindowEnd_of_early (hearly : s.windowOver s.cnt.mtrFrom s.cnt.mtrFrames = false) : exec .mtrWindowEnd s = .next s := by
  simp [exec, execMtrWindowEnd, hearly]

/-! ### The device-wide counters (R346, R354 to R356) -/

section

variable (hopen : s.nativeRegs 0 = true) (hfresh : (s.inst 0).fresh = false)
include hopen hfresh

theorem execCntValWrite_device (j : Fin 8) (x : CountWrite) : exec (.cntValWrite .device j x) s = .next (s.modCnt fun c =>
    { c with ctrs := vset c.ctrs j { vget c.ctrs j with
        ovf := bitOf x.word 63, count := BitVec.ofNat 48 (fld x.word 47 0), discard := x.decs } }) := by
  simp [exec, execCntValWrite, State.ctrOpen, hopen, State.modCtr, State.written_of_not_fresh hfresh]

theorem execCntSelWrite_device (j : Fin 8) (w : Word) : exec (.cntSelWrite .device j w) s = .next (s.modCnt fun c =>
    { c with ctrs := vset c.ctrs j ((vget c.ctrs j).select w true) }) := by
  simp [exec, execCntSelWrite, State.ctrOpen, hopen, State.modCtr, State.written_of_not_fresh hfresh]

theorem execCounterSampleClear_device (w : Word) : exec (.counterSampleClear .device w) s = .next
    (if bitOf w 63 then s.modCnt fun c => { c with sample := { c.sample with valid := false } } else s) := by
  simp [exec, execCounterSampleClear, State.ctrOpen, hopen, State.written_of_not_fresh hfresh]

theorem execMtrCfgWrite_eq (w : Word) : exec (.mtrCfgWrite w) s = .next (s.writeMtrCfg w) := by
  simp [exec, execMtrCfgWrite, hopen, State.written_of_not_fresh hfresh]

end

/-- Settles O23: each register by the lemma about its command above. -/
theorem counterRegisters : Obligations.CounterRegisters := by
  intro s hopen hfresh
  refine ⟨fun j w decs => execCntValWrite_device hopen hfresh j ⟨w, decs⟩, execCntSelWrite_device hopen hfresh,
    execCounterSampleClear_device hopen hfresh, fun w => ?_, fun hrun hshed hover => ?_,
    fun hearly => execMtrWindowEnd_of_early (decide_eq_false (Nat.not_le.2 hearly))⟩
  · obtain ⟨ports, hport, hcfg⟩ := s.writeMtrCfg_spec w
    exact ⟨_, (execMtrCfgWrite_eq hopen hfresh w).trans (congrArg Host.Outcome.next hcfg), hport, rfl⟩
  · obtain ⟨ports, hport, hend⟩ := execMtrWindowEnd_of_over hrun hshed (decide_eq_true hover)
    exact ⟨_, hend, hport, rfl⟩

end Sys2Proof.Machine
end

section
/-! The state at reset, a step and the queue (O1, O3, O4). -/
namespace Sys2Proof.Machine

/-- Settles O1: at reset both memories are unwritten and the snag log is empty. -/
theorem invAtReset : Obligations.InvAtReset := ⟨rfl, rfl, Nat.zero_le 64⟩

/-- Settles O3: a step is defined by the queue's form. -/
theorem stepTakesFront : Obligations.StepTakesFront := by
  refine ⟨fun c s => rfl, fun s hempty => ?_⟩
  simp only [step, hempty]

/-- Only a next state holds anything. -/
theorem Answer.eq_next_of_held {o : Answer} {w : Held} (h : Answer.held o = some w) : ∃ t, o = .next t ∧ t.held = w := by
  cases o with
  | next t => exact ⟨t, rfl, Option.some.inj h⟩
  | fault r => cases h
  | refused r => cases h

/-- Settles O4: the queue is part of what every command keeps. -/
theorem queueUntouched : Obligations.QueueUntouched := by
  intro c s
  obtain ⟨w, hw, hqueue, -⟩ := exec_keptFrom c s
  obtain ⟨t, ht, rfl⟩ := Answer.eq_next_of_held hw
  exact ⟨t, ht, hqueue⟩

end Sys2Proof.Machine
end

section
/-!
SUPPORT. A reset through PRIME (R371): what it keeps, and the outputs that it drives low (R80).
-/
namespace Sys2Proof.Machine

variable (s : State) (c : BitVec 4)

@[simp] theorem State.allPowerLow_pending : s.allPowerLow.pending = s.pending := by rw [s.allPowerLow_eq]
@[simp] theorem State.allPowerLow_boot : s.allPowerLow.boot = s.boot := by rw [s.allPowerLow_eq]
@[simp] theorem State.allPowerLow_mem : s.allPowerLow.mem = s.mem := by rw [s.allPowerLow_eq]
@[simp] theorem State.allPowerLow_snag : s.allPowerLow.snag = s.snag := by rw [s.allPowerLow_eq]

@[simp] theorem State.toPrime_pending : (s.toPrime c).pending = s.pending := by simp only [State.toPrime, State.allPowerLow_pending]
@[simp] theorem State.toPrime_egress : (s.toPrime c).pw.egress = s.pw.egress := by simp only [State.toPrime, State.allPowerLow_pw]
@[simp] theorem State.toPrime_minSvn : (s.toPrime c).pw.minSvn = s.pw.minSvn := by simp only [State.toPrime, State.allPowerLow_pw]

@[simp] theorem State.toPrime_retention : (s.toPrime c).pw.retention = s.pw.retention := by
  simp only [State.toPrime, State.allPowerLow_pw]

@[simp] theorem State.toPrime_dir0 : (s.toPrime c).boot.dir0 = s.boot.dir0 := by simp only [State.toPrime, State.allPowerLow_boot]
@[simp] theorem State.toPrime_dir1 : (s.toPrime c).boot.dir1 = s.boot.dir1 := by simp only [State.toPrime, State.allPowerLow_boot]
@[simp] theorem State.toPrime_hawk : (s.toPrime c).mem.hawk = s.mem.hawk := by simp only [State.toPrime, State.allPowerLow_mem]
@[simp] theorem State.toPrime_store : (s.toPrime c).mem.store = s.mem.store := by simp only [State.toPrime, State.allPowerLow_mem]

@[simp] theorem State.toPrime_snag : (s.toPrime c).snag = { s.snag.restart with index := 0 } := by
  simp only [State.toPrime, State.allPowerLow_snag]

/-- The instant of the last occurrence is no part of an entry's bytes (R390). -/
theorem map_bytes_restart (l : List Snag) : (l.map fun e => { e with last := none }).map Snag.bytes = l.map Snag.bytes :=
  List.map_map

/-- What leaves the block as ports lose power: PPWR_EN low of each that was high. -/
theorem State.mem_out_each_powerLow (o : Out) (l : List PortNo) (s : State) :
    o ∈ (s.each l fun s p => if (s.port p).ppwrEn then s.emit (.ppwrEn p false) else s).out ↔
      o ∈ s.out ∨ ∃ p ∈ l, (s.port p).ppwrEn = true ∧ o = .ppwrEn p false := by
  induction l generalizing s with
  | nil => simp [State.each]
  | cons q l ih =>
    rw [State.each_cons, ih]
    cases hq : (s.port q).ppwrEn
    · simp [hq]
    · simp [hq, or_assoc, or_left_comm]

theorem State.mem_toPrime_out (o : Out) :
    o ∈ (s.toPrime c).out ↔ o ∈ s.out ∨ ∃ p, (s.port p).ppwrEn = true ∧ o = .ppwrEn p false := by
  have hout : (s.toPrime c).out = s.allPowerLow.out := by simp only [State.toPrime]
  rw [hout, State.allPowerLow, State.mem_out_each_powerLow]
  simp only [mem_allPorts, true_and]

end Sys2Proof.Machine
end

section
/-! Resets through PRIME (O5). -/
namespace Sys2Proof.Machine

/-- Settles O5: a register is of the state at reset unless it is one of those kept, and PPWR_EN goes low where it was high. -/
theorem primeReset : Obligations.PrimeReset := by
  intro s cause
  obtain ⟨hlife, hkey, -⟩ := s.toPrime_life cause
  refine ⟨rfl, rfl, rfl, rfl, rfl, rfl, rfl, rfl, rfl, rfl, rfl, rfl, rfl, rfl, rfl, rfl, rfl, rfl, rfl, rfl, rfl, rfl, rfl, rfl, rfl,
    s.toPrime_pending cause, s.toPrime_perst cause, s.toPrime_egress cause, s.toPrime_retention cause, hlife, hkey,
    s.toPrime_minSvn cause, s.toPrime_dir0 cause, s.toPrime_dir1 cause, s.toPrime_hawk cause, s.toPrime_store cause,
    ?_, ?_, ?_, fun p hp => ?_, fun p hp hout => ?_⟩
  · rw [State.toPrime_snag]
    exact map_bytes_restart s.snag.buffer
  · rw [State.toPrime_snag]
    exact map_bytes_restart s.snag.flash
  · rw [State.toPrime_snag]
    rfl
  · exact (s.mem_toPrime_out cause _).2 (.inr ⟨p, hp, rfl⟩)
  · rcases (s.mem_toPrime_out cause _).1 hout with hold | ⟨q, hq, heq⟩
    · exact hold
    · cases heq
      simp [hp] at hq

end Sys2Proof.Machine
end

section
/-!
SUPPORT. Where the start stands: the mode, the instant of PRIME and the life cycle. The egress override, the writes of a configuration
image and what they call leave it as it is.
-/
namespace Sys2Proof.Machine

/-- The mode, the instant of PRIME, whether PRIME has failed, and the life cycle. -/
def State.phase (s : State) : Mode × Nat × Bool × LcState := (s.pw.mode, s.pw.primeInstant, s.pw.primeFailed, s.pw.lcState)

variable (s : State)

theorem State.phase_of_bare {s t : State} (h : t.bare = s.bare) : t.phase = s.phase :=
  (congrArg State.phase h : t.bare.phase = s.bare.phase)

/-! ### Updates of one object -/

@[simp] theorem State.phase_emit (o : Out) : (s.emit o).phase = s.phase := (rfl)
@[simp] theorem State.phase_record (c : BitVec 8) (d : List Byte) : (s.record c d).phase = s.phase := (rfl)
@[simp] theorem State.phase_takeId : s.takeId.phase = s.phase := (rfl)
@[simp] theorem State.phase_modPort (p : PortNo) (f : Port → Port) : (s.modPort p f).phase = s.phase := (rfl)
@[simp] theorem State.phase_modTrowel (k : TrowelNo) (f : Trowel → Trowel) : (s.modTrowel k f).phase = s.phase := (rfl)
@[simp] theorem State.phase_modInst (i : InstNo) (f : Inst → Inst) : (s.modInst i f).phase = s.phase := (rfl)
@[simp] theorem State.phase_modEp (k : Nat) (f : Ep → Ep) : (s.modEp k f).phase = s.phase := (rfl)
@[simp] theorem State.phase_modDev (z : Nat) (f : DevRec → DevRec) : (s.modDev z f).phase = s.phase := (rfl)
@[simp] theorem State.phase_modTree (f : Tree → Tree) : (s.modTree f).phase = s.phase := (rfl)
@[simp] theorem State.phase_modMem (f : Mems → Mems) : (s.modMem f).phase = s.phase := (rfl)
@[simp] theorem State.phase_modDisp (f : Disp → Disp) : (s.modDisp f).phase = s.phase := (rfl)
@[simp] theorem State.phase_modCnt (f : Cnt → Cnt) : (s.modCnt f).phase = s.phase := (rfl)
@[simp] theorem State.phase_modBoot (f : Boot → Boot) : (s.modBoot f).phase = s.phase := (rfl)
@[simp] theorem State.phase_ended : s.ended.phase = s.phase := State.phase_of_bare s.bare_ended

@[simp] theorem State.phase_ite {c : Prop} [Decidable c] (t u : State) : (if c then t else u).phase = if c then t.phase else u.phase :=
  apply_ite State.phase c t u

@[simp] theorem State.phase_each {α : Type} {f : State → α → State} (h : ∀ t x, (f t x).phase = t.phase) (l : List α) (s : State) :
    (s.each l f).phase = s.phase :=
  State.each_keeps State.phase h l s

/-! ### Ports -/

@[simp] theorem State.phase_passHead (i : InstNo) (h : HeadOf) : (s.passHead i h).phase = s.phase := by
  unfold State.passHead
  dsimp only
  (repeat' split) <;> rfl

@[simp] theorem State.phase_finish (i : InstNo) (slot : BitVec 16) (st : Status) (r : Nat) : (s.finish i slot st r).phase = s.phase := by
  have hwait (u : State) (w : WaitEvt) : (u.postWait i w).phase = u.phase := State.phase_of_bare (u.bare_postWait i w)
  have hcount (u : State) (o : Occ) : (u.count o).phase = u.phase := State.phase_of_bare (u.bare_count o)
  unfold State.finish
  split
  · rfl
  · simp [State.after, hwait, hcount]

@[simp] theorem State.phase_settlePort (p : PortNo) : (s.settlePort p).phase = s.phase := by
  refine State.phase_each (fun t i => State.phase_each (fun u c => ?_) _ t) _ s
  (repeat' split) <;> simp

@[simp] theorem State.phase_flag (p : PortNo) (bit : Nat) : (s.flag p bit).phase = s.phase := by
  have hpost (u : State) : (u.postPort p).phase = u.phase := State.phase_of_bare (u.bare_postPort p)
  simp [State.flag, hpost]

@[simp] theorem State.phase_unpick (h : Holder) : (s.unpick h).phase = s.phase := by cases h <;> rfl
@[simp] theorem State.phase_withdraw (p : PortNo) : (s.withdraw p).phase = s.phase := by simp [State.withdraw]

@[simp] theorem State.phase_setPortSt (p : PortNo) (st : PortState) (sr : Bool) : (s.setPortSt p st sr).phase = s.phase := by
  simp [State.setPortSt]

@[simp] theorem State.phase_zeroDeficits (p : PortNo) : (s.zeroDeficits p).phase = s.phase := by simp [State.zeroDeficits]
@[simp] theorem State.phase_drivePower (p : PortNo) (v : Bool) : (s.drivePower p v).phase = s.phase := by simp [State.drivePower]

@[simp] theorem State.phase_takeHolder (p : PortNo) : (s.takeHolder p).phase = s.phase := by
  unfold State.takeHolder
  dsimp only
  (repeat' split) <;> rfl

@[simp] theorem State.phase_powerOn (p : PortNo) : (s.powerOn p).phase = s.phase := by simp [State.powerOn]
@[simp] theorem State.phase_backEnabled (p : PortNo) : (s.backEnabled p).phase = s.phase := by simp [State.backEnabled]
@[simp] theorem State.phase_resumeEarly (p : PortNo) : (s.resumeEarly p).phase = s.phase := by simp [State.resumeEarly]
@[simp] theorem State.phase_startResume (p : PortNo) : (s.startResume p).phase = s.phase := by simp [State.startResume]

/-! ### The tree -/

@[simp] theorem State.phase_ask (proc z req tgt sel arg xlen : Nat) : (s.ask proc z req tgt sel arg xlen).phase = s.phase := by
  unfold State.ask
  split <;> rfl

@[simp] theorem State.phase_treeAct (cmd : Option (InstNo × BitVec 16)) (hub hport action : Nat) :
    (s.treeAct cmd hub hport action).phase = s.phase := by
  unfold State.treeAct
  split <;> simp [State.newProc, State.modHPort]

@[simp] theorem State.phase_wakeBranch (q : Pos) : (s.wakeBranch q).phase = s.phase := by
  unfold State.wakeBranch
  dsimp only
  (repeat' split) <;> simp

@[simp] theorem State.phase_startUnhalt (pu : Purpose) (e : Ep) : (s.startUnhalt pu e).phase = s.phase := by
  unfold State.startUnhalt
  split <;> simp [State.newProc]

/-! ### The egress override (R382) -/

@[simp] theorem State.phase_egressPower : s.egressPower.phase = s.phase := by simp [State.egressPower, State.powerOrdered]

@[simp] theorem State.phase_egressResume (p : PortNo) : (s.egressResume p).phase = s.phase := by
  unfold State.egressResume
  (repeat' split) <;> simp

@[simp] theorem State.phase_egressBranch (x : EgrEntry) : (s.egressBranch x).phase = s.phase := by
  unfold State.egressBranch
  split <;> simp

@[simp] theorem State.phase_egressUnhalt (k : Nat) (e : Ep) : (s.egressUnhalt k e).phase = s.phase := by simp [State.egressUnhalt]

@[simp] theorem State.phase_egressBegin : s.egressBegin.phase = s.phase := by
  unfold State.egressBegin
  dsimp only
  split
  · simp
  · rw [State.phase_each fun t x => ?_]
    · simp
    · split <;> simp

/-! ### Writes of a configuration image (R368) -/

@[simp] theorem State.phase_returnTxns (k : TrowelNo) (which : Txn → Bool) : (s.returnTxns k which).phase = s.phase := by
  simp [State.returnTxns]

@[simp] theorem State.phase_oosRequest (k : TrowelNo) : (s.oosRequest k).phase = s.phase := by
  unfold State.oosRequest
  dsimp only
  (repeat' split) <;> simp [State.drainTrowel]

@[simp] theorem State.phase_writePrt (off : Nat) (w : Word) : (s.writePrt off w).phase = s.phase := by
  unfold State.writePrt
  (repeat' split) <;> simp [State.writePrtCtrl, State.convertIdle]

@[simp] theorem State.phase_writeTre (off : Nat) (w : Word) : (s.writeTre off w).phase = s.phase := by simp [State.writeTre]

@[simp] theorem State.phase_writeTrw (off : Nat) (w : Word) : (s.writeTrw off w).phase = s.phase := by
  unfold State.writeTrw
  (repeat' split) <;> simp

@[simp] theorem State.phase_writePwr (off : Nat) (w : Word) : (s.writePwr off w).phase = s.phase := by
  unfold State.writePwr
  (repeat' split) <;> rfl

@[simp] theorem State.phase_writeMtrCfg (w : Word) : (s.writeMtrCfg w).phase = s.phase := by
  simp [State.writeMtrCfg, State.zeroMeters]

/-- A write outside the counters' block. -/
theorem State.phase_writePf {off : Nat} (hoff : off / 0x1000 ≠ 0x14) (w : Word) : (s.writePf off w).phase = s.phase := by
  unfold State.writePf
  dsimp only
  split
  next => exact s.phase_writePrt _ w
  next => exact s.phase_writeTre _ w
  next => exact s.phase_writeTrw _ w
  next h => exact absurd h hoff
  next => simp
  next => exact s.phase_writePwr _ w
  next => rfl

@[simp] theorem State.phase_applyRecord (img : List Byte) (k : Nat) : (s.applyRecord img k).phase = s.phase := by
  unfold State.applyRecord
  dsimp only
  split
  next hblock =>
    simp only [Bool.or_eq_true, decide_eq_true_eq] at hblock
    exact s.phase_writePf (by omega) _
  next => simp [State.writeScrub, State.writeDspCfg]

@[simp] theorem State.phase_loadEgress (l : List EgrEntry) : (s.loadEgress l).phase = s.phase := by
  unfold State.loadEgress
  rw [State.phase_each fun t p => t.phase_modPort p _]
  rfl

@[simp] theorem State.phase_applyImage (img : List Byte) : (s.applyImage img).phase = s.phase := by
  unfold State.applyImage
  dsimp only
  (repeat' split) <;> simp

@[simp] theorem State.phase_fixCompat : s.fixCompat.phase = s.phase := by simp [State.fixCompat]

end Sys2Proof.Machine
end

section
/-!
SUPPORT. The last instants of PRIME (R365 to R369): a firmware image accepted or refused, the configuration image, the modes.
-/
namespace Sys2Proof.Machine

variable {s : State}

/-- A slot has booted (R365, R370): what its image says of itself, and a trial slot active. -/
def State.booted (s : State) (img : List Byte) : State :=
  ((if s.boot.isTrial then s.writeDir (s.boot.trying.getD false) none else s).modBoot fun b => { b with
    accepted := true, slot := s.boot.trying.getD false, svn := BitVec.ofNat 6 (numAt img 0xC 2), build := BitVec.ofNat 64 (numAt img 0x10 8)
    svnCommit := numAt img 0xE 2 % 2 == 1 }).modPw fun w => { w with primeInstant := 7 }

theorem State.booted_eq (s : State) (img : List Byte) : let t := s.booted img
    t = { s with
      out := t.out
      pw := { s.pw with primeInstant := 7 }
      boot := { s.boot with
        dir0 := t.boot.dir0, dir1 := t.boot.dir1, accepted := true, slot := s.boot.trying.getD false
        svn := BitVec.ofNat 6 (numAt img 0xC 2), build := BitVec.ofNat 64 (numAt img 0x10 8)
        svnCommit := numAt img 0xE 2 % 2 == 1 } } := by
  unfold State.booted
  split
  · obtain ⟨o, d0, d1, h⟩ := s.writeDir_eq (s.boot.trying.getD false) none
    dsimp only
    rw [h]
    rfl
  · rfl

/-- A trial slot that boots becomes active, and is on trial no more (R370). -/
theorem State.dir_booted_of_trial (ht : s.boot.isTrial = true) (img : List Byte) :
    (s.booted img).boot.dir.active = s.boot.trying.getD false ∧ (s.booted img).boot.dir.trial = none := by
  have hboot : (s.booted img).boot.dir = (s.writeDir (s.boot.trying.getD false) none).boot.dir := by
    unfold State.booted
    rw [if_pos ht]
    rfl
  rw [hboot, State.writeDir_dir]
  exact ⟨rfl, rfl⟩

theorem State.dirs_booted_of_active (ht : s.boot.isTrial = false) (img : List Byte) :
    (s.booted img).boot.dir0 = s.boot.dir0 ∧ (s.booted img).boot.dir1 = s.boot.dir1 := by
  unfold State.booted
  rw [ht]
  exact ⟨rfl, rfl⟩

/-- The first slot refused leads to the other one (R367). -/
theorem State.refuseSlot_of_first {slot : Bool} (r : BitVec 8) (hslot : s.boot.trying = some slot) (hfirst : s.boot.refused = none) :
    s.refuseSlot r = { s with
      pw := { s.pw with primeInstant := 5 }
      boot := { s.boot with
        refused := some r, trying := some (!slot), isTrial := false, trialFailed := s.boot.trialFailed || s.boot.isTrial } } := by
  simp only [State.refuseSlot, hslot, hfirst]
  rfl

/-- The state as it waits for the configuration image to be applied: instant 8, an image read (R366). -/
def State.cfgTaken (s : State) : State := { s with pw := { s.pw with primeInstant := 8 }, boot := { s.boot with cfgRead := true } }

/-- The state once a configuration image has been read: the image applied, or its refusal in the snag log (R368). -/
def State.configured (s : State) (img : List Byte) : State :=
  if s.cfgTaken.cfgOk img then s.cfgTaken.applyImage img else s.cfgTaken.record 0x03 [1]

/-- The registers as a mode is entered at instant 9 (R369), with `min_svn` raised where the image commits its `svn` (R365). -/
def State.moded (s : State) : State := s.modPw fun w => { w with
  primeInstant := 9, barsReady := true, mode := if s.boot.forerunner then .compat else .sole, lastCompat := s.boot.forerunner
  minSvn := if s.boot.svnCommit && decide (w.minSvn.toNat < s.boot.svn.toNat) then s.boot.svn else w.minSvn }

/-- COMPAT or SOLE as it is entered (R369, R414). -/
def State.entered (s : State) : State := if s.boot.forerunner then s.moded.fixCompat else s.moded

section

variable (hmode : s.pw.mode = .prime) (hgood : s.pw.primeFailed = false)
include hmode hgood

theorem execSignatureCheckDone_of_accepted {img : List Byte} (hi : s.pw.primeInstant = 6) (ha : fwRefusal img s.pw.minSvn = none) :
    exec (.signatureCheckDone img) s = .next (s.booted img) := by
  simp [exec, execSignatureCheckDone, hmode, hgood, hi, ha, State.booted]

theorem execSignatureCheckDone_of_refused {img : List Byte} {r : BitVec 8} (hi : s.pw.primeInstant = 6)
    (hr : fwRefusal img s.pw.minSvn = some r) : exec (.signatureCheckDone img) s = .next (s.refuseSlot r) := by
  simp [exec, execSignatureCheckDone, hmode, hgood, hi, hr]

theorem execConfigImageReadDone_eq (img : List Byte) (hi : s.pw.primeInstant = 7) : exec (.configImageReadDone img) s =
    .next (s.configured img) := by
  change execConfigImageReadDone img s = _
  rw [State.configured, apply_ite Host.Outcome.next]
  simp only [execConfigImageReadDone, hmode, hgood, hi]
  rfl

theorem execConfigImageApplied_eq (hi : s.pw.primeInstant = 8) (hlc : s.pw.lcState ≠ .scrapped) :
    exec .configImageApplied s =
      .next (if s.entered.pw.egress then s.entered.egressBegin else s.entered).ended := by
  have happly : execConfigImageApplied s = done (if s.entered.pw.egress then s.entered.egressBegin else s.entered) := by
    have hguard :
        (!(s.pw.mode == .prime && decide (s.pw.primeInstant = 8) && !s.pw.primeFailed) || s.pw.lcState == .scrapped) = false := by
      simp [hmode, hgood, hi, hlc]
    unfold execConfigImageApplied
    rw [hguard]
    rfl
  exact happly

end

end Sys2Proof.Machine
end

section
/-! The end of PRIME (O7). -/
namespace Sys2Proof.Machine

/-- Settles O7: each instant's command by the lemmas about it above. -/
theorem primeEnds : Obligations.PrimeEnds := by
  intro s hmode hgood
  refine ⟨fun hi img => ?_, fun hi img => ?_, fun hi hlc hf he => ?_⟩
  · cases ha : fwRefusal img s.pw.minSvn with
    | none =>
      exact ⟨_, execSignatureCheckDone_of_accepted hmode hgood hi ha,
        fun _ => ⟨s.booted_eq img, fun ht => State.dir_booted_of_trial ht img, fun ht => State.dirs_booted_of_active ht img⟩,
        nofun⟩
    | some r =>
      refine ⟨_, execSignatureCheckDone_of_refused hmode hgood hi ha, nofun, fun r' slot hr hslot hfirst => ?_⟩
      cases hr
      exact State.refuseSlot_of_first r hslot hfirst
  · have hread := execConfigImageReadDone_eq hmode hgood img hi
    refine ⟨fun hok => ?_, fun hok => ⟨_, hread.trans (congrArg Host.Outcome.next (if_neg ?_)), rfl⟩⟩
    · exact hread.trans (congrArg Host.Outcome.next (if_pos hok))
    · exact Bool.eq_false_iff.1 hok
  · refine ⟨_, execConfigImageApplied_eq hmode hgood hi hlc, ?_⟩
    have hsole : s.entered = s.moded := if_neg (by simp [hf])
    have hpin : s.moded.pw.egress = false := he
    rw [hsole, hpin, State.bare_ended]
    simp [State.moded, State.modPw, hf]

end Sys2Proof.Machine
end

section
/-!
SUPPORT. The egress override (R380 to R383).
-/
namespace Sys2Proof.Machine

variable {s : State}

/-- EGRESS_N asserted: recorded, and the pin seen (R380). -/
def State.egressSeen (s : State) : State := (s.record 0x0A [1]).modPw fun w => { w with egress := true }

theorem State.record_pw (c : BitVec 8) (d : List Byte) : (s.record c d).pw = s.pw := rfl

/-- In PRIME the assertion has no other effect (R380). -/
theorem execEgressNAssert_of_prime (hm : s.pw.mode = .prime) (he : s.pw.egress = false) :
    exec .egressNAssert s = .next s.egressSeen := by
  simp [exec, execEgressNAssert, hm, he, State.egressSeen, State.record_pw]

/-- In RETAIN the power of the egress ports alone is held (R382). -/
theorem execEgressNAssert_of_retain (hm : s.pw.mode = .retain) (he : s.pw.egress = false) :
    exec .egressNAssert s = .next s.egressSeen.egressPower := by
  simp [exec, execEgressNAssert, hm, he, State.egressSeen, State.record_pw]

/-- An alive controller puts the override in force (R382). -/
theorem execEgressNAssert_of_alive (halive : s.alive = true) (he : s.pw.egress = false) :
    exec .egressNAssert s = done s.egressSeen.egressBegin := by
  cases hm : s.pw.mode <;> simp_all [exec, execEgressNAssert, State.egressSeen, State.record_pw, State.alive, Mode.isRunning]

/-- EGRESS_N released: recorded, and every power hold gone (R383). -/
theorem execEgressNDeassert_eq (hoff : s.pw.mode ≠ .off) (he : s.pw.egress = true) : ∃ ports,
    (∀ p, State.port { s with ports := ports } p = { s.port p with egressHold := false }) ∧
      exec .egressNDeassert s = .next { s.record 0x0A [0] with ports := ports, pw := { s.pw with egress := false } } := by
  obtain ⟨ports, heach, hport⟩ := State.each_allPorts (fun x => { x with egressHold := false })
    ((s.record 0x0A [0]).modPw fun w => { w with egress := false })
  have hguard : (s.pw.mode == .off || !s.pw.egress) = false := by simp [hoff, he]
  refine ⟨ports, hport, ?_⟩
  change execEgressNDeassert s = _
  rw [execEgressNDeassert, hguard]
  exact congrArg Host.Outcome.next heach

end Sys2Proof.Machine
end

section
/-! The egress override (O11). -/
namespace Sys2Proof.Machine

/-- Settles O11: the assertion goes by the mode, the release is a change made to every port, and a retry begins the exchange. -/
theorem egress : Obligations.Egress := by
  refine ⟨fun s he => ⟨fun hm => execEgressNAssert_of_prime hm he, fun hm => execEgressNAssert_of_retain hm he,
    fun halive => execEgressNAssert_of_alive halive he⟩, fun s hoff he => ?_, fun s k e halive hnames hep hst hrec => ?_⟩
  · obtain ⟨ports, hport, hexec⟩ := execEgressNDeassert_eq hoff he
    exact ⟨_, hexec, hport, rfl⟩
  · simp [exec, execEgressUnhaltRetry, halive, hnames, hep, State.egressUnhalt, hst, hrec, done_eq_ended]

end Sys2Proof.Machine
end

section
/-!
SUPPORT. The mode that PRIME enters (R369): what an image that is read leaves of the start, and says of the mode.
-/
namespace Sys2Proof.Machine

variable {s : State} {img : List Byte}

theorem State.phase_configured (s : State) (img : List Byte) :
    (s.configured img).phase = (s.pw.mode, 8, s.pw.primeFailed, s.pw.lcState) := by
  have htaken : s.cfgTaken.phase = (s.pw.mode, 8, s.pw.primeFailed, s.pw.lcState) := rfl
  rw [State.configured, State.phase_ite, State.phase_applyImage, State.phase_record, ite_self, htaken]

theorem State.phase_entered (s : State) :
    s.entered.phase = (if s.boot.forerunner then .compat else .sole, 9, s.pw.primeFailed, s.pw.lcState) := by
  rw [State.entered, State.phase_ite, State.phase_fixCompat, ite_self]
  rfl

/-- `forerunner` of an accepted image is 0 or 1 (R368). -/
theorem State.forerunner_le_of_cfgOk (hok : s.cfgOk img = true) : numAt img 6 2 ≤ 1 := by
  simp only [State.cfgOk, Bool.and_eq_true, decide_eq_true_eq, and_assoc] at hok
  obtain ⟨-, -, hle, -⟩ := hok
  exact hle

/-- `forerunner` is set where the image read is accepted and has it set (R369). -/
theorem State.forerunner_configured (hf : s.boot.forerunner = false) :
    (s.configured img).boot.forerunner = true ↔ s.cfgOk img = true ∧ numAt img 6 2 % 2 = 1 := by
  have hsame : s.cfgTaken.cfgOk img = s.cfgOk img := rfl
  unfold State.configured
  rw [hsame]
  cases hok : s.cfgOk img
  · have hkept (c : BitVec 8) (d : List Byte) : (s.cfgTaken.record c d).boot.forerunner = s.boot.forerunner := rfl
    simp [hkept, hf]
  · have happlied : (s.cfgTaken.applyImage img).boot.forerunner = decide (numAt img 6 2 = 1) := rfl
    have hle := State.forerunner_le_of_cfgOk hok
    simp only [if_true, happlied, decide_eq_true_eq, true_and]
    omega

/-- At instant 9 the mode is by `forerunner`, whatever an egress override that takes force does (R369, R382). -/
theorem execConfigImageApplied_phase (hmode : s.pw.mode = .prime) (hgood : s.pw.primeFailed = false) (hi : s.pw.primeInstant = 8)
    (hlc : s.pw.lcState ≠ .scrapped) : ∃ t, exec .configImageApplied s = .next t ∧
      t.phase = (if s.boot.forerunner then .compat else .sole, 9, s.pw.primeFailed, s.pw.lcState) := by
  refine ⟨_, execConfigImageApplied_eq hmode hgood hi hlc, ?_⟩
  rw [State.phase_ended, State.phase_ite, State.phase_egressBegin, ite_self, State.phase_entered]

end Sys2Proof.Machine
end

section
/-! The mode that PRIME enters (O8). -/
namespace Sys2Proof.Machine

/-- Settles O8: the image's writes move neither the mode nor the instant, and the mode entered is the one that `forerunner` gives. -/
theorem modeEntered : Obligations.ModeEntered := by
  intro s img hmode hi hgood hlc hf
  have huphase := s.phase_configured img
  simp only [State.phase, Prod.mk.injEq] at huphase
  obtain ⟨humode, huinst, hugood, hulc⟩ := huphase
  obtain ⟨t, happlied, htphase⟩ :=
    execConfigImageApplied_phase (humode.trans hmode) (hugood.trans hgood) huinst (hulc.trans_ne hlc)
  simp only [State.phase, Prod.mk.injEq, State.forerunner_configured hf] at htphase
  obtain ⟨htmode, htinst, -⟩ := htphase
  exact ⟨_, t, execConfigImageReadDone_eq hmode hgood img hi, huinst, happlied, htinst, htmode⟩

end Sys2Proof.Machine
end

section
/-!
SUPPORT. The shedding ladder (R377 to R379): readings without the temperature cause, a step that engages, and the first one's retrace.
-/
namespace Sys2Proof.Machine

variable {s : State} {v : Sensors}

/-- The state with new readings. -/
def State.reading (s : State) (v : Sensors) : State := { s with pw := { s.pw with sens := v } }

theorem State.runs_iff : s.runs = true ↔ s.pw.mode.isRunning = true ∧ s.pw.halted = false := by simp [State.runs]

/-- The temperature cause stays away below 110 °C (R377). -/
theorem State.sense_of_cool (hhot : s.pw.hot = false) (hv : v.tempC < 110) : s.sense v = s.reading v := by
  have h115 : ¬ 115 ≤ v.tempC := by omega
  simp [State.sense, State.reading, State.modPw, h115, hv, ← hhot]

/-- Without the temperature cause the causes of a step are those of bits 0 to 2 and 4. -/
theorem Power.causes_lt_of_cool {w : Power} (hhot : w.hot = false) (hv : w.sens.tempC < 110) (k : Nat) : w.causes k % 16 < 8 := by
  have hbit (b : Bool) : b2n b ≤ 1 := by cases b <;> decide
  have h125 : ¬ 125 ≤ w.sens.tempC := by omega
  have h0 : b2n false = 0 := rfl
  simp only [Power.causes, hhot, h125, decide_false, Bool.false_and, Bool.or_false, h0]
  have h1 := hbit (decide (w.sens.coreMv + 3 * (k - 1) < 730))
  have h2 := hbit (decide (w.sens.sramMv + 3 * (k - 1) < 780))
  have h3 := hbit (w.sens.warnLow && decide (k ≤ 6) && decide (k ≤ w.warnStep.toNat))
  omega

@[simp] theorem State.recordShed_pw (a b c : Nat) : (s.recordShed a b c).pw = s.pw := rfl

/-- Step `k` in force, its action still to come: its entry in the snag log, and SHED from the first on (R378, R379). -/
def State.stepped (s : State) (k causes : Nat) : State :=
  (s.recordShed (k - 1) k causes).modPw fun w => { w with
    shedStep := k, beforeShed := if k = 1 then w.mode else w.beforeShed, mode := if k = 1 then .shed else w.mode }

theorem State.engage_of_cool {k causes : Nat} (hrun : s.pw.mode.isRunning = true) (hcool : causes % 16 < 8) :
    s.engage k causes = (s.stepped k causes).actStep k := by
  have hhot : ¬ 8 ≤ causes % 16 := by omega
  have hmode : s.pw.mode ≠ .standby := by
    intro h
    simp [h, Mode.isRunning] at hrun
  by_cases hk : k = 1
  · subst hk
    simp [State.engage, State.stepped, hhot, hmode, State.modPw]
  · simp [State.engage, State.stepped, hhot, hmode, State.modPw, hk]

section

variable (hruns : s.runs = true) (hhot : s.pw.hot = false) (hv : v.tempC < 110)
include hruns hhot hv

/-- The next step engages where a cause holds it (R378). -/
theorem execSheddingStepEngage_of_cause {k : Nat} (hk : s.pw.shedStep = k) (hlow : k < 6) (hc : (s.reading v).pw.causes (k + 1) ≠ 0) :
    exec (.sheddingStepEngage v) s =
      .next (((s.reading v).stepped (k + 1) ((s.reading v).pw.causes (k + 1))).actStep (k + 1)).ended := by
  obtain ⟨hrun, hhalt⟩ : (s.reading v).pw.mode.isRunning = true ∧ (s.reading v).pw.halted = false := State.runs_iff.1 hruns
  have hk' : (s.reading v).pw.shedStep = k := hk
  have hdeep : ¬ 7 ≤ k + 1 := by omega
  have hcool := Power.causes_lt_of_cool (w := (s.reading v).pw) hhot hv (k + 1)
  rw [← State.engage_of_cool hrun hcool]
  change execSheddingStepEngage v s = _
  rw [execSheddingStepEngage, State.sense_of_cool hhot hv]
  simp [hrun, hhalt, hk', hdeep, hc, done_eq_ended]

/-- The seventh step leads to RETAIN (R379). -/
theorem execSheddingStepEngage_seventh (hk : s.pw.shedStep = 6) (hc : (s.reading v).pw.causes 7 ≠ 0) :
    exec (.sheddingStepEngage v) s = .next ((s.reading v).recordShed 6 7 ((s.reading v).pw.causes 7)).enterRetain := by
  obtain ⟨hrun, hhalt⟩ : (s.reading v).pw.mode.isRunning = true ∧ (s.reading v).pw.halted = false := State.runs_iff.1 hruns
  have hk' : (s.reading v).pw.shedStep = 6 := hk
  have hcold : ¬ 125 ≤ (s.reading v).pw.sens.tempC := by
    change ¬ 125 ≤ v.tempC
    omega
  change execSheddingStepEngage v s = _
  rw [execSheddingStepEngage, State.sense_of_cool hhot hv]
  simp [hrun, hhalt, hk', hcold, hc]

/-- The first step retraces once its causes are gone and the rails at its retrace levels (R377, R378). -/
theorem execSheddingStepRetrace_first (hk : s.pw.shedStep = 1) (hc : (s.reading v).pw.causes 1 = 0)
    (hlevel : (s.reading v).pw.retraced 1 = true) :
    exec (.sheddingStepRetrace v) s = .next ((s.reading v).retrace 1).ended := by
  obtain ⟨hrun, hhalt⟩ : (s.reading v).pw.mode.isRunning = true ∧ (s.reading v).pw.halted = false := State.runs_iff.1 hruns
  have hk' : (s.reading v).pw.shedStep = 1 := hk
  change execSheddingStepRetrace v s = _
  rw [execSheddingStepRetrace, State.sense_of_cool hhot hv]
  simp [hrun, hhalt, hk', hc, hlevel, done_eq_ended]

end

/-- A port after the first step's retrace: one moved down, or held down, waits for a reset at Express (R69). -/
def Port.upshifting (x : Port) : Port := { x with upshiftPending := x.upshiftPending || x.shedDown, shedDown := false }

/-- The first step undone: SHED is left for the mode before (R378). -/
theorem State.retrace_first (hmode : s.pw.mode = .shed) (hthermal : s.pw.thermal = 0) (hacted : s.pw.acted = 1) : ∃ ports,
    (∀ p, State.port { s with ports := ports } p = (s.port p).upshifting) ∧
      s.retrace 1 = { s.recordShed 1 0 0 with
        ports := ports, pw := { s.pw with shedStep := 0, acted := 0, mode := s.pw.beforeShed } } := by
  obtain ⟨ports, hpend, hport⟩ := State.each_allPorts Port.upshifting ((s.recordShed 1 0 0).undoStep 1)
  have hcold : ¬ 1 ≤ s.pw.thermal := by omega
  have hact : 1 ≤ s.pw.acted := by omega
  have hmin : min s.pw.thermal 0 = s.pw.thermal := by omega
  have hretrace : s.retrace 1 = (((s.recordShed 1 0 0).undoStep 1).each allPorts fun s p => s.modPort p Port.upshifting).modPw fun w =>
      { w with shedStep := 0, thermal := min w.thermal 0, mode := if w.mode == .shed then w.beforeShed else w.mode } := by
    simp only [State.retrace, State.recordShed_pw, hcold, hact, if_true, if_false]
    rfl
  refine ⟨ports, hport, ?_⟩
  rw [hretrace, hpend]
  change ({ s.recordShed 1 0 0 with ports := ports, pw := { s.pw with
    shedStep := 0, acted := 0, thermal := min s.pw.thermal 0
    mode := if s.pw.mode == .shed then s.pw.beforeShed else s.pw.mode } } : State) = _
  rw [hmin, hmode]
  rfl

end Sys2Proof.Machine
end

section
/-! The shedding ladder (O12). -/
namespace Sys2Proof.Machine

/-- Settles O12: a step that engages is its entry, its mark and its action, the seventh is RETAIN; the first one's retrace gives the mode
back. -/
theorem shedding : Obligations.Shedding := by
  intro s v hruns hhot hv
  refine ⟨fun hk hc => ?_, fun hk hc => ?_, fun hk hc => ?_, fun hmode hk hthermal hacted hc hlevel => ?_⟩
  · refine ⟨_, execSheddingStepEngage_of_cause hruns hhot hv hk (by omega) hc, ?_⟩
    rw [State.bare_ended, State.ended_snag]
    rfl
  · refine ⟨_, execSheddingStepEngage_of_cause hruns hhot hv hk (by omega) hc, ?_⟩
    rw [State.bare_ended, State.ended_snag]
    rfl
  · obtain ⟨x, hx⟩ := ((s.reading v).recordShed 6 7 ((s.reading v).pw.causes 7)).enterRetain_eq
    refine ⟨_, execSheddingStepEngage_seventh hruns hhot hv hk hc, ?_⟩
    rw [hx]
    exact ⟨rfl, rfl, rfl⟩
  · obtain ⟨ports, hport, hretrace⟩ := State.retrace_first (s := s.reading v) hmode hthermal hacted
    have hports : ((s.reading v).retrace 1).ended.ports = ports := by
      rw [← State.bare_ports, State.bare_ended, hretrace]
      rfl
    refine ⟨_, execSheddingStepRetrace_first hruns hhot hv hk hc hlevel, fun p => ?_, ?_⟩
    · rw [State.port, hports]
      exact hport p
    · rw [State.bare_ended, State.ended_snag, hports, hretrace]
      rfl

end Sys2Proof.Machine
end

section
/-!
SUPPORT. The snag log (R390 to R392), the reads over SMBus (R393, R394) and the TAP (R389).
-/
namespace Sys2Proof.Machine

variable {s : State} {code : BitVec 8} {detail : List Byte}

theorem SnagLog.flash_length_add (l : SnagLog) (e : Snag) (within : Bool) : (l.add e within).flash.length = l.flash.length := by
  unfold SnagLog.add
  dsimp only
  (repeat' split) <;> simp_all

theorem SnagLog.index_add (l : SnagLog) (e : Snag) (within : Bool) : (l.add e within).index = l.index := by
  unfold SnagLog.add
  dsimp only
  (repeat' split) <;> rfl

/-- An occurrence of the newest entry's code and detail within 1 s merges with it (R390). -/
theorem SnagLog.add_of_same {l : SnagLog} {e x : Snag} {b : List Snag} (hb : l.buffer = x :: b) (hcode : x.code = e.code)
    (hdetail : x.detail = e.detail) :
    l.add e true = { l with buffer := { x with merged := satInc x.merged, last := e.last } :: b } := by
  simp [SnagLog.add, hb, hcode, hdetail]

/-- An occurrence of another code is kept as a new entry while there is room (R390). -/
theorem SnagLog.add_of_room {l : SnagLog} {e x : Snag} {b : List Snag} (within : Bool) (hb : l.buffer = x :: b) (hcode : x.code ≠ e.code)
    (hroom : l.buffer.length < 64) : l.add e within = { l with buffer := e :: x :: b, next := l.next + 1 } := by
  have hroom' : ¬ 64 ≤ b.length + 1 := by
    rw [hb, List.length_cons] at hroom
    omega
  simp [SnagLog.add, hb, hcode, hroom']

/-- With the buffer full it takes the newest place (R392). -/
theorem SnagLog.add_of_full {l : SnagLog} {e x : Snag} {b : List Snag} (within : Bool) (hb : l.buffer = x :: b) (hcode : x.code ≠ e.code)
    (hfull : 64 ≤ l.buffer.length) : l.add e within = { l with buffer := { e with sseq := x.sseq, merged := satInc x.merged } :: b } := by
  have hfull' : 64 ≤ b.length + 1 := by simpa [hb] using hfull
  simp [SnagLog.add, hb, hcode, hfull']

theorem SnagLog.add_of_empty {l : SnagLog} (e : Snag) (within : Bool) (hb : l.buffer = []) (hf : l.flash = []) :
    l.add e within = { l with buffer := [e], next := l.next + 1 } := by
  simp [SnagLog.add, hb, hf]

theorem State.record_snag : (s.record code detail).snag =
    s.snag.add (s.snagEntry code detail) (s.within1s (s.snag.newest.bind (·.last))) := rfl

/-- While the block runs the frame count measures the second (R390). -/
theorem State.snagNow_of_running (hrun : s.pw.mode.isRunning = true) : s.snagNow = some s.pl.subN := by
  cases hm : s.pw.mode <;> simp_all [State.snagNow, Mode.isRunning]

theorem State.within1s_of_newest {x : Snag} {b : List Snag} {n : Nat} (hrun : s.pw.mode.isRunning = true) (hb : s.snag.buffer = x :: b)
    (hlast : x.last = some n) (hnear : s.pl.subN ≤ n + 8000) : s.within1s (s.snag.newest.bind (·.last)) = true := by
  simp [State.within1s, SnagLog.newest, hb, hlast, State.snagNow_of_running hrun, hnear]

/-! ### The flush (R392) -/

/-- What leaves the block in a loop that writes each of a list to flash. -/
theorem State.each_emit {α : Type} (f : α → Out) (l : List α) (s : State) :
    (s.each l fun s x => s.emit (f x)) = { s with out := (l.map f).reverse ++ s.out } := by
  induction l generalizing s with
  | nil => rfl
  | cons x l ih =>
    rw [State.each_cons, ih]
    simp [State.emit]

/-- The address and bytes of an entry in flash. -/
def Snag.toFlash (e : Snag) : Out := .flash (0x450000 + 32 * (e.sseq.toNat % 8192)) e.bytes

theorem execSnagLogFlush_of_room (hspi : s.spiOurs = true) (hroom : s.snag.buffer.length + s.snag.flash.length ≤ 8192) :
    exec .snagLogFlush s = .next { s with
      out := s.snag.buffer.map Snag.toFlash ++ s.out
      snag := { s.snag with buffer := [], flash := s.snag.buffer ++ s.snag.flash } } := by
  have hwrites := State.each_emit Snag.toFlash s.snag.buffer.reverse s
  have hlen : (s.snag.buffer ++ s.snag.flash).length ≤ 8192 := by rwa [List.length_append]
  rw [List.map_reverse, List.reverse_reverse] at hwrites
  change execSnagLogFlush s = _
  simp only [execSnagLogFlush, hspi, hlen, if_true, Bool.not_true, Bool.false_eq_true, if_false]
  exact congrArg (fun u : State => Host.Outcome.next { u with snag := { s.snag with
    buffer := [], flash := s.snag.buffer ++ s.snag.flash } }) hwrites

/-! ### SMBus (R393, R394) -/

theorem State.length_health (s : State) : s.health.length = 24 := by simp [State.health, length_leBytes]

theorem State.smbusRead_of_running (reply : List Byte) (h : s.pw.mode.isRunning = true ∨ s.pw.mode = .standby) :
    s.smbusRead reply = s.emit (.smbus reply) := by
  cases hm : s.pw.mode <;> simp_all [State.smbusRead, Mode.isRunning]

end Sys2Proof.Machine
end

section
/-! Management (O60). -/
namespace Sys2Proof.Machine

/-- Settles O60: the log by what an addition to it does, the rest by its command's lemma or its definition. -/
theorem management : Obligations.Management := by
  refine ⟨fun s code detail hrun _ => ?_, fun s hspi hroom => ?_, fun s hon => ?_, fun s q hon => ?_, fun s hm => ?_, fun s => ?_⟩
  · have hnow := State.snagNow_of_running hrun
    refine ⟨rfl, SnagLog.flash_length_add _ _ _, SnagLog.index_add _ _ _, fun hb hf => ?_, fun x l n hb hlast hcode hdetail hnear => ?_,
      fun x l hb hcode => ⟨fun hroom => ?_, fun hfull => ?_⟩⟩
    · rw [State.record_snag, SnagLog.add_of_empty _ _ hb hf]
      exact ⟨_, rfl, rfl, rfl, rfl, rfl, by simp [State.snagEntry, hnow], rfl, rfl⟩
    · rw [State.record_snag, State.within1s_of_newest hrun hb hlast hnear, SnagLog.add_of_same hb hcode hdetail]
      exact ⟨by simp [State.snagEntry, hnow], rfl⟩
    · rw [State.record_snag, SnagLog.add_of_room _ hb hcode hroom]
      exact ⟨_, rfl, rfl, rfl, rfl, rfl⟩
    · rw [State.record_snag, SnagLog.add_of_full _ hb hcode hfull]
      exact ⟨_, rfl, rfl, rfl, rfl, rfl⟩
  · refine ⟨_, execSnagLogFlush_of_room hspi hroom, rfl, rfl, fun e he => ?_, rfl⟩
    exact List.mem_append_left _ (List.mem_map_of_mem he)
  · exact ⟨s.length_health, rfl, by simp [exec, execSmbusHealth, hon, State.emit]⟩
  · refine ⟨fun e he => ?_, fun hnone => ?_⟩
    · simp [exec, execSmbusSnagEntry, hon, he, State.emit, State.modPw]
    · simp [exec, execSmbusSnagEntry, hon, hnone, State.emit, State.modPw]
  · refine ⟨fun a b ha hb => ?_, ?_⟩
    · simp [exec, execSmbusSnagRange, State.smbusRead_of_running _ hm, ha, hb, State.emit]
    · simp [exec, execSmbusReqResult, State.smbusRead_of_running _ hm, State.emit]
  · refine ⟨rfl, rfl, fun x => ?_⟩
    cases x <;> simp [exec, execTapInstruction, tapAccepts, State.modPw, or_assoc]

end Sys2Proof.Machine
end
